-- ==== Sys2Proof/Word.lean ====
section
/-!
DEFINITION. The words of the machine and the plain functions on them (R2, R5).
-/
namespace Sys2Proof

/-- A 64-bit register. -/
abbrev Word := BitVec 64
/-- One byte of memory. -/
abbrev Byte := BitVec 8
/-- A 32-bit instruction word. -/
abbrev IWord := BitVec 32

/-- The field of `n` bits whose lowest bit is bit `lo` (R2). -/
def field {w : Nat} (x : BitVec w) (lo n : Nat) : BitVec n := BitVec.ofNat n (x.toNat / 2 ^ lo)

/-- The value of the field of `n` bits at `lo`. -/
def fieldN {w : Nat} (x : BitVec w) (lo n : Nat) : Nat := x.toNat / 2 ^ lo % 2 ^ n

/-- Fields laid one above the other, the first at bit 0; each entry is a width and a value. -/
def packNat : List (Nat × Nat) → Nat
  | [] => 0
  | (n, v) :: fs => v % 2 ^ n + 2 ^ n * packNat fs

/-- A 32-bit word made of fields, lowest first. -/
def packWord (fs : List (Nat × Nat)) : IWord := BitVec.ofNat 32 (packNat fs)

/-- `n` bytes of a number, lowest first (R5). -/
def toBytes : Nat → Nat → List Byte
  | 0, _ => []
  | n + 1, v => BitVec.ofNat 8 v :: toBytes n (v / 256)

/-- The number whose bytes are given, lowest first (R5). -/
def ofBytes : List Byte → Nat
  | [] => 0
  | b :: bs => b.toNat + 256 * ofBytes bs

/-- The signed value of the low `n` bits of a number. -/
def signedOf (n v : Nat) : Int := if v % 2 ^ n < 2 ^ (n - 1) then (v % 2 ^ n : Nat) else (v % 2 ^ n : Nat) - (2 ^ n : Nat)

/-- `Sext(x, n)` of R8 into a register. -/
def sext (n v : Nat) : Word := BitVec.ofInt 64 (signedOf n v)

/-- `Sat(x, lo, hi)` of R8. -/
def sat (x lo hi : Int) : Int := if x < lo then lo else if hi < x then hi else x

/-- Whether `n` divides `x`: natural alignment. -/
def aligned (n x : Nat) : Bool := x % n == 0

end Sys2Proof
end

