-- ==== Sys2Proof/Syntax.lean ====
section
/-!
DEFINITION. The instructions: one constructor for each row of the opcode table.
The first constructors are the steps of agents other than the sequencer; they have no encoding, and their operands
name the unit that acts and the data that comes from outside the machine. The others are the sequencer instructions,
with the fields of R92 to R110 and R58 under the manual's own names.
-/
namespace Sys2Proof

/-- The states of a voltage/frequency island (R29). -/
inductive VfState
  | on | hold | off
  deriving DecidableEq, Repr

/-- The queues with a watched header line: the CFW queue (R135), and host queue `q` of partition `p` (R129). -/
inductive QueueName
  | cfw
  | host (p q : Nat)
  deriving DecidableEq, Repr

/-- What an Ethernet frame for a rank carries: a signal, or one 32-byte sector of a push (R147). -/
inductive RankBody
  | signal (tag : BitVec 8) (mode : BitVec 1) (src : BitVec 8)
  | sector (off : Nat) (bytes : List Byte)
  deriving DecidableEq, Repr

/-- The instructions of the opcode table. -/
inductive Instr
  /-- COLD_RESET, R35: stage 0 is power-good, stages 1 to 6 the rows of R35. -/
  | coldReset (stage : Nat)
  /-- GET_VERSION, R35. -/
  | getVersion
  /-- GET_CAPABILITIES, R35. -/
  | getCapabilities
  /-- NEGOTIATE_ALGORITHMS, R35. -/
  | negotiateAlgorithms
  /-- GET_CERTIFICATE, R35, R152. -/
  | getCertificate (slot : Nat)
  /-- GET_MEASUREMENTS, R37: one die, or all. -/
  | getMeasurements (which : Option Nat)
  /-- TD_LINK_MESSAGE, R17. -/
  | tdLinkMessage (die : Nat) (msg : List Byte) (code : BitVec 128)
  /-- UCIE_MODULE_REMOVAL, R18. -/
  | ucieModuleRemoval (link : Nat)
  /-- FABRIC_PORT_DOWNSHIFT, R33. -/
  | fabricPortDownshift (port : Nat)
  /-- PSEUDO_CHANNEL_MAP_OUT, R34. -/
  | pseudoChannelMapOut (pc : Nat)
  /-- ISLAND_STATE_CHANGE, R29. -/
  | islandStateChange (vf : Nat) (st : VfState)
  /-- CFWQ, R135. -/
  | cfwq (pa : Word)
  /-- HEADER_LINE_CHANGE, R130. -/
  | headerLineChange (q : QueueName)
  /-- BAD_COMMAND, R138. -/
  | badCommand
  /-- DEV_INFO, R403. -/
  | devInfo
  /-- DEV_HEALTH, R389. -/
  | devHealth
  /-- QUEUE_REG, R139. -/
  | queueReg
  /-- QUEUE_UNREG, R139. -/
  | queueUnreg
  /-- PART_CREATE, R143. -/
  | partCreate
  /-- PART_DESTROY, R392. -/
  | partDestroy
  /-- PART_QUERY, R138. -/
  | partQuery
  /-- PART_SUSPEND, R396: start from the packet, or finish for a partition. -/
  | partSuspend (fin : Option Nat)
  /-- PART_RESUME, R397: start from the packet, or finish for a partition. -/
  | partResume (fin : Option Nat)
  /-- PART_MIGRATE_OUT, R398. -/
  | partMigrateOut
  /-- PART_MIGRATE_IN, R138. -/
  | partMigrateIn
  /-- S2_UPDATE, R169. -/
  | s2Update
  /-- S2_RESUME, R167. -/
  | s2Resume
  /-- S2_ABORT, R167. -/
  | s2Abort
  /-- RANK_SET, R146. -/
  | rankSet
  /-- METER_ARM, R151. -/
  | meterArm
  /-- METER_READ, R138. -/
  | meterRead
  /-- NOP_PACKET, R132. -/
  | nopPacket (p q : Nat)
  /-- LAUNCH_PACKET, R132. -/
  | launchPacket (p q : Nat)
  /-- GATE, R133. -/
  | gate (p q : Nat)
  /-- PATCH, R132. -/
  | patch (p q : Nat)
  /-- INVAL, R174. -/
  | inval (p q : Nat)
  /-- HCOPY, R134. -/
  | hcopy (p q : Nat)
  /-- SIGNAL, R134. -/
  | signal (p q : Nat)
  /-- PACKET_MALFORMED, R132. -/
  | packetMalformed (p q : Nat)
  /-- GATE_EVALUATION, R133. -/
  | gateEvaluation (p q : Nat)
  /-- GATE_TIMEOUT, R133. -/
  | gateTimeout (p q : Nat)
  /-- HCOPY_COMPLETION, R134: one sector, or the end, of the queue's oldest copy. -/
  | hcopyCompletion (p q sector : Nat)
  /-- SIGNAL_AFTER_REPLAYS, R134. -/
  | signalAfterReplays (p q : Nat)
  /-- REPLAY_BEGIN, R55: replay number n. -/
  | replayBegin (p n : Nat)
  /-- REPLAY_COMPLETE, R391. -/
  | replayComplete (p n : Nat)
  /-- GANG_TICK, R159. -/
  | gangTick (set : Nat)
  /-- REGION_COMPLETION, R390. -/
  | regionCompletion (r : Nat)
  /-- MARKER_ARRIVAL, R359. -/
  | markerArrival (r : Nat)
  /-- REGION_SAVE_COMPLETE, R360. -/
  | regionSaveComplete (r : Nat)
  /-- SAVE_DEADLINE, R361: a die graph of replay n. -/
  | saveDeadline (p n dg : Nat)
  /-- PARTITION_RESET, R356. -/
  | partitionReset (p : Nat)
  /-- CAUSE_DELIVERY, R188. -/
  | causeDelivery (r : Nat)
  /-- YIELD_TIMEOUT, R198. -/
  | yieldTimeout (r : Nat)
  /-- REPLICA_CREATION, R177. -/
  | replicaCreation (p : Nat)
  /-- COLLAPSE, R178. -/
  | collapse (p : Nat)
  /-- REMOTE_PAGE, R180: the pulled frame's bytes, lowest first, zero past the list. -/
  | remotePage (p : Nat) (data : List Byte)
  /-- REMOTE_PULL_TIMEOUT, R182. -/
  | remotePullTimeout (p : Nat)
  /-- REMAINING_FRAME_PULL, R181. -/
  | remainingFramePull (p : Nat) (data : List Byte)
  /-- PULL_SERVE, R400. -/
  | pullServe (p frame : Nat) (session : BitVec 128)
  /-- MIGRATION_SOURCE_END, R400. -/
  | migrationSourceEnd (p : Nat) (session : BitVec 128)
  /-- EXTENT_MISS, R172. -/
  | extentMiss (r s : Nat)
  /-- STREAM_ACCESS, R284. -/
  | streamAccess (r s : Nat)
  /-- COPY_SECTOR, R307. -/
  | copySector (r c sector : Nat)
  /-- COPY_COMPLETION, R307. -/
  | copyCompletion (r c : Nat)
  /-- REMOTE_SIGNAL, R326: the oldest from one issuer to one target. -/
  | remoteSignal (src dst : Nat)
  /-- DONE_TOKEN, R52. -/
  | doneToken (r : Nat)
  /-- ARM_EVALUATION, R325. -/
  | armEvaluation (r t : Nat)
  /-- ROUTER_WORD_ARRIVAL, R320. -/
  | routerWordArrival (r : Nat) (mesh : Bool)
  /-- KEY_MISMATCH, R145. -/
  | keyMismatch (port key : Nat)
  /-- RANK_FRAME_ARRIVAL, R147. -/
  | rankFrameArrival (port key region : Nat) (body : RankBody)
  /-- RANK_ACK, R147. -/
  | rankAck (p frame : Nat)
  /-- FOLD_OPERATION, R331. -/
  | foldOperation (issuer owner row : Nat)
  /-- FOLD_RETURN, R327. -/
  | foldReturn (r : Nat)
  /-- ORPHAN_RETURN, R381. -/
  | orphanReturn (src dst : Nat)
  /-- WINDOW_REHOME, R382. -/
  | windowRehome (p w : Nat)
  /-- ISLAND_SLOT, R230. -/
  | islandSlot (r : Nat) (bank : Bool) (isl : Nat)
  /-- ISLAND_SWITCH, R269. -/
  | islandSwitch (r isl : Nat)
  /-- ROUND_FENCE, R348. -/
  | roundFence (r : Nat) (bank : Bool)
  /-- ROUND_COMMIT, R351. -/
  | roundCommit (r : Nat) (bank : Bool)
  /-- ROUND_REPLAY, R353. -/
  | roundReplay (r : Nat) (bank : Bool)
  /-- BANK_DRAIN, R268. -/
  | bankDrain (r : Nat) (bank : Bool)
  /-- EDGE_STEP, R253. -/
  | edgeStep (r row : Nat)
  /-- THROTTLE_LEVEL_SET, R368. -/
  | throttleLevelSet (vf level : Nat)
  /-- THERMAL_TRIP, R388. -/
  | thermalTrip (die : Nat)
  /-- THERMAL_RECOVERY, R388. -/
  | thermalRecovery (die : Nat)
  /-- HEARTBEAT_PERIOD, R372. -/
  | heartbeatPeriod (r t : Nat)
  /-- HEARTBEAT, R374. -/
  | heartbeat (r t : Nat)
  /-- ACCUSE, R375. -/
  | accuse (r t : Nat)
  /-- WITHDRAW, R375. -/
  | withdraw (r t : Nat)
  /-- FENCE_BEAT, R376. -/
  | fenceBeat (r t : Nat)
  /-- APPEAL, R385. -/
  | appeal (r t : Nat)
  /-- ADMIT, R385. -/
  | admitBeat (r t : Nat)
  /-- PERIOD_END, R376. -/
  | periodEnd (r t : Nat)
  /-- REMAP, R383. -/
  | remap (r : Nat)
  /-- BIST_END, R379. -/
  | bistEnd (r t : Nat)
  /-- APPEAL_LIMIT, R379. -/
  | appealLimit (r t : Nat)
  /-- PROBATION_END, R379. -/
  | probationEnd (r t : Nat)
  /-- METER_WINDOW, R149. -/
  | meterWindow (die : Nat) (codeOk : Bool)
  /-- USAGE_RECORD, R151. -/
  | usageRecord (p : Nat)
  /-- KEY_QUARANTINE_END, R393. -/
  | keyQuarantineEnd (key : Nat)
  /-- DECODE_FAULT, R93. -/
  | decodeFault
  /-- RANK_FRAME_RETRANSMISSION, R147. -/
  | rankFrameRetransmission (p frame : Nat)
  /-- SUSPEND_TIMEOUT, R361. -/
  | suspendTimeout (p : Nat)
  /-- TILE_FALLS_SILENT, R374. -/
  | tileFallsSilent (r t : Nat) (babble : Bool)
  /-- MEMORY_POISON, R212. -/
  | memoryPoison (pa len : Nat)
  -- sys, R97, R198
  | nop (k : BitVec 3)
  | brk (k : BitVec 3)
  | seqEnd (k : BitVec 3)
  | yield (k : BitVec 3)
  | eret (k : BitVec 3)
  | time (d : BitVec 5) (k : BitVec 3)
  | whoami (d : BitVec 5) (k : BitVec 3)
  -- int, R97, R199-R202
  | add (d a b : BitVec 5) (k : BitVec 3)
  | sub (d a b : BitVec 5) (k : BitVec 3)
  | mul (d a b : BitVec 5) (k : BitVec 3)
  | mulh (d a b : BitVec 5) (k : BitVec 3)
  | mulhu (d a b : BitVec 5) (k : BitVec 3)
  | div (d a b : BitVec 5) (k : BitVec 3)
  | divu (d a b : BitVec 5) (k : BitVec 3)
  | rem (d a b : BitVec 5) (k : BitVec 3)
  | remu (d a b : BitVec 5) (k : BitVec 3)
  | and (d a b : BitVec 5) (k : BitVec 3)
  | or (d a b : BitVec 5) (k : BitVec 3)
  | xor (d a b : BitVec 5) (k : BitVec 3)
  | andn (d a b : BitVec 5) (k : BitVec 3)
  | shl (d a b : BitVec 5) (k : BitVec 3)
  | shr (d a b : BitVec 5) (k : BitVec 3)
  | sar (d a b : BitVec 5) (k : BitVec 3)
  | rol (d a b : BitVec 5) (k : BitVec 3)
  | min (d a b : BitVec 5) (k : BitVec 3)
  | max (d a b : BitVec 5) (k : BitVec 3)
  | minu (d a b : BitVec 5) (k : BitVec 3)
  | maxu (d a b : BitVec 5) (k : BitVec 3)
  | clz (d a : BitVec 5) (k : BitVec 3)
  | ctz (d a : BitVec 5) (k : BitVec 3)
  | popc (d a : BitVec 5) (k : BitVec 3)
  | bswap (d a : BitVec 5) (k : BitVec 3)
  | sextB (d a : BitVec 5) (k : BitVec 3)
  | sextH (d a : BitVec 5) (k : BitVec 3)
  | sextW (d a : BitVec 5) (k : BitVec 3)
  | addsat (d a b : BitVec 5) (k : BitVec 3)
  | subsat (d a b : BitVec 5) (k : BitVec 3)
  | sel (d a b : BitVec 5) (p : BitVec 3)
  -- immediate, R98, R203
  | addi (d a : BitVec 5) (i : BitVec 14)
  | andi (d a : BitVec 5) (i : BitVec 14)
  | ori (d a : BitVec 5) (i : BitVec 14)
  | xori (d a : BitVec 5) (i : BitVec 14)
  | shli (d a : BitVec 5) (n : BitVec 6)
  | shri (d a : BitVec 5) (n : BitVec 6)
  | sari (d a : BitVec 5) (n : BitVec 6)
  -- li, R99, R203
  | li8 (d : BitVec 5) (i : BitVec 32)
  | li12 (d : BitVec 5) (i : BitVec 64)
  -- addpc, R99, R203
  | addpc4 (d : BitVec 5) (i : BitVec 14)
  | addpc8 (d : BitVec 5) (i : BitVec 32)
  -- cmp, R97, R204
  | cmpEq (d : BitVec 3) (a b : BitVec 5) (k : BitVec 3)
  | cmpNe (d : BitVec 3) (a b : BitVec 5) (k : BitVec 3)
  | cmpLt (d : BitVec 3) (a b : BitVec 5) (k : BitVec 3)
  | cmpLtu (d : BitVec 3) (a b : BitVec 5) (k : BitVec 3)
  | cmpGe (d : BitVec 3) (a b : BitVec 5) (k : BitVec 3)
  | cmpGeu (d : BitVec 3) (a b : BitVec 5) (k : BitVec 3)
  | cmpBit (d : BitVec 3) (a b : BitVec 5) (k : BitVec 3)
  -- cmpi, R98, R204
  | cmpiEq (d : BitVec 3) (a : BitVec 5) (i : BitVec 14)
  | cmpiNe (d : BitVec 3) (a : BitVec 5) (i : BitVec 14)
  | cmpiLt (d : BitVec 3) (a : BitVec 5) (i : BitVec 14)
  | cmpiGe (d : BitVec 3) (a : BitVec 5) (i : BitVec 14)
  -- cmpiu, R98, R204
  | cmpiuLt (d : BitVec 3) (a : BitVec 5) (i : BitVec 14)
  | cmpiuGe (d : BitVec 3) (a : BitVec 5) (i : BitVec 14)
  -- pred, R97, R205
  | pand (d a b k : BitVec 3)
  | por (d a b k : BitVec 3)
  | pxor (d a b k : BitVec 3)
  | pandn (d a b k : BitVec 3)
  | pnot (d a k : BitVec 3)
  | kmov (d a k : BitVec 3)
  | kset (d : BitVec 3) (a : BitVec 5) (k : BitVec 3)
  -- br, R95, R206
  | br (c : BitVec 3) (n : BitVec 1) (i : BitVec 20)
  -- jmp, R100, R206
  | jmp (i : BitVec 24)
  -- jal, R100, R207
  | jal (d : BitVec 5) (i : BitVec 19)
  -- jalr, R98, R207
  | jalr (d a : BitVec 5) (i : BitVec 14)
  -- dbnz, R98, R208
  | dbnz (a : BitVec 5) (i : BitVec 14)
  -- ld and st, R101, R211
  | ld (d a : BitVec 5) (size : BitVec 3) (order : BitVec 2) (scope k : BitVec 3) (off : BitVec 32)
  | st (d a : BitVec 5) (size : BitVec 3) (order : BitVec 2) (scope k : BitVec 3) (off : BitVec 32)
  -- fence, R102, R216
  | fence (scope k : BitVec 3)
  | fenceAcq (scope k : BitVec 3)
  | fenceRel (scope k : BitVec 3)
  | fenceStrm (scope k : BitVec 3)
  -- cfg, R97, R268-R277
  | cfgLoad (a : BitVec 5) (k : BitVec 3)
  | cfgRun (k : BitVec 3)
  | cfgDrain (k : BitVec 3)
  | cfgParam (a b : BitVec 5) (k : BitVec 3)
  | cfgUnbind (a : BitVec 5) (k : BitVec 3)
  | cfgQuery (d a : BitVec 5) (k : BitVec 3)
  | cfgAbort (k : BitVec 3)
  -- strm, R103, R297-R304
  | strmOpen (s : BitVec 7) (a : BitVec 5) (nw : BitVec 1) (off : BitVec 32)
  | strmGo (s : BitVec 7) (nw acq rel : BitVec 1) (scope : BitVec 3)
  | strmBar (s : BitVec 7) (a b : BitVec 5) (nw : BitVec 1)
  | strmClose (s : BitVec 7) (nw : BitVec 1)
  | strmPos (s : BitVec 7) (a : BitVec 5)
  | strmSeek (s : BitVec 7) (a : BitVec 5) (nw : BitVec 1) (off : BitVec 32)
  | strmBind (s : BitVec 7) (kind pos idx : BitVec 8) (nw : BitVec 1)
  | strmFilt (s : BitVec 7) (f : BitVec 8) (nw : BitVec 1)
  | strmStat (s : BitVec 7) (a : BitVec 5)
  -- push, pull and pushn, R104, R305
  | push (a b n : BitVec 5) (acq rel : BitVec 1) (scope k : BitVec 3) (off : BitVec 32) (m : BitVec 5) (t : BitVec 8)
  | pull (a b n : BitVec 5) (acq rel : BitVec 1) (scope k : BitVec 3) (off : BitVec 32) (m : BitVec 5) (t : BitVec 8)
  | pushn (a b n : BitVec 5) (acq rel : BitVec 1) (scope k : BitVec 3) (off : BitVec 32) (m : BitVec 5) (t region : BitVec 8)
  -- tag, R105, R317-R326
  | tagBlk (t : BitVec 8) (k : BitVec 3)
  | tagUbk (t : BitVec 8) (k : BitVec 3)
  | tagWait (t : BitVec 8) (k : BitVec 3)
  | tagTest (t : BitVec 8) (d k : BitVec 3)
  | tagCnt (t : BitVec 8) (i : BitVec 16) (k : BitVec 3)
  | tagBind (t : BitVec 8) (isl : BitVec 4) (k : BitVec 3)
  | tagArm (t : BitVec 8) (a b : BitVec 5) (k : BitVec 3)
  | tagSig (t : BitVec 8) (a : BitVec 5) (mode acq rel : BitVec 1) (scope k : BitVec 3)
  | tagClr (t : BitVec 8) (k : BitVec 3)
  -- fold, R106, R333
  | fold (a b c : BitVec 5) (op : BitVec 4) (r : BitVec 1) (slot : BitVec 4) (off : BitVec 20) (size : BitVec 2) (acq rel : BitVec 1) (scope k : BitVec 3)
  -- commit, R107, R328
  | commit (d : BitVec 5) (n : BitVec 4)
  | landTest (d : BitVec 3) (n : BitVec 4)
  -- chn, R108, R311
  | chnOpen (k : BitVec 3) (ch : BitVec 12)
  | chnSend (a b : BitVec 5) (k : BitVec 3) (ch : BitVec 12)
  | chnRecv (d a b : BitVec 5) (k : BitVec 3) (ch : BitVec 12)
  | chnClose (k : BitVec 3) (ch : BitVec 12)
  | chnStat (d : BitVec 5) (k : BitVec 3) (ch : BitVec 12)
  -- launch, R58
  | launch (d a b : BitVec 5) (prio : BitVec 2) (nw : BitVec 1) (k : BitVec 3) (immG immF : BitVec 32)
  -- csr, R109, R217
  | csrr (d : BitVec 5) (c : BitVec 12)
  | csrw (d a : BitVec 5) (c : BitVec 12)
  | csrs (d a : BitVec 5) (c : BitVec 12)
  | csrc (d a : BitVec 5) (c : BitVec 12)
  -- trap, R110, R218
  | trap (i : BitVec 14)
  deriving DecidableEq, Repr

end Sys2Proof
end

