-- ==== Sys2Proof/WellFormed.lean ====
section
/-!
DEFINITION. Which terms of Instr are instructions: the field values that R92 to R110, R58 and the unit numbers of
R12 to R38, R141 and R371 allow.
-/
namespace Sys2Proof

/-- The sizes of fold: h only with fadd and fadd.f, d never with them, 3 never (R106). -/
def foldSizeLegal (op : BitVec 4) (size : BitVec 2) : Bool :=
  match size.toNat with
  | 0 => true
  | 1 => !(op == 2 || op == 3)
  | 2 => op == 2 || op == 3
  | _ => false

/-- The scope field of an instruction with flags acq and rel: zero when both are clear, never 7 (R104, R106). -/
def flagScopeLegal (acq rel : BitVec 1) (scope : BitVec 3) : Bool :=
  !(acq == 0 && rel == 0 && scope != 0) && scope != 7

/-- The order and scope fields of ld and st (R101); `bad` is the order code that the instruction refuses. -/
def memOrderLegal (order bad : BitVec 2) (scope : BitVec 3) : Bool :=
  order != 3 && order != bad && !(order == 0 && scope != 0) && scope != 7

/-- A region number (R19). -/
def isRegion (r : Nat) : Bool := decide (r < 192)
/-- A partition number (R143). -/
def isPart (p : Nat) : Bool := decide (p < 48)
/-- A host queue of a partition (R60). -/
def isQueue (p q : Nat) : Bool := isPart p && decide (q < 16)
/-- A tile index (R371). -/
def isTile (t : Nat) : Bool := decide (t < 354)

/-- Whether a term is an instruction of the machine. -/
def WellFormed (i : Instr) : Bool :=
  match i with
  | .coldReset stage => decide (stage ≤ 6)
  | .getVersion => true
  | .getCapabilities => true
  | .negotiateAlgorithms => true
  | .getCertificate slot => decide (slot < 8)
  | .getMeasurements which => decide (which.getD 0 < 5)
  | .tdLinkMessage die _ _ => decide (die < 5)
  | .ucieModuleRemoval link => decide (link < 13)
  | .fabricPortDownshift port => decide (port < 16)
  | .pseudoChannelMapOut pc => decide (pc < 512)
  | .islandStateChange vf _ => decide (vf < 48)
  | .cfwq _ => true
  | .headerLineChange q => (match q with | .cfw => true | .host p n => isQueue p n)
  | .badCommand => true
  | .devInfo => true
  | .devHealth => true
  | .queueReg => true
  | .queueUnreg => true
  | .partCreate => true
  | .partDestroy => true
  | .partQuery => true
  | .partSuspend fin => isPart (fin.getD 0)
  | .partResume fin => isPart (fin.getD 0)
  | .partMigrateOut => true
  | .partMigrateIn => true
  | .s2Update => true
  | .s2Resume => true
  | .s2Abort => true
  | .rankSet => true
  | .meterArm => true
  | .meterRead => true
  | .nopPacket p q => isQueue p q
  | .launchPacket p q => isQueue p q
  | .gate p q => isQueue p q
  | .patch p q => isQueue p q
  | .inval p q => isQueue p q
  | .hcopy p q => isQueue p q
  | .signal p q => isQueue p q
  | .packetMalformed p q => isQueue p q
  | .gateEvaluation p q => isQueue p q
  | .gateTimeout p q => isQueue p q
  | .hcopyCompletion p q _ => isPart p && decide (q < 17)
  | .signalAfterReplays p q => isQueue p q
  | .replayBegin p _ => isPart p
  | .replayComplete p _ => isPart p
  | .gangTick set => isPart set
  | .regionCompletion r => isRegion r
  | .markerArrival r => isRegion r
  | .regionSaveComplete r => isRegion r
  | .saveDeadline p _ dg => isPart p && decide (dg < 4)
  | .partitionReset p => isPart p
  | .causeDelivery r => isRegion r
  | .yieldTimeout r => isRegion r
  | .replicaCreation p => isPart p
  | .collapse p => isPart p
  | .remotePage p data => isPart p && decide (data.length ≤ 2097152)
  | .remotePullTimeout p => isPart p
  | .remainingFramePull p data => isPart p && decide (data.length ≤ 2097152)
  | .pullServe p _ _ => isPart p
  | .migrationSourceEnd p _ => isPart p
  | .extentMiss r s => isRegion r && decide (s < 128)
  | .streamAccess r s => isRegion r && decide (s < 128)
  | .copySector r _ _ => isRegion r
  | .copyCompletion r _ => isRegion r
  | .remoteSignal src dst => isRegion src && isRegion dst
  | .doneToken r => isRegion r
  | .armEvaluation r t => isRegion r && decide (t < 256)
  | .routerWordArrival r _ => isRegion r
  | .keyMismatch port key => decide (port < 65536) && decide (key < 65536)
  | .rankFrameArrival port key region body => decide (port < 16) && decide (key < 65536) && isRegion region &&
      (match body with | .signal _ _ src => decide (src.toNat < 192) | .sector off bytes => decide (off % 32 = 0) && decide (off < 2097152) && decide (bytes.length = 32))
  | .rankAck p _ => isPart p
  | .foldOperation issuer owner row => isRegion issuer && isRegion owner && decide (row < 16)
  | .foldReturn r => isRegion r
  | .orphanReturn src dst => isRegion src && isRegion dst
  | .windowRehome p w => isPart p && decide (w < 64)
  | .islandSlot r _ isl => isRegion r && decide (isl < 16)
  | .islandSwitch r isl => isRegion r && decide (isl < 16)
  | .roundFence r _ => isRegion r
  | .roundCommit r _ => isRegion r
  | .roundReplay r _ => isRegion r
  | .bankDrain r _ => isRegion r
  | .edgeStep r row => isRegion r && decide (row < 16)
  | .throttleLevelSet vf level => decide (vf < 40) && decide (vf % 10 < 8) && decide (level ≤ 60)
  | .thermalTrip die => decide (die < 4)
  | .thermalRecovery die => decide (die < 4)
  | .heartbeatPeriod r t => isRegion r && isTile t
  | .heartbeat r t => isRegion r && isTile t
  | .accuse r t => isRegion r && isTile t
  | .withdraw r t => isRegion r && isTile t
  | .fenceBeat r t => isRegion r && isTile t
  | .appeal r t => isRegion r && isTile t
  | .admitBeat r t => isRegion r && isTile t
  | .periodEnd r t => isRegion r && isTile t
  | .remap r => isRegion r
  | .bistEnd r t => isRegion r && isTile t
  | .appealLimit r t => isRegion r && isTile t
  | .probationEnd r t => isRegion r && isTile t
  | .meterWindow die _ => decide (die < 4)
  | .usageRecord p => isPart p
  | .keyQuarantineEnd key => decide (key < 65536)
  | .decodeFault => true
  | .rankFrameRetransmission p _ => isPart p
  | .suspendTimeout p => isPart p
  | .tileFallsSilent r t _ => isRegion r && isTile t
  | .memoryPoison pa len => decide (pa + len ≤ 2 ^ 52)
  | .nop _ => true
  | .brk _ => true
  | .seqEnd _ => true
  | .yield _ => true
  | .eret _ => true
  | .time _ _ => true
  | .whoami _ _ => true
  | .add _ _ _ _ => true
  | .sub _ _ _ _ => true
  | .mul _ _ _ _ => true
  | .mulh _ _ _ _ => true
  | .mulhu _ _ _ _ => true
  | .div _ _ _ _ => true
  | .divu _ _ _ _ => true
  | .rem _ _ _ _ => true
  | .remu _ _ _ _ => true
  | .and _ _ _ _ => true
  | .or _ _ _ _ => true
  | .xor _ _ _ _ => true
  | .andn _ _ _ _ => true
  | .shl _ _ _ _ => true
  | .shr _ _ _ _ => true
  | .sar _ _ _ _ => true
  | .rol _ _ _ _ => true
  | .min _ _ _ _ => true
  | .max _ _ _ _ => true
  | .minu _ _ _ _ => true
  | .maxu _ _ _ _ => true
  | .clz _ _ _ => true
  | .ctz _ _ _ => true
  | .popc _ _ _ => true
  | .bswap _ _ _ => true
  | .sextB _ _ _ => true
  | .sextH _ _ _ => true
  | .sextW _ _ _ => true
  | .addsat _ _ _ _ => true
  | .subsat _ _ _ _ => true
  | .sel _ _ _ _ => true
  | .addi _ _ _ => true
  | .andi _ _ _ => true
  | .ori _ _ _ => true
  | .xori _ _ _ => true
  | .shli _ _ _ => true
  | .shri _ _ _ => true
  | .sari _ _ _ => true
  | .li8 _ _ => true
  | .li12 _ _ => true
  | .addpc4 _ _ => true
  | .addpc8 _ _ => true
  | .cmpEq _ _ _ _ => true
  | .cmpNe _ _ _ _ => true
  | .cmpLt _ _ _ _ => true
  | .cmpLtu _ _ _ _ => true
  | .cmpGe _ _ _ _ => true
  | .cmpGeu _ _ _ _ => true
  | .cmpBit _ _ _ _ => true
  | .cmpiEq _ _ _ => true
  | .cmpiNe _ _ _ => true
  | .cmpiLt _ _ _ => true
  | .cmpiGe _ _ _ => true
  | .cmpiuLt _ _ _ => true
  | .cmpiuGe _ _ _ => true
  | .pand _ _ _ _ => true
  | .por _ _ _ _ => true
  | .pxor _ _ _ _ => true
  | .pandn _ _ _ _ => true
  | .pnot _ _ _ => true
  | .kmov _ _ _ => true
  | .kset _ _ _ => true
  | .br _ _ _ => true
  | .jmp _ => true
  | .jal _ _ => true
  | .jalr _ _ _ => true
  | .dbnz _ _ => true
  | .ld _ _ size order scope _ _ => size != 7 && memOrderLegal order 2 scope
  | .st _ _ size order scope _ _ => decide (size.toNat < 4) && memOrderLegal order 1 scope
  | .fence scope _ => scope != 7
  | .fenceAcq scope _ => scope != 7
  | .fenceRel scope _ => scope != 7
  | .fenceStrm scope _ => scope != 7
  | .cfgLoad _ _ => true
  | .cfgRun _ => true
  | .cfgDrain _ => true
  | .cfgParam _ _ _ => true
  | .cfgUnbind _ _ => true
  | .cfgQuery _ _ _ => true
  | .cfgAbort _ => true
  | .strmOpen _ _ _ _ => true
  | .strmGo _ _ _ _ scope => scope != 7
  | .strmBar _ _ _ _ => true
  | .strmClose _ _ => true
  | .strmPos _ _ => true
  | .strmSeek _ _ _ _ => true
  | .strmBind _ _ _ _ _ => true
  | .strmFilt _ _ _ => true
  | .strmStat _ _ => true
  | .push _ _ _ acq rel scope _ _ _ _ => flagScopeLegal acq rel scope
  | .pull _ _ _ acq rel scope _ _ _ _ => flagScopeLegal acq rel scope
  | .pushn _ _ _ acq rel scope _ _ _ _ _ => flagScopeLegal acq rel scope
  | .tagBlk _ _ => true
  | .tagUbk _ _ => true
  | .tagWait _ _ => true
  | .tagTest _ _ _ => true
  | .tagCnt _ _ _ => true
  | .tagBind _ _ _ => true
  | .tagArm _ _ _ _ => true
  | .tagSig _ _ _ _ _ scope _ => scope != 7
  | .tagClr _ _ => true
  | .fold _ b c op r slot _ size acq rel scope _ => decide (op.toNat < 14) && foldSizeLegal op size && !(op == 13 && b != 0) && !(op != 12 && c != 0) &&
      !(r == 0 && slot != 0) && flagScopeLegal acq rel scope
  | .commit _ _ => true
  | .landTest _ _ => true
  | .chnOpen _ _ => true
  | .chnSend _ _ _ _ => true
  | .chnRecv _ _ _ _ _ => true
  | .chnClose _ _ => true
  | .chnStat _ _ _ => true
  | .launch _ _ _ _ _ _ _ _ => true
  | .csrr _ _ => true
  | .csrw _ _ _ => true
  | .csrs _ _ _ => true
  | .csrc _ _ _ => true
  | .trap _ => true

end Sys2Proof
end

