-- ==== Sys2Proof/Decode.lean ====
section
/-!
DEFINITION. The decoder of R92 to R110 and R58, and after it the encoder of the same layouts.
-/
namespace Sys2Proof

/-- Why a word is no instruction: the decode faults of R93. -/
inductive Reject
  | lenIllegal | majorIllegal | fnIllegal | fieldReserved | orderIllegal | scopeIllegal | truncated
  deriving DecidableEq, Repr

/-- The length in bytes that the length code of a lead word names; code 3 is none (R92). -/
def lengthCode (w : IWord) : Option Nat :=
  match fieldN w 30 2 with
  | 0 => some 4
  | 1 => some 8
  | 2 => some 12
  | _ => none

/-- The lengths that each major of the opcode map accepts; none for a major that is not in it (R96). -/
def majorLengths (m : Nat) : Option (List Nat) :=
  if m ≤ 0x08 then some [4]
  else if m = 0x09 then some [8, 12]
  else if m = 0x0A then some [4, 8]
  else if 0x10 ≤ m ∧ m ≤ 0x18 then some [4]
  else if m = 0x1C ∨ m = 0x1D then some [8]
  else if m = 0x1E ∨ m = 0x20 then some [4]
  else if m = 0x24 then some [8]
  else if 0x28 ≤ m ∧ m ≤ 0x2A then some [12]
  else if m = 0x2C ∨ m = 0x30 then some [8]
  else if m = 0x31 then some [4]
  else if m = 0x34 then some [8]
  else if m = 0x38 then some [12]
  else if m = 0x3C ∨ m = 0x3F then some [4]
  else none

/-- Steps 2 to 4 of R93: the length of the instruction that a lead word begins. -/
def decodeLength (w : IWord) : Except Reject Nat :=
  match lengthCode w with
  | none => .error .lenIllegal
  | some n =>
    match majorLengths (fieldN w 24 6) with
    | none => .error .majorIllegal
    | some ns => if n ∈ ns then .ok n else .error .lenIllegal

/-- Step 7 of R93: an instruction whose must-be-zero fields are not all zero is FIELD_RESERVED. -/
def mbz (nonzero : Bool) (i : Instr) : Except Reject Instr :=
  if nonzero then .error .fieldReserved else .ok i

/-- Steps 7 and 8 of R93 for an instruction with a scope code. -/
def scopeOk (nonzero : Bool) (scope : BitVec 3) (i : Instr) : Except Reject Instr :=
  if nonzero then .error .fieldReserved else if scope = 7 then .error .scopeIllegal else .ok i

/-- Major 0x00, sys (R97). -/
def decodeSys (w : IWord) : Except Reject Instr :=
  let d : BitVec 5 := field w 19 5
  let k : BitVec 3 := field w 0 3
  let ab := fieldN w 9 10 != 0
  match fieldN w 3 6 with
  | 0 => mbz (d != 0 || ab) (.nop k)
  | 1 => mbz (d != 0 || ab) (.brk k)
  | 2 => mbz (d != 0 || ab) (.seqEnd k)
  | 3 => mbz (d != 0 || ab) (.yield k)
  | 4 => mbz (d != 0 || ab) (.eret k)
  | 5 => mbz ab (.time d k)
  | 6 => mbz ab (.whoami d k)
  | _ => .error .fnIllegal

/-- Major 0x01, int (R97). -/
def decodeInt (w : IWord) : Except Reject Instr :=
  let d : BitVec 5 := field w 19 5
  let a : BitVec 5 := field w 14 5
  let b : BitVec 5 := field w 9 5
  let k : BitVec 3 := field w 0 3
  match fieldN w 3 6 with
  | 0 => .ok (.add d a b k)
  | 1 => .ok (.sub d a b k)
  | 2 => .ok (.mul d a b k)
  | 3 => .ok (.mulh d a b k)
  | 4 => .ok (.mulhu d a b k)
  | 5 => .ok (.div d a b k)
  | 6 => .ok (.divu d a b k)
  | 7 => .ok (.rem d a b k)
  | 8 => .ok (.remu d a b k)
  | 9 => .ok (.and d a b k)
  | 10 => .ok (.or d a b k)
  | 11 => .ok (.xor d a b k)
  | 12 => .ok (.andn d a b k)
  | 13 => .ok (.shl d a b k)
  | 14 => .ok (.shr d a b k)
  | 15 => .ok (.sar d a b k)
  | 16 => .ok (.rol d a b k)
  | 17 => .ok (.min d a b k)
  | 18 => .ok (.max d a b k)
  | 19 => .ok (.minu d a b k)
  | 20 => .ok (.maxu d a b k)
  | 21 => mbz (b != 0) (.clz d a k)
  | 22 => mbz (b != 0) (.ctz d a k)
  | 23 => mbz (b != 0) (.popc d a k)
  | 24 => mbz (b != 0) (.bswap d a k)
  | 25 => mbz (b != 0) (.sextB d a k)
  | 26 => mbz (b != 0) (.sextH d a k)
  | 27 => mbz (b != 0) (.sextW d a k)
  | 0x1C => .ok (.addsat d a b k)
  | 0x1D => .ok (.subsat d a b k)
  | 0x1E => .ok (.sel d a b k)
  | _ => .error .fnIllegal

/-- Majors 0x02 to 0x08, the immediate operations (R98); `m` is the major. -/
def decodeImm (m : Nat) (w : IWord) : Except Reject Instr :=
  let d : BitVec 5 := field w 19 5
  let a : BitVec 5 := field w 14 5
  let i : BitVec 14 := field w 0 14
  let n : BitVec 6 := field w 0 6
  let hi := fieldN w 6 8 != 0
  match m with
  | 0x02 => .ok (.addi d a i)
  | 0x03 => .ok (.andi d a i)
  | 0x04 => .ok (.ori d a i)
  | 0x05 => .ok (.xori d a i)
  | 0x06 => mbz hi (.shli d a n)
  | 0x07 => mbz hi (.shri d a n)
  | _ => mbz hi (.sari d a n)

/-- Majors 0x09 and 0x0A, li and addpc (R99); `n` is the length in bytes. -/
def decodeLi (n : Nat) (w w1 w2 : IWord) : Except Reject Instr :=
  let d : BitVec 5 := field w 19 5
  if n = 12 then mbz (fieldN w 0 19 != 0) (.li12 d (w2 ++ w1))
  else mbz (fieldN w 0 19 != 0) (.li8 d w1)

/-- Major 0x0A, addpc (R99). -/
def decodeAddpc (n : Nat) (w w1 : IWord) : Except Reject Instr :=
  let d : BitVec 5 := field w 19 5
  if n = 4 then mbz (fieldN w 14 5 != 0) (.addpc4 d (field w 0 14))
  else mbz (fieldN w 0 19 != 0) (.addpc8 d w1)

/-- Major 0x10, cmp (R97). -/
def decodeCmp (w : IWord) : Except Reject Instr :=
  let d : BitVec 3 := field w 19 3
  let a : BitVec 5 := field w 14 5
  let b : BitVec 5 := field w 9 5
  let k : BitVec 3 := field w 0 3
  let hi := fieldN w 22 2 != 0
  match fieldN w 3 6 with
  | 0 => mbz hi (.cmpEq d a b k)
  | 1 => mbz hi (.cmpNe d a b k)
  | 2 => mbz hi (.cmpLt d a b k)
  | 3 => mbz hi (.cmpLtu d a b k)
  | 4 => mbz hi (.cmpGe d a b k)
  | 5 => mbz hi (.cmpGeu d a b k)
  | 6 => mbz hi (.cmpBit d a b k)
  | _ => .error .fnIllegal

/-- Majors 0x11 and 0x12, cmpi and cmpiu (R98); `u` selects cmpiu. -/
def decodeCmpi (u : Bool) (w : IWord) : Except Reject Instr :=
  let d : BitVec 3 := field w 19 3
  let a : BitVec 5 := field w 14 5
  let i : BitVec 14 := field w 0 14
  match u, fieldN w 22 2 with
  | false, 0 => .ok (.cmpiEq d a i)
  | false, 1 => .ok (.cmpiNe d a i)
  | false, 2 => .ok (.cmpiLt d a i)
  | false, _ => .ok (.cmpiGe d a i)
  | true, 0 => .ok (.cmpiuLt d a i)
  | true, 1 => .ok (.cmpiuGe d a i)
  | true, _ => .error .fnIllegal

/-- Major 0x13, pred (R97). -/
def decodePred (w : IWord) : Except Reject Instr :=
  let d : BitVec 3 := field w 19 3
  let a : BitVec 3 := field w 14 3
  let b : BitVec 3 := field w 9 3
  let k : BitVec 3 := field w 0 3
  let hi := fieldN w 22 2 != 0 || fieldN w 17 2 != 0
  match fieldN w 3 6 with
  | 0 => mbz (hi || fieldN w 12 2 != 0) (.pand d a b k)
  | 1 => mbz (hi || fieldN w 12 2 != 0) (.por d a b k)
  | 2 => mbz (hi || fieldN w 12 2 != 0) (.pxor d a b k)
  | 3 => mbz (hi || fieldN w 12 2 != 0) (.pandn d a b k)
  | 4 => mbz (hi || fieldN w 9 5 != 0) (.pnot d a k)
  | 5 => mbz (hi || fieldN w 9 5 != 0) (.kmov d a k)
  | 6 => mbz (fieldN w 22 2 != 0 || fieldN w 9 5 != 0) (.kset d (field w 14 5) k)
  | _ => .error .fnIllegal

/-- Majors 0x1C and 0x1D, ld and st (R101); `isSt` selects st. -/
def decodeMem (isSt : Bool) (w w1 : IWord) : Except Reject Instr :=
  let d : BitVec 5 := field w 19 5
  let a : BitVec 5 := field w 14 5
  let size : BitVec 3 := field w 11 3
  let order : BitVec 2 := field w 9 2
  let scope : BitVec 3 := field w 6 3
  let k : BitVec 3 := field w 0 3
  let badSize := if isSt then decide (4 ≤ size.toNat) else decide (size.toNat = 7)
  if badSize then .error .fnIllegal
  else if fieldN w 3 3 != 0 || (order == 0 && scope != 0) then .error .fieldReserved
  else if order = 3 ∨ order = (if isSt then 1 else 2) then .error .orderIllegal
  else if scope = 7 then .error .scopeIllegal
  else .ok (if isSt then .st d a size order scope k w1 else .ld d a size order scope k w1)

/-- Major 0x1E, fence (R102). -/
def decodeFence (w : IWord) : Except Reject Instr :=
  let scope : BitVec 3 := field w 6 3
  let k : BitVec 3 := field w 0 3
  let nz := fieldN w 9 13 != 0 || fieldN w 3 3 != 0
  match fieldN w 22 2 with
  | 0 => scopeOk nz scope (.fence scope k)
  | 1 => scopeOk nz scope (.fenceAcq scope k)
  | 2 => scopeOk nz scope (.fenceRel scope k)
  | _ => scopeOk nz scope (.fenceStrm scope k)

/-- Major 0x20, cfg (R97). -/
def decodeCfg (w : IWord) : Except Reject Instr :=
  let d : BitVec 5 := field w 19 5
  let a : BitVec 5 := field w 14 5
  let b : BitVec 5 := field w 9 5
  let k : BitVec 3 := field w 0 3
  match fieldN w 3 6 with
  | 0 => mbz (d != 0 || b != 0) (.cfgLoad a k)
  | 1 => mbz (d != 0 || a != 0 || b != 0) (.cfgRun k)
  | 2 => mbz (d != 0 || a != 0 || b != 0) (.cfgDrain k)
  | 3 => mbz (d != 0) (.cfgParam a b k)
  | 4 => mbz (d != 0 || b != 0) (.cfgUnbind a k)
  | 5 => mbz (b != 0) (.cfgQuery d a k)
  | 6 => mbz (d != 0 || a != 0 || b != 0) (.cfgAbort k)
  | _ => .error .fnIllegal

/-- Major 0x24, strm (R103). -/
def decodeStrm (w w1 : IWord) : Except Reject Instr :=
  let s : BitVec 7 := field w 17 7
  let a : BitVec 5 := field w 12 5
  let b : BitVec 5 := field w 7 5
  let nw : BitVec 1 := field w 0 1
  match fieldN w 1 6 with
  | 0 => mbz (b != 0) (.strmOpen s a nw w1)
  | 1 => scopeOk (a != 0 || b != 0 || fieldN w1 5 27 != 0) (field w1 2 3)
           (.strmGo s nw (field w1 0 1) (field w1 1 1) (field w1 2 3))
  | 2 => mbz (w1 != 0) (.strmBar s a b nw)
  | 3 => mbz (a != 0 || b != 0 || w1 != 0) (.strmClose s nw)
  | 4 => mbz (b != 0 || nw != 0 || w1 != 0) (.strmPos s a)
  | 5 => mbz (b != 0) (.strmSeek s a nw w1)
  | 6 => mbz (a != 0 || b != 0 || fieldN w1 24 8 != 0) (.strmBind s (field w1 0 8) (field w1 8 8) (field w1 16 8) nw)
  | 7 => mbz (a != 0 || b != 0 || fieldN w1 8 24 != 0) (.strmFilt s (field w1 0 8) nw)
  | 8 => mbz (b != 0 || nw != 0 || w1 != 0) (.strmStat s a)
  | _ => .error .fnIllegal

/-- Majors 0x28 to 0x2A, push, pull and pushn (R104); `m` is the major. -/
def decodeCopy (mj : Nat) (w w1 w2 : IWord) : Except Reject Instr :=
  let a : BitVec 5 := field w 19 5
  let b : BitVec 5 := field w 14 5
  let n : BitVec 5 := field w 9 5
  let acq : BitVec 1 := field w 8 1
  let rel : BitVec 1 := field w 7 1
  let scope : BitVec 3 := field w 4 3
  let k : BitVec 3 := field w 0 3
  let m : BitVec 5 := field w2 27 5
  let t : BitVec 8 := field w2 19 8
  let region : BitVec 8 := field w2 11 8
  let nz := fieldN w 3 1 != 0 || (acq == 0 && rel == 0 && scope != 0) || fieldN w2 0 11 != 0
  match mj with
  | 0x28 => scopeOk (nz || region != 0) scope (.push a b n acq rel scope k w1 m t)
  | 0x29 => scopeOk (nz || region != 0) scope (.pull a b n acq rel scope k w1 m t)
  | _ => scopeOk nz scope (.pushn a b n acq rel scope k w1 m t region)

/-- Major 0x2C, tag (R105). -/
def decodeTag (w w1 : IWord) : Except Reject Instr :=
  let t : BitVec 8 := field w 16 8
  let a : BitVec 5 := field w 11 5
  let b : BitVec 5 := field w 6 5
  let imm : BitVec 16 := field w1 16 16
  let acq : BitVec 1 := field w1 7 1
  let rel : BitVec 1 := field w1 6 1
  let scope : BitVec 3 := field w1 3 3
  let k : BitVec 3 := field w1 0 3
  let nz := fieldN w 0 2 != 0 || fieldN w1 8 8 != 0
  let ord := acq != 0 || rel != 0 || scope != 0
  match fieldN w 2 4 with
  | 0 => mbz (nz || ord || a != 0 || b != 0 || imm != 0) (.tagBlk t k)
  | 1 => mbz (nz || ord || a != 0 || b != 0 || imm != 0) (.tagUbk t k)
  | 2 => mbz (nz || ord || a != 0 || b != 0 || imm != 0) (.tagWait t k)
  | 3 => mbz (nz || ord || a != 0 || fieldN w 9 2 != 0 || imm != 0) (.tagTest t (field w 6 3) k)
  | 4 => mbz (nz || ord || a != 0 || b != 0) (.tagCnt t imm k)
  | 5 => mbz (nz || ord || a != 0 || b != 0 || fieldN w1 20 12 != 0) (.tagBind t (field w1 16 4) k)
  | 6 => mbz (nz || ord || imm != 0) (.tagArm t a b k)
  | 7 => scopeOk (nz || b != 0 || fieldN w1 17 15 != 0) scope (.tagSig t a (field w1 16 1) acq rel scope k)
  | 8 => mbz (nz || ord || a != 0 || b != 0 || imm != 0) (.tagClr t k)
  | _ => .error .fnIllegal

/-- Major 0x30, fold (R106). -/
def decodeFold (w w1 : IWord) : Except Reject Instr :=
  let a : BitVec 5 := field w 19 5
  let b : BitVec 5 := field w 14 5
  let c : BitVec 5 := field w 9 5
  let op : BitVec 4 := field w 5 4
  let r : BitVec 1 := field w 4 1
  let slot : BitVec 4 := field w 0 4
  let off : BitVec 20 := field w1 12 20
  let size : BitVec 2 := field w1 10 2
  let acq : BitVec 1 := field w1 9 1
  let rel : BitVec 1 := field w1 8 1
  let scope : BitVec 3 := field w1 5 3
  let k : BitVec 3 := field w1 0 3
  if 14 ≤ op.toNat ∨ foldSizeLegal op size = false then .error .fnIllegal
  else if (op == 13 && b != 0) || (op != 12 && c != 0) || (r == 0 && slot != 0)
      || (acq == 0 && rel == 0 && scope != 0) || fieldN w1 3 2 != 0 then .error .fieldReserved
  else if scope = 7 then .error .scopeIllegal
  else .ok (.fold a b c op r slot off size acq rel scope k)

/-- Major 0x31, commit and land.test (R107). -/
def decodeCommit (w : IWord) : Except Reject Instr :=
  let n : BitVec 4 := field w 15 4
  let nz := fieldN w 9 6 != 0 || fieldN w 0 3 != 0
  match fieldN w 3 6 with
  | 0 => mbz nz (.commit (field w 19 5) n)
  | 1 => mbz (nz || fieldN w 22 2 != 0) (.landTest (field w 19 3) n)
  | _ => .error .fnIllegal

/-- Major 0x34, chn (R108). -/
def decodeChn (w w1 : IWord) : Except Reject Instr :=
  let d : BitVec 5 := field w 19 5
  let a : BitVec 5 := field w 14 5
  let b : BitVec 5 := field w 9 5
  let k : BitVec 3 := field w 0 3
  let ch : BitVec 12 := field w1 0 12
  let nz := fieldN w1 12 20 != 0
  match fieldN w 3 6 with
  | 0 => mbz (nz || d != 0 || a != 0 || b != 0) (.chnOpen k ch)
  | 1 => mbz (nz || d != 0) (.chnSend a b k ch)
  | 2 => mbz nz (.chnRecv d a b k ch)
  | 3 => mbz (nz || d != 0 || a != 0 || b != 0) (.chnClose k ch)
  | 4 => mbz (nz || a != 0 || b != 0) (.chnStat d k ch)
  | _ => .error .fnIllegal

/-- Major 0x38, launch (R58). -/
def decodeLaunch (w w1 w2 : IWord) : Except Reject Instr :=
  mbz (fieldN w 3 3 != 0)
    (.launch (field w 19 5) (field w 14 5) (field w 9 5) (field w 7 2) (field w 6 1) (field w 0 3) w1 w2)

/-- Major 0x3C, csr (R109). -/
def decodeCsr (w : IWord) : Except Reject Instr :=
  let d : BitVec 5 := field w 19 5
  let a : BitVec 5 := field w 14 5
  let c : BitVec 12 := field w 2 12
  match fieldN w 0 2 with
  | 0 => mbz (a != 0) (.csrr d c)
  | 1 => .ok (.csrw d a c)
  | 2 => .ok (.csrs d a c)
  | _ => .ok (.csrc d a c)

/-- Steps 6 to 8 of R93 for an instruction of `n` bytes whose lead word passed steps 2 to 4. -/
def decodeWords (n : Nat) (w w1 w2 : IWord) : Except Reject Instr :=
  match fieldN w 24 6 with
  | 0x00 => decodeSys w
  | 0x01 => decodeInt w
  | 0x09 => decodeLi n w w1 w2
  | 0x0A => decodeAddpc n w w1
  | 0x10 => decodeCmp w
  | 0x11 => decodeCmpi false w
  | 0x12 => decodeCmpi true w
  | 0x13 => decodePred w
  | 0x14 => .ok (.br (field w 21 3) (field w 20 1) (field w 0 20))
  | 0x15 => .ok (.jmp (field w 0 24))
  | 0x16 => .ok (.jal (field w 19 5) (field w 0 19))
  | 0x17 => .ok (.jalr (field w 19 5) (field w 14 5) (field w 0 14))
  | 0x18 => mbz (fieldN w 19 5 != 0) (.dbnz (field w 14 5) (field w 0 14))
  | 0x1C => decodeMem false w w1
  | 0x1D => decodeMem true w w1
  | 0x1E => decodeFence w
  | 0x20 => decodeCfg w
  | 0x24 => decodeStrm w w1
  | 0x28 => decodeCopy 0x28 w w1 w2
  | 0x29 => decodeCopy 0x29 w w1 w2
  | 0x2A => decodeCopy 0x2A w w1 w2
  | 0x2C => decodeTag w w1
  | 0x30 => decodeFold w w1
  | 0x31 => decodeCommit w
  | 0x34 => decodeChn w w1
  | 0x38 => decodeLaunch w w1 w2
  | 0x3C => decodeCsr w
  | 0x3F => mbz (fieldN w 14 10 != 0) (.trap (field w 0 14))
  | m => decodeImm m w

/-- The 32-bit word that four bytes of a list hold from `k` words on, if they are there (R5). -/
def wordAt (bs : List Byte) (k : Nat) : Option IWord :=
  let b := (bs.drop (4 * k)).take 4
  if b.length = 4 then some (BitVec.ofNat 32 (ofBytes b)) else none

/-- The instruction that a list of bytes begins with, and the bytes after it (R92, R93). -/
def decode (bs : List Byte) : Except Reject (Instr × List Byte) :=
  match wordAt bs 0 with
  | none => .error .truncated
  | some w =>
    match decodeLength w with
    | .error e => .error e
    | .ok n =>
      if bs.length < n then .error .truncated
      else
        match decodeWords n w ((wordAt bs 1).getD 0) ((wordAt bs 2).getD 0) with
        | .error e => .error e
        | .ok i => .ok (i, bs.drop n)

/-- The instruction that a table word stands for, its words little-endian and in order (R5); operand words past
`nbits` are zero. -/
def decodeTableWord (_nbits w : Nat) : Option Instr :=
  match decode (toBytes 12 w) with
  | .ok (i, _) => some i
  | .error _ => none

/-! The encoder. -/

/-- A lead word with its length code, major and low 24 bits (R92). -/
def lead (len major low : Nat) : IWord := packWord [(24, low), (6, major), (2, len)]
/-- A word of format R3 (R95). -/
def r3 (major fn d a b k : Nat) : IWord :=
  packWord [(3, k), (6, fn), (5, b), (5, a), (5, d), (6, major), (2, 0)]
/-- A word of format I (R95). -/
def ri (major d a i : Nat) : IWord := packWord [(14, i), (5, a), (5, d), (6, major), (2, 0)]
/-- The lead word of ld and st (R101). -/
def memWord (major d a size order scope k : Nat) : IWord :=
  packWord [(3, k), (3, 0), (3, scope), (2, order), (3, size), (5, a), (5, d), (6, major), (2, 1)]
/-- The word of fence (R102). -/
def fenceWord (kind scope k : Nat) : IWord :=
  packWord [(3, k), (3, 0), (3, scope), (13, 0), (2, kind), (6, 0x1E), (2, 0)]
/-- The lead word of strm (R103). -/
def strmWord (s a b fn nw : Nat) : IWord :=
  packWord [(1, nw), (6, fn), (5, b), (5, a), (7, s), (6, 0x24), (2, 1)]
/-- The words of push, pull and pushn (R104). -/
def copyWords (major : Nat) (a b n : BitVec 5) (acq rel : BitVec 1) (scope k : BitVec 3) (off : BitVec 32)
    (m : BitVec 5) (t region : BitVec 8) : List IWord :=
  [packWord [(3, k.toNat), (1, 0), (3, scope.toNat), (1, rel.toNat), (1, acq.toNat), (5, n.toNat), (5, b.toNat),
      (5, a.toNat), (6, major), (2, 2)], off,
   packWord [(11, 0), (8, region.toNat), (8, t.toNat), (5, m.toNat)]]
/-- The lead word of tag (R105). -/
def tagLead (t a b fn : Nat) : IWord := packWord [(2, 0), (4, fn), (5, b), (5, a), (8, t), (6, 0x2C), (2, 1)]
/-- The second word of tag (R105). -/
def tagTail (imm acq rel scope k : Nat) : IWord :=
  packWord [(3, k), (3, scope), (1, rel), (1, acq), (8, 0), (16, imm)]
/-- The word of commit and land.test (R107). -/
def commitWord (fn d n : Nat) : IWord :=
  packWord [(3, 0), (6, fn), (6, 0), (4, n), (5, d), (6, 0x31), (2, 0)]
/-- The words of chn (R108). -/
def chnWords (fn d a b k ch : Nat) : List IWord :=
  [packWord [(3, k), (6, fn), (5, b), (5, a), (5, d), (6, 0x34), (2, 1)], packWord [(12, ch)]]
/-- The word of csr (R109). -/
def csrWord (op d a c : Nat) : IWord := packWord [(2, op), (12, c), (5, a), (5, d), (6, 0x3C), (2, 0)]

/-- The words of an instruction, lead word first (R92 to R110, R58); the steps of other agents have none. -/
def encode (i : Instr) : List IWord :=
  match i with
  | .coldReset _ => []
  | .getVersion => []
  | .getCapabilities => []
  | .negotiateAlgorithms => []
  | .getCertificate _ => []
  | .getMeasurements _ => []
  | .tdLinkMessage _ _ _ => []
  | .ucieModuleRemoval _ => []
  | .fabricPortDownshift _ => []
  | .pseudoChannelMapOut _ => []
  | .islandStateChange _ _ => []
  | .cfwq _ => []
  | .headerLineChange _ => []
  | .badCommand => []
  | .devInfo => []
  | .devHealth => []
  | .queueReg => []
  | .queueUnreg => []
  | .partCreate => []
  | .partDestroy => []
  | .partQuery => []
  | .partSuspend _ => []
  | .partResume _ => []
  | .partMigrateOut => []
  | .partMigrateIn => []
  | .s2Update => []
  | .s2Resume => []
  | .s2Abort => []
  | .rankSet => []
  | .meterArm => []
  | .meterRead => []
  | .nopPacket _ _ => []
  | .launchPacket _ _ => []
  | .gate _ _ => []
  | .patch _ _ => []
  | .inval _ _ => []
  | .hcopy _ _ => []
  | .signal _ _ => []
  | .packetMalformed _ _ => []
  | .gateEvaluation _ _ => []
  | .gateTimeout _ _ => []
  | .hcopyCompletion _ _ _ => []
  | .signalAfterReplays _ _ => []
  | .replayBegin _ _ => []
  | .replayComplete _ _ => []
  | .gangTick _ => []
  | .regionCompletion _ => []
  | .markerArrival _ => []
  | .regionSaveComplete _ => []
  | .saveDeadline _ _ _ => []
  | .partitionReset _ => []
  | .causeDelivery _ => []
  | .yieldTimeout _ => []
  | .replicaCreation _ => []
  | .collapse _ => []
  | .remotePage _ _ => []
  | .remotePullTimeout _ => []
  | .remainingFramePull _ _ => []
  | .pullServe _ _ _ => []
  | .migrationSourceEnd _ _ => []
  | .extentMiss _ _ => []
  | .streamAccess _ _ => []
  | .copySector _ _ _ => []
  | .copyCompletion _ _ => []
  | .remoteSignal _ _ => []
  | .doneToken _ => []
  | .armEvaluation _ _ => []
  | .routerWordArrival _ _ => []
  | .keyMismatch _ _ => []
  | .rankFrameArrival _ _ _ _ => []
  | .rankAck _ _ => []
  | .foldOperation _ _ _ => []
  | .foldReturn _ => []
  | .orphanReturn _ _ => []
  | .windowRehome _ _ => []
  | .islandSlot _ _ _ => []
  | .islandSwitch _ _ => []
  | .roundFence _ _ => []
  | .roundCommit _ _ => []
  | .roundReplay _ _ => []
  | .bankDrain _ _ => []
  | .edgeStep _ _ => []
  | .throttleLevelSet _ _ => []
  | .thermalTrip _ => []
  | .thermalRecovery _ => []
  | .heartbeatPeriod _ _ => []
  | .heartbeat _ _ => []
  | .accuse _ _ => []
  | .withdraw _ _ => []
  | .fenceBeat _ _ => []
  | .appeal _ _ => []
  | .admitBeat _ _ => []
  | .periodEnd _ _ => []
  | .remap _ => []
  | .bistEnd _ _ => []
  | .appealLimit _ _ => []
  | .probationEnd _ _ => []
  | .meterWindow _ _ => []
  | .usageRecord _ => []
  | .keyQuarantineEnd _ => []
  | .decodeFault => []
  | .rankFrameRetransmission _ _ => []
  | .suspendTimeout _ => []
  | .tileFallsSilent _ _ _ => []
  | .memoryPoison _ _ => []
  | .nop k => [r3 0 0 0 0 0 k.toNat]
  | .brk k => [r3 0 1 0 0 0 k.toNat]
  | .seqEnd k => [r3 0 2 0 0 0 k.toNat]
  | .yield k => [r3 0 3 0 0 0 k.toNat]
  | .eret k => [r3 0 4 0 0 0 k.toNat]
  | .time d k => [r3 0 5 d.toNat 0 0 k.toNat]
  | .whoami d k => [r3 0 6 d.toNat 0 0 k.toNat]
  | .add d a b k => [r3 1 0 d.toNat a.toNat b.toNat k.toNat]
  | .sub d a b k => [r3 1 1 d.toNat a.toNat b.toNat k.toNat]
  | .mul d a b k => [r3 1 2 d.toNat a.toNat b.toNat k.toNat]
  | .mulh d a b k => [r3 1 3 d.toNat a.toNat b.toNat k.toNat]
  | .mulhu d a b k => [r3 1 4 d.toNat a.toNat b.toNat k.toNat]
  | .div d a b k => [r3 1 5 d.toNat a.toNat b.toNat k.toNat]
  | .divu d a b k => [r3 1 6 d.toNat a.toNat b.toNat k.toNat]
  | .rem d a b k => [r3 1 7 d.toNat a.toNat b.toNat k.toNat]
  | .remu d a b k => [r3 1 8 d.toNat a.toNat b.toNat k.toNat]
  | .and d a b k => [r3 1 9 d.toNat a.toNat b.toNat k.toNat]
  | .or d a b k => [r3 1 10 d.toNat a.toNat b.toNat k.toNat]
  | .xor d a b k => [r3 1 11 d.toNat a.toNat b.toNat k.toNat]
  | .andn d a b k => [r3 1 12 d.toNat a.toNat b.toNat k.toNat]
  | .shl d a b k => [r3 1 13 d.toNat a.toNat b.toNat k.toNat]
  | .shr d a b k => [r3 1 14 d.toNat a.toNat b.toNat k.toNat]
  | .sar d a b k => [r3 1 15 d.toNat a.toNat b.toNat k.toNat]
  | .rol d a b k => [r3 1 16 d.toNat a.toNat b.toNat k.toNat]
  | .min d a b k => [r3 1 17 d.toNat a.toNat b.toNat k.toNat]
  | .max d a b k => [r3 1 18 d.toNat a.toNat b.toNat k.toNat]
  | .minu d a b k => [r3 1 19 d.toNat a.toNat b.toNat k.toNat]
  | .maxu d a b k => [r3 1 20 d.toNat a.toNat b.toNat k.toNat]
  | .clz d a k => [r3 1 21 d.toNat a.toNat 0 k.toNat]
  | .ctz d a k => [r3 1 22 d.toNat a.toNat 0 k.toNat]
  | .popc d a k => [r3 1 23 d.toNat a.toNat 0 k.toNat]
  | .bswap d a k => [r3 1 24 d.toNat a.toNat 0 k.toNat]
  | .sextB d a k => [r3 1 25 d.toNat a.toNat 0 k.toNat]
  | .sextH d a k => [r3 1 26 d.toNat a.toNat 0 k.toNat]
  | .sextW d a k => [r3 1 27 d.toNat a.toNat 0 k.toNat]
  | .addsat d a b k => [r3 1 28 d.toNat a.toNat b.toNat k.toNat]
  | .subsat d a b k => [r3 1 29 d.toNat a.toNat b.toNat k.toNat]
  | .sel d a b p => [r3 1 30 d.toNat a.toNat b.toNat p.toNat]
  | .addi d a i => [ri 2 d.toNat a.toNat i.toNat]
  | .andi d a i => [ri 3 d.toNat a.toNat i.toNat]
  | .ori d a i => [ri 4 d.toNat a.toNat i.toNat]
  | .xori d a i => [ri 5 d.toNat a.toNat i.toNat]
  | .shli d a n => [ri 6 d.toNat a.toNat n.toNat]
  | .shri d a n => [ri 7 d.toNat a.toNat n.toNat]
  | .sari d a n => [ri 8 d.toNat a.toNat n.toNat]
  | .li8 d i => [lead 1 9 (d.toNat * 2 ^ 19), i]
  | .li12 d i => [lead 2 9 (d.toNat * 2 ^ 19), i.setWidth 32, (i >>> 32).setWidth 32]
  | .addpc4 d i => [ri 0x0A d.toNat 0 i.toNat]
  | .addpc8 d i => [lead 1 0x0A (d.toNat * 2 ^ 19), i]
  | .cmpEq d a b k => [r3 0x10 0 d.toNat a.toNat b.toNat k.toNat]
  | .cmpNe d a b k => [r3 0x10 1 d.toNat a.toNat b.toNat k.toNat]
  | .cmpLt d a b k => [r3 0x10 2 d.toNat a.toNat b.toNat k.toNat]
  | .cmpLtu d a b k => [r3 0x10 3 d.toNat a.toNat b.toNat k.toNat]
  | .cmpGe d a b k => [r3 0x10 4 d.toNat a.toNat b.toNat k.toNat]
  | .cmpGeu d a b k => [r3 0x10 5 d.toNat a.toNat b.toNat k.toNat]
  | .cmpBit d a b k => [r3 0x10 6 d.toNat a.toNat b.toNat k.toNat]
  | .cmpiEq d a i => [ri 0x11 d.toNat a.toNat i.toNat]
  | .cmpiNe d a i => [ri 0x11 (d.toNat + 8) a.toNat i.toNat]
  | .cmpiLt d a i => [ri 0x11 (d.toNat + 16) a.toNat i.toNat]
  | .cmpiGe d a i => [ri 0x11 (d.toNat + 24) a.toNat i.toNat]
  | .cmpiuLt d a i => [ri 0x12 d.toNat a.toNat i.toNat]
  | .cmpiuGe d a i => [ri 0x12 (d.toNat + 8) a.toNat i.toNat]
  | .pand d a b k => [r3 0x13 0 d.toNat a.toNat b.toNat k.toNat]
  | .por d a b k => [r3 0x13 1 d.toNat a.toNat b.toNat k.toNat]
  | .pxor d a b k => [r3 0x13 2 d.toNat a.toNat b.toNat k.toNat]
  | .pandn d a b k => [r3 0x13 3 d.toNat a.toNat b.toNat k.toNat]
  | .pnot d a k => [r3 0x13 4 d.toNat a.toNat 0 k.toNat]
  | .kmov d a k => [r3 0x13 5 d.toNat a.toNat 0 k.toNat]
  | .kset d a k => [r3 0x13 6 d.toNat a.toNat 0 k.toNat]
  | .br c n i => [packWord [(20, i.toNat), (1, n.toNat), (3, c.toNat), (6, 0x14), (2, 0)]]
  | .jmp i => [lead 0 0x15 i.toNat]
  | .jal d i => [packWord [(19, i.toNat), (5, d.toNat), (6, 0x16), (2, 0)]]
  | .jalr d a i => [ri 0x17 d.toNat a.toNat i.toNat]
  | .dbnz a i => [ri 0x18 0 a.toNat i.toNat]
  | .ld d a size order scope k off => [memWord 0x1C d.toNat a.toNat size.toNat order.toNat scope.toNat k.toNat, off]
  | .st d a size order scope k off => [memWord 0x1D d.toNat a.toNat size.toNat order.toNat scope.toNat k.toNat, off]
  | .fence scope k => [fenceWord 0 scope.toNat k.toNat]
  | .fenceAcq scope k => [fenceWord 1 scope.toNat k.toNat]
  | .fenceRel scope k => [fenceWord 2 scope.toNat k.toNat]
  | .fenceStrm scope k => [fenceWord 3 scope.toNat k.toNat]
  | .cfgLoad a k => [r3 0x20 0 0 a.toNat 0 k.toNat]
  | .cfgRun k => [r3 0x20 1 0 0 0 k.toNat]
  | .cfgDrain k => [r3 0x20 2 0 0 0 k.toNat]
  | .cfgParam a b k => [r3 0x20 3 0 a.toNat b.toNat k.toNat]
  | .cfgUnbind a k => [r3 0x20 4 0 a.toNat 0 k.toNat]
  | .cfgQuery d a k => [r3 0x20 5 d.toNat a.toNat 0 k.toNat]
  | .cfgAbort k => [r3 0x20 6 0 0 0 k.toNat]
  | .strmOpen s a nw off => [strmWord s.toNat a.toNat 0 0 nw.toNat, off]
  | .strmGo s nw acq rel scope => [strmWord s.toNat 0 0 1 nw.toNat, packWord [(1, acq.toNat), (1, rel.toNat), (3, scope.toNat)]]
  | .strmBar s a b nw => [strmWord s.toNat a.toNat b.toNat 2 nw.toNat, 0]
  | .strmClose s nw => [strmWord s.toNat 0 0 3 nw.toNat, 0]
  | .strmPos s a => [strmWord s.toNat a.toNat 0 4 0, 0]
  | .strmSeek s a nw off => [strmWord s.toNat a.toNat 0 5 nw.toNat, off]
  | .strmBind s kind pos idx nw => [strmWord s.toNat 0 0 6 nw.toNat, packWord [(8, kind.toNat), (8, pos.toNat), (8, idx.toNat)]]
  | .strmFilt s f nw => [strmWord s.toNat 0 0 7 nw.toNat, packWord [(8, f.toNat)]]
  | .strmStat s a => [strmWord s.toNat a.toNat 0 8 0, 0]
  | .push a b n acq rel scope k off m t => copyWords 0x28 a b n acq rel scope k off m t 0
  | .pull a b n acq rel scope k off m t => copyWords 0x29 a b n acq rel scope k off m t 0
  | .pushn a b n acq rel scope k off m t region => copyWords 0x2A a b n acq rel scope k off m t region
  | .tagBlk t k => [tagLead t.toNat 0 0 0, tagTail 0 0 0 0 k.toNat]
  | .tagUbk t k => [tagLead t.toNat 0 0 1, tagTail 0 0 0 0 k.toNat]
  | .tagWait t k => [tagLead t.toNat 0 0 2, tagTail 0 0 0 0 k.toNat]
  | .tagTest t d k => [tagLead t.toNat 0 d.toNat 3, tagTail 0 0 0 0 k.toNat]
  | .tagCnt t i k => [tagLead t.toNat 0 0 4, tagTail i.toNat 0 0 0 k.toNat]
  | .tagBind t isl k => [tagLead t.toNat 0 0 5, tagTail isl.toNat 0 0 0 k.toNat]
  | .tagArm t a b k => [tagLead t.toNat a.toNat b.toNat 6, tagTail 0 0 0 0 k.toNat]
  | .tagSig t a mode acq rel scope k => [tagLead t.toNat a.toNat 0 7, tagTail mode.toNat acq.toNat rel.toNat scope.toNat k.toNat]
  | .tagClr t k => [tagLead t.toNat 0 0 8, tagTail 0 0 0 0 k.toNat]
  | .fold a b c op r slot off size acq rel scope k => [packWord [(4, slot.toNat), (1, r.toNat), (4, op.toNat), (5, c.toNat), (5, b.toNat), (5, a.toNat), (6, 0x30), (2, 1)],
      packWord [(3, k.toNat), (2, 0), (3, scope.toNat), (1, rel.toNat), (1, acq.toNat), (2, size.toNat), (20, off.toNat)]]
  | .commit d n => [commitWord 0 d.toNat n.toNat]
  | .landTest d n => [commitWord 1 d.toNat n.toNat]
  | .chnOpen k ch => chnWords 0 0 0 0 k.toNat ch.toNat
  | .chnSend a b k ch => chnWords 1 0 a.toNat b.toNat k.toNat ch.toNat
  | .chnRecv d a b k ch => chnWords 2 d.toNat a.toNat b.toNat k.toNat ch.toNat
  | .chnClose k ch => chnWords 3 0 0 0 k.toNat ch.toNat
  | .chnStat d k ch => chnWords 4 d.toNat 0 0 k.toNat ch.toNat
  | .launch d a b prio nw k immG immF => [packWord [(3, k.toNat), (3, 0), (1, nw.toNat), (2, prio.toNat), (5, b.toNat), (5, a.toNat), (5, d.toNat), (6, 0x38), (2, 2)], immG, immF]
  | .csrr d c => [csrWord 0 d.toNat 0 c.toNat]
  | .csrw d a c => [csrWord 1 d.toNat a.toNat c.toNat]
  | .csrs d a c => [csrWord 2 d.toNat a.toNat c.toNat]
  | .csrc d a c => [csrWord 3 d.toNat a.toNat c.toNat]
  | .trap i => [lead 0 0x3F i.toNat]

/-- The bytes of a list of words, in the order memory holds them (R5). -/
def wordBytes : List IWord → List Byte
  | [] => []
  | w :: ws => toBytes 4 w.toNat ++ wordBytes ws

/-- The bytes of an instruction. -/
def encodeBytes (i : Instr) : List Byte := wordBytes (encode i)

end Sys2Proof
end

