-- ==== Sys2Proof/Machine/Hash.lean ====
section
/-!
DEFINITION. SHA-384 (R151, R152). The spec names the hash; its rounds and constants are those of FIPS 180-4. PRESUMED (log 113).
-/
namespace Sys2Proof.Machine

/-- The constants of the eighty rounds: the fractions of the cube roots of the first eighty primes. -/
def shaK : List Word :=
    [0x428a2f98d728ae22, 0x7137449123ef65cd, 0xb5c0fbcfec4d3b2f, 0xe9b5dba58189dbbc] ++ [0x3956c25bf348b538, 0x59f111f1b605d019, 0x923f82a4af194f9b, 0xab1c5ed5da6d8118] ++
    [0xd807aa98a3030242, 0x12835b0145706fbe, 0x243185be4ee4b28c, 0x550c7dc3d5ffb4e2] ++ [0x72be5d74f27b896f, 0x80deb1fe3b1696b1, 0x9bdc06a725c71235, 0xc19bf174cf692694] ++
    [0xe49b69c19ef14ad2, 0xefbe4786384f25e3, 0x0fc19dc68b8cd5b5, 0x240ca1cc77ac9c65] ++ [0x2de92c6f592b0275, 0x4a7484aa6ea6e483, 0x5cb0a9dcbd41fbd4, 0x76f988da831153b5] ++
    [0x983e5152ee66dfab, 0xa831c66d2db43210, 0xb00327c898fb213f, 0xbf597fc7beef0ee4] ++ [0xc6e00bf33da88fc2, 0xd5a79147930aa725, 0x06ca6351e003826f, 0x142929670a0e6e70] ++
    [0x27b70a8546d22ffc, 0x2e1b21385c26c926, 0x4d2c6dfc5ac42aed, 0x53380d139d95b3df] ++ [0x650a73548baf63de, 0x766a0abb3c77b2a8, 0x81c2c92e47edaee6, 0x92722c851482353b] ++
    [0xa2bfe8a14cf10364, 0xa81a664bbc423001, 0xc24b8b70d0f89791, 0xc76c51a30654be30] ++ [0xd192e819d6ef5218, 0xd69906245565a910, 0xf40e35855771202a, 0x106aa07032bbd1b8] ++
    [0x19a4c116b8d2d0c8, 0x1e376c085141ab53, 0x2748774cdf8eeb99, 0x34b0bcb5e19b48a8] ++ [0x391c0cb3c5c95a63, 0x4ed8aa4ae3418acb, 0x5b9cca4f7763e373, 0x682e6ff3d6b2b8a3] ++
    [0x748f82ee5defb2fc, 0x78a5636f43172f60, 0x84c87814a1f0ab72, 0x8cc702081a6439ec] ++ [0x90befffa23631e28, 0xa4506cebde82bde9, 0xbef9a3f7b2c67915, 0xc67178f2e372532b] ++
    [0xca273eceea26619c, 0xd186b8c721c0c207, 0xeada7dd6cde0eb1e, 0xf57d4f7fee6ed178] ++ [0x06f067aa72176fba, 0x0a637dc5a2c898a6, 0x113f9804bef90dae, 0x1b710b35131c471b] ++
    [0x28db77f523047d84, 0x32caab7b40c72493, 0x3c9ebe0a15c9bebc, 0x431d67c49c100d4c] ++ [0x4cc5d4becb3e42b6, 0x597f299cfc657e2a, 0x5fcb6fab3ad6faec, 0x6c44198c4a475817]

/-- The eight words that a hash starts from. -/
def shaStart : List Word :=
  [0xcbbb9d5dc1059ed8, 0x629a292a367cd507, 0x9159015a3070dd17, 0x152fecd8f70e5939] ++ [0x67332667ffc00b31, 0x8eb44a8768581511, 0xdb0c2e0d64f98fa7, 0x47b5481dbefa4fa4]

/-- A list of bytes with its padding: a one bit, zeros, and its length in bits in 16 bytes, big-endian. -/
def shaPad (bs : List Byte) : List Byte :=
  bs ++ [0x80] ++ List.replicate ((239 - bs.length % 128) % 128) 0 ++ (toBytes 16 (8 * bs.length)).reverse

/-- The big-endian word of eight bytes. -/
def shaWord (bs : List Byte) : Word := BitVec.ofNat 64 (ofBytes bs.reverse)

/-- The functions of one word that the message schedule and the rounds use: two rotations and a shift, and three rotations. -/
def shaMix (a b c : Nat) (x : Word) : Word := x.rotateRight a ^^^ x.rotateRight b ^^^ (x >>> c)
def shaTurn (a b c : Nat) (x : Word) : Word := x.rotateRight a ^^^ x.rotateRight b ^^^ x.rotateRight c

/-- One round: the eight working words, and the next sixteen words of the message schedule, of which it takes the first. -/
def shaRound (x : List Word × List Word) (k : Word) : List Word × List Word :=
  let v := fun (i : Nat) => x.1.getD i 0
  let w := fun (i : Nat) => x.2.getD i 0
  let t1 := v 7 + shaTurn 14 18 41 (v 4) + ((v 4 &&& v 5) ^^^ (~~~(v 4) &&& v 6)) + k + w 0
  let t2 := shaTurn 28 34 39 (v 0) + ((v 0 &&& v 1) ^^^ (v 0 &&& v 2) ^^^ (v 1 &&& v 2))
  ([t1 + t2, v 0, v 1, v 2, v 3 + t1, v 4, v 5, v 6],
    x.2.drop 1 ++ [shaMix 19 61 6 (w 14) + w 9 + shaMix 1 8 7 (w 1) + w 0])

/-- One block of 128 bytes. -/
def shaBlock (h : List Word) (bs : List Byte) : List Word :=
  let w := (List.range 16).map (fun i => shaWord ((bs.drop (8 * i)).take 8))
  (h.zip (shaK.foldl shaRound (h, w)).1).map (fun (e : Word × Word) => e.1 + e.2)

/-- The blocks of a padded list of bytes; the first number counts those that are left. -/
def shaBlocks : Nat → List Word → List Byte → List Word
  | 0, h, _ => h
  | n + 1, h, bs => shaBlocks n (shaBlock h (bs.take 128)) (bs.drop 128)

/-- The 48 bytes of SHA-384 of a list of bytes, in their order. -/
def sha384Bytes (bs : List Byte) : List Byte :=
  let p := shaPad bs
  ((shaBlocks (p.length / 128) shaStart p).take 6).flatMap (fun w => (toBytes 8 w.toNat).reverse)

/-- SHA-384 as the number whose bytes, lowest first, are those of the hash, so that a record holds them in their order (R151, R152). -/
def sha384 (bs : List Byte) : BitVec 384 := BitVec.ofNat 384 (ofBytes (sha384Bytes bs))

end Sys2Proof.Machine
end

