-- ==== Sys2Proof/Config.lean ====
section
/-!
DEFINITION. What an implementation fixes, and the free values: constants without a body, so that a statement
holds whatever they are. Each takes the operands it depends on, or the model's own counter of steps.
-/
namespace Sys2Proof

/-- The ticks that pass at a step (log 4). -/
opaque Config.stepTicks : Nat → Nat
/-- A free truth value: what the device decides where the manual leaves a choice open (log 13). -/
opaque Config.freeBool : Nat → Nat → Bool
/-- A free number, for choices with more than two outcomes (log 13). -/
opaque Config.freeNat : Nat → Nat → Nat
/-- Which bytes a stale instruction-cache line yields: true for those of the fill (R191, log 9). -/
opaque Config.staleLine : Nat → Nat → Bool
/-- The byte that an HBM address under a dead key reads as (R393, log 10). -/
opaque Config.staleByte : Nat → Nat → Byte
/-- The measurement that TD takes of a die: 0 to 3 for FD0 to FD3, 4 for XD (R35, log 11). -/
opaque Config.measurement : Nat → BitVec 384
/-- The measurement that the signed manifest holds for a die (R36, log 11). -/
opaque Config.manifest : Nat → BitVec 384
/-- The certificate chain of an SPDM slot (R35, R152, log 15). -/
opaque Config.certificate : Nat → List Byte
/-- The payload of TD's SPDM answer of a kind, other than Busy (R35, log 15). -/
opaque Config.spdmReply : Nat → Nat → List Byte
/-- The message authentication code of a message under a link key (R17, log 11). -/
opaque Config.linkCode : Nat → List Byte → BitVec 128
/-- What TD's generator draws: link keys, memory keys, sessions (R17, R148, R399, log 11). -/
opaque Config.draw : Nat → Nat → Nat
/-- The ECDSA signature, r and s, under the key of a certificate slot (R152, R398, log 11). -/
opaque Config.sign : Nat → List Byte → Nat → BitVec 384 × BitVec 384
/-- The BIST signature of a tile kind, as recorded at boot step 5 (R35, R385, log 16). -/
opaque Config.golden : Nat → BitVec 32
/-- The BIST signature that a tile's self-test gives at a step (R385, log 16). -/
opaque Config.bist : Nat → Nat → BitVec 32
/-- How the words of a cell's active context bank, op, route and register words, stand in its state digest: their order (R373, log
16). -/
opaque Config.bankBytes : List (BitVec 24) → List (BitVec 16) → List (BitVec 16) → List Byte
/-- How the configuration state that a tile other than a cell holds stands in its state digest: the bytes for a tile and the fields of that
state (R373, log 16). -/
opaque Config.tileBytes : Nat → List Nat → List Byte
/-- The package ID, 12 bits (R403, log 17). -/
opaque Config.packageId : BitVec 12
/-- The CFW version (R403, log 17). -/
opaque Config.cfwVersion : Word
/-- Corrected errors of a stack in the last hour at a step (R389, log 18). -/
opaque Config.eccTrend : Nat → Nat → Word
/-- TD's prediction for a die at a step, 32 bytes (R389, log 18). -/
opaque Config.lifeModel : Nat → Nat → BitVec 256
/-- The hops of the route from one region to another over given dies, around routers that are out: routers with the output port
taken at each; none where the dies' meshes leave no way (R144, R384, log 12). -/
opaque Config.routeHops : Nat → Nat → List Nat → List Nat → Option (List (Nat × Nat))
/-- The hops on the way from a region to its die's link with XD, around routers that are out (R15, R398, log 84). -/
opaque Config.fabricHops : Nat → List Nat → List (Nat × Nat)
/-- Which region of its die graph a word of a tag leaves for, as a position in the order of placement: fixed by the graph object,
the die graph, the stage and the lane, whatever regions and whatever time the placement chose (R54, log 7). -/
opaque Config.meshRoute : Nat → Nat → Nat → Nat → Nat → Nat

end Sys2Proof
end

