-- ==== Sys2Proof/Machine/State.lean ====
section
/-!
DEFINITION. The state of the package as plain data, the reasons a step can stop, and the machine right after reset.
INVENTORY.md lists every piece with the rule that names it.
-/
namespace Sys2Proof.Machine

/-- Data by number, the numbers strictly rising; a number that is not listed has its default, or is absent. -/
abbrev Sparse (α : Type) := List (Nat × α)

/-! ## Words and messages -/

/-- A word of 77 bits: payload, tag, kind and burst mark (R222). -/
structure GWord where
  payload : Word := 0
  tag : BitVec 8 := 0
  kind : BitVec 3 := 0
  mark : BitVec 2 := 0
  deriving DecidableEq, Repr

/-- Where a stream stands (R293): position, LFSR, words of the burst so far, the address of the burst's head element,
elements of the step already taken, the index element of a gather or scatter or the first slot of a channel, words of
the burst's head already delivered, and the positions of its sources. A CSR walk keeps its next column in `sub`, plus
one, and the end of its row in `head`. -/
structure Cursor where
  pos : Nat := 0
  lfsr : BitVec 32 := 0
  burst : Nat := 0
  head : Nat := 0
  sub : Nat := 0
  chan : Nat := 0
  skip : Nat := 0
  srcs : List (Nat × Nat × Nat) := []
  deriving DecidableEq, Repr

/-- A word in a FIFO at the edge of the grid: the word, the stream's cursor before it (dir 0), the round that emitted
it (dir 1), whether the block of a bank placed it itself (R349, R352), and, on its way to the region router, its source: the
column-0 cell of a row, or 16 and the row of an edge unit (R49). -/
structure QWord where
  w : GWord := {}
  cur : Cursor := {}
  rnd : Nat := 0
  own : Bool := false
  bank : Bool := false
  src : Nat := 0
  /-- Set on a held word whose tag is bound to an island that the block in bank cur lacks or lacked: it waits for one to switch (R324). -/
  missed : Bool := false
  deriving DecidableEq, Repr

/-! ## The sequencer -/

/-- A landing slot (R327). -/
inductive Slot
  | empty | owed | full (v : Word)
  deriving DecidableEq, Repr

/-- A cause in the pending queue (R188). -/
structure Pend where
  cause : BitVec 9
  fva : Word := 0
  finfo : Word := 0
  /-- The bank of the block whose rounds it voided and whose replay waits for its handler's eret, if it did (R353). -/
  voids : Option Bool := none
  deriving DecidableEq, Repr

/-- What the sequencer is doing (R47, R188, R196, R359). -/
inductive SeqRun
  | idle | boundary | waiting | ended | halted
  deriving DecidableEq, Repr

/-- What later accesses of the sequencer wait for: a signal, a fold or a frame to another package sent with acquire (R147,
R326, R333); or, for engine commands alone, the end of the earlier ones behind a stream-only fence (R216). -/
inductive Hold
  | signal (dst n : Nat) | fold (n : Nat) | frame (id : Nat) | engines
  deriving DecidableEq, Repr

/-- The sequencer of a region (R183, R190, R327). -/
structure Seq where
  g : Vector Word 32 := Vector.replicate 32 0
  k : BitVec 8 := 1
  pc : Word := 0
  status : Word := 0
  tvec : Word := 0
  epc : Word := 0
  cause : Word := 0
  fva : Word := 0
  iva : Word := 0
  finfo : Word := 0
  scr : Vector Word 16 := Vector.replicate 16 0
  slots : Vector Slot 16 := Vector.replicate 16 Slot.empty
  pending : List Pend := []
  run : SeqRun := .idle
  /-- Set by each event that ends a yield; cleared when a yield begins (R198). -/
  wake : Bool := false
  /-- The tick at which the waiting instruction began to wait (R198). -/
  waitFrom : Option Nat := none
  holds : List Hold := []
  deriving DecidableEq, Repr

/-- A line of the instruction cache: its VA, its bytes when filled (R191). -/
structure ILine where
  va : Nat
  pa : Nat
  bytes : List Byte
  deriving DecidableEq, Repr

/-- A combined translation of the translation cache, or of an extent (R170, R172). -/
structure Xlate where
  part : Nat
  va : Nat
  size : Nat
  pa : Nat
  write : Bool
  exec : Bool
  write2 : Bool
  exec2 : Bool
  rep : Bool
  key : Nat
  home : Nat
  gpa : Nat
  /-- Whether it comes from level-3 leaves, and the address of the leaf that maps `va` (R161, R178). -/
  fine : Bool
  leaf : Nat
  deriving DecidableEq, Repr

/-- What placement fixes for a region (R47, R48, R156). -/
structure Placement where
  part : Nat
  replay : Nat
  dg : Nat
  stage : Nat
  number : Nat
  lane : Nat
  width : Nat
  graph : Nat
  save : Nat
  /-- The tick up to which resid has been counted (R150). -/
  since : Nat := 0
  deriving DecidableEq, Repr

/-! ## Tags, streams, copies, channels -/

/-- An armed bitmap word and its mask (R325). -/
structure Arm where
  va : Nat
  mask : Word
  deriving DecidableEq, Repr

/-- A tag (R317). -/
structure TagState where
  b : Bool := false
  count : BitVec 16 := 0
  task : Option Nat := none
  arm : Option Arm := none
  deriving DecidableEq, Repr

/-- A latched stream descriptor (R119). -/
structure Desc where
  mode : Nat := 0
  dir : Nat := 0
  bmask : Bool := false
  width : Nat := 1
  planes : Nat := 0
  tag : BitVec 8 := 0
  burst : Nat := 64
  index : Nat := 255
  filter : Nat := 255
  scale : Int := 0
  base : Nat := 0
  trip : List Nat := [1, 1, 1, 1, 1]
  stride : List Int := [0, 0, 0, 0, 0]
  bitmap : Int := 0
  seed : BitVec 32 := 0
  va : Nat := 0
  deriving DecidableEq, Repr

/-- A store that a round holds, or that a stream is about to make: bytes by address (R292, R293). -/
structure HeldStore where
  stream : Nat
  step : Nat
  bytes : List (Nat × Byte)
  chunk : Option Nat
  deriving DecidableEq, Repr

/-- A stream (R283 to R295, R80). -/
structure Stream where
  state : Nat := 0
  desc : Desc := {}
  cur : Cursor := {}
  extents : List Xlate := []
  bars : List Nat := []
  /-- Words read ahead and not yet in the tile FIFO (R284). -/
  ahead : List QWord := []
  /-- A source's elements that its consumer has not taken, each with the cursor before it (R289). -/
  elems : List (Nat × Cursor) := []
  /-- Elements of the word being packed (dir 0), or unpacked and not yet stored (dir 1) (R285). -/
  part : List Nat := []
  /-- The cursor before the first element of that word, and its round (dir 1). -/
  wordCur : Cursor := {}
  wordRnd : Nat := 0
  paused : Bool := false
  /-- The address of an access that found no extent, and whether it writes (R172). -/
  need : Option (Nat × Bool) := none
  /-- A source has performed, so the stream performs with its round (R289). -/
  ended : Bool := false
  acq : Bool := false
  rel : Bool := false
  scope : Nat := 1
  chan : Option Nat := none
  /-- For each round that reached the stream, the cursor at its first element and the elements then left over (R293,
  R349). -/
  marks : List (Nat × Cursor × List Nat) := []
  deriving DecidableEq, Repr

/-- A copy in the queue of the copy engine, or a channel transfer (R305, R307, R311). -/
structure Copy where
  index : Nat
  src : Nat
  dst : Nat
  len : Nat
  /-- The bitmap of the copy, unless m is g0 (R104, R307). -/
  bitmap : Option Nat
  tag : Option Nat
  acq : Bool
  rel : Bool
  scope : Nat
  region : Nat
  rank : Option Nat := none
  part : Nat
  done : List Nat := []
  acked : List Nat := []
  bits : List Nat := []
  chan : Option (Nat × Nat) := none
  ring : Option (Nat × Nat × Nat) := none
  /-- The stage-2 fault at which the copy is paused (R167). -/
  fault : Option Nat := none
  deriving DecidableEq, Repr

/-- A channel end held open (R310 to R312). -/
structure ChanEnd where
  num : Nat
  producer : Bool
  header : Nat
  size : Nat
  own : Nat
  other : Nat
  ended : Bool
  corrupt : Bool
  stream : Option Nat := none
  /-- Slots whose sending is queued. -/
  inflight : Nat := 0
  /-- The slots that the waiting chn.recv takes, and whether its copy has finished. -/
  recv : Option Nat := none
  ready : Bool := false
  deriving DecidableEq, Repr

/-! ## Blocks and banks -/

/-- A rectangle of cells (R116). -/
structure Rect where
  x0 : Nat
  y0 : Nat
  x1 : Nat
  y1 : Nat
  deriving DecidableEq, Repr

/-- A bind entry (R116). -/
structure Bind where
  stream : Nat
  kind : Nat
  pos : Nat
  idx : Nat
  deriving DecidableEq, Repr

/-- A carry entry (R116, R221). -/
structure Carry where
  cell : Nat
  kind : Nat
  first : Nat
  count : Nat
  deriving DecidableEq, Repr

/-- A cell record (R117). -/
structure CellRec where
  x : Nat
  y : Nat
  island : Nat
  bank : Nat
  ops : List (BitVec 24)
  routes : List (BitVec 16)
  regs : List (BitVec 16)
  off : Nat
  deriving DecidableEq, Repr

/-- An edge record (R117). -/
structure EdgeRec where
  row : Nat
  ops : List (BitVec 24)
  routes : List (BitVec 16)
  off : Nat
  deriving DecidableEq, Repr

/-- A configuration block as loaded (R115 to R117). -/
structure Block where
  va : Nat
  size : Nat
  fuse : List (BitVec 16)
  tagmap : List Nat
  round : Nat
  depth : Nat
  report : Nat
  done : Nat
  trip : List Nat
  islands : List Rect
  carries : List Carry
  binds : List Bind
  cells : List CellRec
  edges : List EdgeRec
  deriving DecidableEq, Repr

/-- A timing island while its block runs (R219, R225, R368). -/
structure Island where
  started : Bool := false
  complete : Bool := false
  counter : Nat := 0
  nest : List Nat := [0, 0, 0, 0, 0]
  iter : Nat := 0
  /-- Whether the level has been sampled for the current iteration, and with what outcome (R368). -/
  sampled : Bool := false
  bubble : Bool := false
  /-- The fence at which the island stands, if it is stopped at one (R348). -/
  fence : Option Nat := none
  deriving DecidableEq, Repr

/-- An accumulator entry: the 80-bit partial, its tag, and whether its sum has saturated (R221, R84). -/
structure Acc where
  val : BitVec 80 := 0
  tag : BitVec 2 := 0
  stuck : Bool := false
  deriving DecidableEq, Repr

/-- A cell (R221, R223). -/
structure Cell where
  portA : List GWord := List.replicate 16 {}
  portB : List GWord := List.replicate 16 {}
  out : GWord := {}
  links : List GWord := List.replicate 4 {}
  rot : Sparse Word := []
  base : Nat := 0
  acc : Sparse Acc := []
  bank : Sparse (BitVec 32) := []
  pad : Sparse Word := []
  w : Nat := 0
  z : Nat := 0
  flags : BitVec 8 := 1
  deriving DecidableEq, Repr

/-- The kind of a fold register (R88, R91). -/
inductive FoldKind
  | clear | exact | fast
  deriving DecidableEq, Repr

/-- The special state of a fold register (R88). -/
inductive FoldSpecial
  | none | posInf | negInf | nan
  deriving DecidableEq, Repr

/-- A fold register or exact shadow: the fixed-point sum in units of 2^-149 or the FP32 value, special state and flag
(R88, R335). -/
structure FoldReg where
  kind : FoldKind := .clear
  sum : Int := 0
  fp : BitVec 32 := 0
  special : FoldSpecial := .none
  negZero : Bool := false
  size : Nat := 0
  deriving DecidableEq, Repr

/-- An edge unit (R252). -/
structure Edge where
  lane : List QWord := []
  input : List QWord := []
  cell : List QWord := []
  out : List QWord := []
  f : Sparse FoldReg := []
  q : Sparse Word := []
  quant : List (BitVec 32) := []
  qc : Nat := 0
  s : Nat := 0
  bank : Bool := true
  stopped : Bool := true
  deriving DecidableEq, Repr

/-- An rmw operation that a round holds, with the op word for its cause (R255, R266). -/
structure HeldRmw where
  op : Nat
  addr : Nat
  z : Nat
  signed : Bool
  val : Word
  word : BitVec 24
  deriving DecidableEq, Repr

/-- The effects that a round holds until it commits (R350). -/
structure RoundHold where
  rnd : Nat
  stores : List HeldStore := []
  rmws : List HeldRmw := []
  emits : List (Nat × Word) := []
  outbound : List GWord := []
  sat : Bool := false
  snan : Bool := false
  /-- Words from the die mesh that the round consumed, with the FIFO each came from (R352). -/
  consumed : List (Nat × QWord) := []
  stored : List (Nat × Nat) := []
  deriving DecidableEq, Repr

/-- What a round's checkpoint keeps of an edge unit (R255, R349). -/
structure EdgeCheck where
  row : Nat
  f : Sparse FoldReg
  q : Sparse Word
  quant : List (BitVec 32)
  qc : Nat
  s : Nat
  deriving DecidableEq, Repr

/-- What a round starts from (R349). -/
structure Checkpoint where
  rnd : Nat
  cells : Sparse Cell
  edges : List EdgeCheck
  nests : List (List Nat)
  streams : List (Nat × Cursor)
  deriving DecidableEq, Repr

/-- A cause that voided a round, and what its replay waits for (R353). -/
inductive VoidWait
  | eret (cause : BitVec 9) (entered : Bool)
  | answer (fault : Nat)
  | service
  | remap
  deriving DecidableEq, Repr

/-- A context bank and its block (R268). -/
structure Bank where
  state : Nat := 0
  img : Option Block := none
  consts : List Word := []
  islands : List Island := []
  computing : Nat := 0
  committing : Option Nat := none
  rounds : Nat := 0
  holds : List RoundHold := []
  checks : List Checkpoint := []
  voids : List VoidWait := []
  voidTo : Option Nat := none
  bound : List Bind := []
  unbinding : List Nat := []
  satSent : Bool := false
  snanSent : Bool := false
  tokenSent : Bool := false
  stopped : Bool := false
  deriving DecidableEq, Repr

/-! ## Tiles -/

/-- What a tile holds about one neighbour (R374 to R376, R385). -/
structure Watch where
  miss : Nat := 0
  babble : Nat := 0
  quiet : Nat := 0
  accuse : Bool := false
  lastSeq : Nat := 0
  beat : Bool := false
  babbled : Bool := false
  closed : Bool := false
  appeals : Nat := 0
  appealed : Bool := false
  deriving DecidableEq, Repr

/-- A tile's health (R372 to R386). -/
structure Tile where
  state : Nat := 0
  /-- The states it has taken, newest first, each with the first period at whose start it stood (R376). -/
  past : List (Nat × Nat) := []
  seq : Nat := 0
  /-- The state digest of its last heartbeat (R373, R386). -/
  digest : BitVec 32 := 0
  watch : Sparse Watch := []
  /-- Accusations counted: accuser, subject, periods since the last beat (R375). -/
  accusations : List (Nat × Nat × Nat) := []
  admits : List (Nat × Nat) := []
  fenced : List Nat := []
  appealBeats : Nat := 0
  probation : Nat := 0
  isolations : List Nat := []
  silent : Bool := false
  babbling : Bool := false
  sig : BitVec 32 := 0
  /-- Periods for which all links to an isolated tile have been closed (R379). -/
  since : Nat := 0
  /-- Periods that have ended, and periods in which the tile has sent its beat (R372). -/
  period : Nat := 0
  sent : Nat := 0
  deriving DecidableEq, Repr

/-! ## A region -/

/-- A region: sequencer, grid, tiers' control, streams, copies, tags and tiles (R20, R46, R183, R252, R283, R317). -/
structure Region where
  seq : Seq := {}
  icache : List ILine := []
  tlb : List Xlate := []
  place : Option Placement := none
  tags : Sparse TagState := []
  hold : List QWord := []
  rows : Sparse (List QWord) := []
  inj : Sparse (List QWord) := []
  /-- Words waiting at the region router: from the die mesh, and from the region itself (R320). -/
  mesh : List QWord := []
  loc : List QWord := []
  /-- The model's own map from tag to the region that a word leaving for the die mesh reaches (log 7). -/
  route : Sparse Nat := []
  streams : Sparse Stream := []
  /-- The streams whose requests stand at the translation unit, in the order of their arrival (R172). -/
  walks : List Nat := []
  copies : List Copy := []
  copyIndex : Nat := 0
  chans : List ChanEnd := []
  tokens : List Nat := []
  bankA : Bank := {}
  bankB : Bank := {}
  cur : Bool := true
  params : Sparse Word := []
  sat : Bool := false
  snan : Bool := false
  cells : Sparse Cell := []
  retim : Sparse (List QWord) := []
  memIn : Sparse (List QWord) := []
  memOut : Sparse (List QWord) := []
  edges : Sparse Edge := []
  spare : Nat := 16
  mirrors : Sparse Cell := []
  /-- The logical cells that wait for a remap, in the order of their isolation (R383). -/
  remapping : List Nat := []
  marker : Bool := false
  saved : Bool := false
  tiles : Sparse Tile := []
  deriving DecidableEq, Repr

/-! ## Partitions -/

/-- The state of a partition (R138). -/
inductive PState
  | ready | suspended | migratingOut | migratingIn | resetting
  deriving DecidableEq, Repr

/-- A fold window: its range and its owner (R329, R382). -/
structure Window where
  va : Nat
  log2 : Nat
  owner : Option (Nat × Nat)
  deriving DecidableEq, Repr

/-- What a packet at the head of a queue waits for (R132 to R134, R175). -/
inductive QWait
  | none
  | gate (idx : Nat) (table : List (Nat × Nat × Nat)) (timeout since : Nat)
  | hcopy (idx : Nat)
  | signal (idx ctr val : Nat) (add : Bool) (vec : Option Nat) (before : List Nat)
  | inval (idx : Nat)
  deriving DecidableEq, Repr

/-- A host queue as XD holds it (R129, R130, R139, R358). -/
structure HQueue where
  va : Nat
  log2 : Nat
  prio : Nat
  cons : Nat
  regCons : Nat
  prod : Nat
  stopped : Bool := false
  gatedone : Nat := 0
  extents : List Xlate := []
  wait : QWait := .none
  /-- Writes to the header still to be made: offset, bytes, value (R129, R130). -/
  owed : List (Nat × Nat × Nat) := []
  deriving DecidableEq, Repr

/-- A stage of a die graph, its regions once placed, and the lanes that have completed (R154, R156). -/
structure StageRec where
  index : Nat
  number : Nat
  width : Nat
  entry : Nat
  save : Nat
  regions : List Nat := []
  done : List Nat := []
  deriving DecidableEq, Repr

/-- Where a die graph stands (R62, R157, R159). -/
inductive DgPlace
  | waiting | placed | saving (since : Nat) | saved | restoring | finished
  deriving DecidableEq, Repr

/-- A region's saved record: the region as it stood, with its palette, pads and vat slice (R362, R365). -/
structure SavedLane where
  region : Nat
  stage : Nat
  lane : Nat
  tick : Nat
  img : Region
  palette : List Host.Cell
  vat : List Host.Cell
  deriving DecidableEq, Repr

/-- A tag.sig in flight or held for a saved tag table (R326). -/
structure Signal where
  part : Nat
  src : Nat
  dst : Nat
  tag : Nat
  mode : Nat
  num : Nat
  /-- The replay and the stage that it was aimed at, unless it came to a rank (R147, R326). -/
  target : Option (Nat × Nat) := none
  /-- The replay that sent it. -/
  replay : Nat := 0
  deriving DecidableEq, Repr

/-- A die graph of a replay (R43, R153, R361). -/
structure DieGraph where
  die : Nat
  stages : List StageRec
  place : DgPlace := .waiting
  misses : Nat := 0
  missing : Bool := false
  /-- Whether the save is one of PART.SUSPEND, which has no deadline (R361). -/
  forSuspend : Bool := false
  /-- The gang tick that found its restore under way and ended its slice, from which its save has its deadline (R361, R363). -/
  cutAt : Option Nat := none
  /-- Set once the save of an owner change has ended in time: the miss count before it, should another record of its die still come
  late (R361). -/
  batch : Option Nat := none
  saved : List SavedLane := []
  held : List Signal := []
  /-- Words that other regions sent to a saved region, with that region (R360). -/
  heldWords : List (Nat × GWord) := []
  deriving DecidableEq, Repr

/-- Where a launch came from: a host queue, or a device launch queue (R55, R59). -/
inductive Source
  | host (q : Nat) | device (prio : Nat)
  deriving DecidableEq, Repr

/-- A replay accepted or begun and not ended (R55 to R57). -/
structure Replay where
  num : Nat
  src : Source
  prio : Nat
  graph : Nat
  frame : Nat
  /-- The number of the replay before it on its queue; 0 if there is none (R61). -/
  prev : Nat := 0
  begun : Bool := false
  /-- The cause of an abort whose writes to the frame are still to be made (R56). -/
  aborting : Option (BitVec 9) := none
  /-- The tick at which the replay completed or was aborted, once its frame is being written (R56). -/
  tend : Option Nat := none
  psize : Nat := 0
  chtab : Nat := 0
  chcount : Nat := 0
  dgs : List DieGraph := []
  deriving DecidableEq, Repr

/-- An HCOPY in the XD copy engine (R134). -/
structure HJob where
  num : Nat
  queue : Nat
  idx : Nat
  src : Nat
  dst : Nat
  len : Nat
  ctr : Nat
  wait : Bool
  done : List Nat := []
  /-- The stage-2 fault at which the copy is paused (R167). -/
  fault : Option Nat := none
  deriving DecidableEq, Repr

/-- How a stage-2 fault was answered (R167). -/
inductive Answer
  | pending | resume | abort
  deriving DecidableEq, Repr

/-- A stage-2 fault that a unit holds (R167, R168). -/
structure FaultRec where
  num : Nat
  cause : Nat
  level : Nat
  access : Nat
  va : Nat
  gpa : Nat
  region : Nat
  unit : Nat
  tick : Nat
  answer : Answer := .pending
  /-- Whether it reports a pull that no access asked for (R181, R182). -/
  bg : Bool := false
  deriving DecidableEq, Repr

/-- An operation that waits for the invalidation sequencer (R175): a collapse with the leaf that the write translated
through if its rep is to be cleared, a replica creation, a pull with the tick at which it was sent, the INVAL packet of a
queue with its range, and an S2.UPDATE. -/
inductive InvOp
  | collapse (frame : Nat) (leaf : Option Nat)
  | replica (frame die region stream : Nat)
  | pull (gframe : Nat) (sent : Option Nat)
  | inval (q lo hi : Nat)
  | update
  deriving DecidableEq, Repr

/-- The counters of R150, in the order of R152, with preempt. -/
structure Counters where
  slots : Vector Word 6 := Vector.replicate 6 0
  void : Word := 0
  hbm : Word := 0
  vat : Word := 0
  fabric : Word := 0
  resid : Word := 0
  preempt : BitVec 32 := 0
  deriving DecidableEq, Repr

/-- A partition's metering (R149 to R152, R394). -/
structure Meter where
  total : Counters := {}
  /-- The increments of windows that no record has counted yet, each with the tick at its window's end, and the sum of those before, for
  the window lag of R152. -/
  history : List (Nat × Counters) := []
  counted : Counters := {}
  /-- What the meter blocks have counted and not sent: by 1 ms window and die (R149). -/
  pend : Sparse Counters := []
  latest : Nat := 0
  armed : Nat := 0
  ring : Nat := 0
  ringn : Nat := 16
  /-- The fault ring in use (R168). -/
  faultRing : Nat := 0
  nonce : BitVec 256 := 0
  seq : Nat := 0
  prev : BitVec 384 := 0
  first : Bool := true
  nextDue : Nat := 0
  /-- Where the interval of the next record begins, and the suspensions that meet it: from, to (R152, R394). -/
  since : Nat := 0
  pauses : List (Nat × Option Nat) := []
  deriving DecidableEq, Repr

/-- A fatal cause that will reset the partition (R355 to R357). -/
structure ResetReq where
  cause : BitVec 9
  delivered : BitVec 9
  region : Nat
  resume : Word
  first : Word
  fva : Word
  detour : Bool := true
  deriving DecidableEq, Repr

/-- A partition's part in a migration (R180, R398 to R400). -/
structure Migration where
  peer : Nat
  session : BitVec 128
  ticket : List Byte
  deriving DecidableEq, Repr

/-- A frame of a rank transfer that is not acknowledged (R147). -/
structure RankFrame where
  id : Nat
  src : Nat
  package : Nat
  key : Nat
  region : Nat
  body : RankBody
  copy : Option Nat
  /-- The replay of its region that sent it (R216). -/
  replay : Nat := 0
  sends : Nat := 1
  /-- The copies of its region, issued before it to the same rank, that it follows (R147). -/
  after : List Nat := []
  deriving DecidableEq, Repr

/-- The CFW-held palette, pads and vat slice of a region (R364). -/
structure HeldImage where
  region : Nat
  palette : List Host.Cell
  pads : List (Nat × Sparse Word)
  vat : List Host.Cell
  deriving DecidableEq, Repr

/-- A place where packets of a partition's virtual network queue: an output port of a router, or the modules of the link from one
fabric die to another (R14, R144). -/
inductive Port
  | out (router port : Nat)
  | link (src dst : Nat)
  deriving DecidableEq, Repr

/-- A partition (R141). -/
structure Part where
  regions : BitVec 192
  set : Nat
  keys : Nat
  keyBase : Nat
  hostWin : Bool
  state : PState := .ready
  key : BitVec 16
  s2 : Nat
  entries : Nat
  s1root : Nat
  windows : List Window := []
  ranks : Sparse Word := []
  queues : Sparse HQueue := []
  counter : Nat := 1
  replays : List Replay := []
  /-- The last replay accepted from each queue, and the queue last placed from at each priority; host queues are 0 to 15,
  device launch queues 16 to 19 (R61, R62). -/
  lastOf : Sparse Nat := []
  lastQueue : Sparse Nat := []
  jobs : List HJob := []
  faults : List FaultRec := []
  nextFault : Nat := 1
  faultCount : Nat := 0
  collapsed : List Nat := []
  /-- Type 2 frames whose pull has failed and not been answered (R182). -/
  failedPulls : List Nat := []
  /-- The frame of a pull that no access waits for, and the tick at which it was sent: it stands in invq until it arrives or fails, and a
  failure is then still to be reported (R181, R182). -/
  pulling : Option (Nat × Nat) := none
  /-- Set while its create still runs, because pages of queue 0's tables are being pulled: the tick at which the first six steps had
  ended (R143, R180). -/
  forming : Option Nat := none
  invq : List InvOp := []
  meter : Meter := {}
  frames : List RankFrame := []
  nextFrame : Nat := 0
  migration : Option Migration := none
  reset : Option ResetReq := none
  suspending : Option Nat := none
  /-- Set by a resume on a shared set: what is saved waits for the next slice (R397). -/
  waitSlice : Bool := false
  /-- The tick at which the saves of the suspension ended (R399). -/
  tsusp : Nat := 0
  /-- CFW-held palettes, pads and vat slices of set regions without a placed die graph (R364). -/
  images : List HeldImage := []
  /-- The VC slots that its virtual network holds: port and slot number (R144). -/
  slots : List (Port × Nat) := []
  deriving DecidableEq, Repr

/-- A region set: members in joining order, tick length, owner, tick of the last gang tick (R158, R159). -/
structure RSet where
  members : List Nat
  period : Nat
  owner : Nat
  regions : BitVec 192
  /-- The last gang tick at which the scheduler acted, as a count of ticks of the set. -/
  last : Nat := 0
  /-- The partition whose state is live on a die, while that is not the owner (R361). -/
  live : Sparse Nat := []
  /-- Where in the joining order the next owner is sought while no member owns the slice (R393). -/
  start : Nat := 0
  deriving DecidableEq, Repr

/-! ## Messages between regions, the package, memory -/

/-- A fold or rmw operation on its way to an owner (R331, R333). -/
structure FoldMsg where
  num : Nat
  part : Nat
  issuer : Nat
  owner : Nat × Nat
  op : Nat
  addr : Nat
  z : Nat
  b : Word
  c : Word
  r : Bool
  slot : Nat
  rel : Bool
  scope : Nat
  info : Word
  rmw : Bool := false
  signed : Bool := true
  /-- The replay that issued it, whose slot takes the return (R327). -/
  replay : Nat := 0
  /-- The bank and the image of the block that sent an rmw operation (R278). -/
  block : Option (Bool × Nat) := none
  /-- Set while the owner is held at it (R334). -/
  held : Bool := false
  /-- Set when the owner is isolated while the message is on its way (R381). -/
  orphan : Bool := false
  deriving DecidableEq, Repr

/-- An owner's return on its way to a landing slot (R331). -/
structure FoldRet where
  part : Nat
  replay : Nat
  dst : Nat
  slot : Nat
  val : Word
  deriving DecidableEq, Repr

/-- The exact shadows of an owner: region, row, and the fold register kept for each address (R335). -/
structure Shadows where
  region : Nat
  row : Nat
  regs : Sparse FoldReg
  deriving DecidableEq, Repr

/-- A beat on the side band, for one receiving tile (R373). -/
structure Beat where
  dst : Nat
  seq : Nat
  kind : Nat
  state : Nat
  zeros : Bool := true
  sender : Nat
  subject : Nat
  payload : BitVec 32
  /-- The period in which it was sent (R374). -/
  per : Nat := 0
  deriving DecidableEq, Repr

/-- Where a die's junction temperature stands (R388). -/
inductive TempZone
  | aboveTrip | between | belowRecovery
  deriving DecidableEq, Repr

/-- A die's thermal state: zone, since when, and whether it has tripped (R388). -/
structure Thermal where
  zone : TempZone := .belowRecovery
  since : Nat := 0
  tripped : Bool := false
  deriving DecidableEq, Repr

/-- The CFW queue and the command register (R135). -/
structure CfwQueue where
  pa : Nat
  log2 : Nat
  cons : Nat
  prod : Nat
  stopped : Bool := false
  /-- The tick at which the command at cons started, if it has and goes on (R136). -/
  started : Option Nat := none
  deriving DecidableEq, Repr

/-- What the package sends: SPDM replies (`none` for Busy), interrupts, pulls, and pulled frames (R37, R134, R180,
R400). -/
inductive Output
  | spdm (kind : Nat) (payload : Option (List Byte))
  | interrupt (vector : Nat)
  /-- A frame that a migration source serves, or none for a pull it refuses (R181, R400). -/
  | page (frame : Nat) (bytes : Option (List Host.Cell))
  /-- A pull for a frame, sent to the package of a migration source under the session of the ticket (R180). -/
  | pull (package : Nat) (session : BitVec 128) (gframe : Nat)
  deriving DecidableEq, Repr

/-- An entry of TD's health log (R17, R386, R388). -/
inductive LogEntry
  | badCode (die tick : Nat)
  | badWindow (die tick : Nat)
  | isolation (tile tick : Nat) (digest : BitVec 32)
  | thermal (die tick : Nat)
  deriving DecidableEq, Repr

/-- A replica of a frame in the pool of a die (R176, R177). -/
structure Replica where
  part : Nat
  frame : Nat
  die : Nat
  pool : Nat
  deriving DecidableEq, Repr

/-- The package: what belongs to no region and no partition (R12 to R38, R128, R135, R145, R148, R386). -/
structure Pkg where
  boot : Nat := 0
  /-- The dies measured so far, with the outcome of each: 0 to 3 for FD0 to FD3, 4 for XD. -/
  measured : List (Nat × Bool) := []
  linkKeys : List (Nat × Nat) := []
  golden : List (Nat × BitVec 32) := []
  part : Nat := 1
  fusedRegions : BitVec 192 := BitVec.allOnes 192
  fusedStacks : BitVec 8 := BitVec.allOnes 8
  retiredTiles : List Nat := []
  retired : BitVec 192 := 0
  mappedOut : List Nat := []
  lanes : Sparse Nat := []
  slowPorts : List Nat := []
  vf : Sparse VfState := []
  /-- The periods of the package in which an island was not ON, as ranges without their ends (R372, log 16). -/
  naps : Sparse (List (Nat × Nat)) := []
  /-- The clock of an island: how many of the package's periods had passed when it left OFF, those in HOLD since then added, and how
many when it last stopped (R372, log 16). -/
  clocks : Sparse (Nat × Nat) := []
  throttle : Sparse Nat := []
  thermal : Sparse Thermal := []
  log : List LogEntry := []
  out : List Output := []
  keySlots : List (Nat × Nat) := []
  cfw : Option CfwQueue := none
  /-- Commands in progress: opcode, partition, ctag, result address, start tick (R136, R138). -/
  inProgress : List (Nat × Nat × Nat × Nat × Nat) := []
  quarantine : List (Nat × Nat) := []
  /-- The last 1 ms window that each die's meter block has closed (R149). -/
  windows : Sparse Nat := []
  drops : Nat := 0
  lastDrops : List (Nat × Nat × Nat) := []
  replicas : List Replica := []
  noReplica : List (Nat × Nat) := []
  signals : List Signal := []
  folds : List FoldMsg := []
  returns : List FoldRet := []
  msgCount : Nat := 0
  rehoming : List (Nat × Nat) := []
  shadows : List Shadows := []
  beats : List Beat := []
  keyDraws : Nat := 0
  /-- The ranges of host physical addresses, base and length, that the host's access control refuses at present (R127, log 13). -/
  denied : List (Nat × Nat) := []
  /-- The certificate chains and signed tickets whose signatures verify: what other packages have signed (R398, log 11). -/
  signed : List (List Byte × List Byte) := []
  deriving DecidableEq, Repr

/-- Bytes under a key that no longer exists: base, length, and the number of the destruction (R393). -/
structure Stale where
  base : Nat
  len : Nat
  gen : Nat
  deriving DecidableEq, Repr

/-- The memory of the package and of the host: listed bytes, poisoned bytes, and bytes under dead keys with the
addresses in them that have been written since (R21 to R23, R34, R212, R393). -/
structure Memory where
  cells : List Host.Cell := []
  poison : List Nat := []
  stale : List Stale := []
  fresh : List Nat := []
  deriving DecidableEq, Repr

/-- A link between two tiles of a region: the side band from one tile to another, the data link of a cell in a direction, those of a
memory tile with its cell and with its address generator, the edge lane of a row and the link back from its edge unit, and those of the
region router with the cell of column 0 of a row (R224, R227, R228, R374); or a link to the region's router from that of another region
of the die, the data link and the side band (R378). A data link comes with the place of the word that fails in the FIFO that the link
feeds; between cells it may be the link register's. -/
inductive Link
  | sideBand (src dst : Nat)
  | cells (cell dir : Nat) (word : Option Nat)
  | memory (n : Nat) (fromCell : Bool) (word : Nat)
  | generator (n : Nat) (toTile : Bool) (word : Nat)
  | lane (row word : Nat)
  | edge (row word : Nat)
  | router (row : Nat) (toCell : Bool) (word : Nat)
  | routers (src : Nat) (word : Option Nat)
  | routerBand (src : Nat)
  deriving DecidableEq, Repr

/-- Who moves next (log 3): a sequencer, another agent's step, a host store, a change of a die's temperature, an error on a link of a
region, a change of what the host's access control refuses, or a signature that another package has made on a ticket. -/
inductive Turn
  | issue (r : Nat)
  | event (i : Instr)
  | hostStore (pa : Nat) (bytes : List Byte)
  | temperature (die : Nat) (zone : TempZone)
  | linkError (r : Nat) (link : Link)
  | hostAccess (denied : List (Nat × Nat))
  | signature (cert ticket : List Byte)
  deriving DecidableEq, Repr

/-- The machine. `steps`, `agenda` and `cur` are the model's own (log 3, log 4). -/
structure State where
  tick : Nat := 0
  steps : Nat := 0
  agenda : List Turn := []
  cur : Nat := 0
  pkg : Pkg := {}
  parts : Sparse Part := []
  sets : Sparse RSet := []
  regs : Sparse Region := []
  mem : Memory := {}
  deriving DecidableEq, Repr

/-- Why the machine stops. -/
inductive Fault
  /-- Raised by the event steps that name a unit the package does not have. Safe: nothing is claimed of such a step. -/
  | noSuchUnit
  deriving DecidableEq, Repr

/-- Why an instruction has no meaning. -/
inductive Refusal
  /-- Raised by Dispatch for an instruction without a meaning yet. Safe: nothing is claimed of it. -/
  | notModelled (mnemonic : String)
  deriving DecidableEq, Repr

/-- The islands before any die is released: all OFF but TD's own, VF46 and VF47 (R28, R35, R36, log 109). -/
def coldIslands : Sparse VfState := (List.range 46).map (fun v => (v, .off))

/-- The machine right after reset: TD leaves reset, TICK is 0, nothing is measured, no partition exists (R27, R35). -/
def State.reset : State := { pkg := { vf := coldIslands } }

end Sys2Proof.Machine
end

