-- ==== Sys2Proof/Machine/Ops.lean ====
section
/-!
DEFINITION. The named operations on the state: numbered data, memory, regions, partitions, registers, and the taking
of a cause and the return from one (R185 to R188, R198).
-/
namespace Sys2Proof.Machine

/-! ## Numbered data -/

/-- The entry with a number, if it is listed. -/
def spFind {α : Type} : Sparse α → Nat → Option α
  | [], _ => none
  | (k, v) :: l, n => if k = n then some v else spFind l n

/-- The entry with a number, or the default. -/
def spGet {α : Type} (d : α) (l : Sparse α) (n : Nat) : α := (spFind l n).getD d

/-- Puts an entry in its place, replacing one of the same number. -/
def spInsert {α : Type} : Sparse α → Nat → α → Sparse α
  | [], n, v => [(n, v)]
  | (k, w) :: l, n, v =>
    if n < k then (n, v) :: (k, w) :: l else if n = k then (n, v) :: l else (k, w) :: spInsert l n v

/-- Removes an entry. -/
def spErase {α : Type} (l : Sparse α) (n : Nat) : Sparse α := l.filter (fun e => e.1 != n)

/-- The numbers strictly rise. -/
def spWf {α : Type} : Sparse α → Bool
  | [] => true
  | (k, _) :: l => (match l with | [] => true | (j, _) :: _ => decide (k < j)) && spWf l

/-- Puts a number into a rising list without repeats. -/
def natInsert : List Nat → Nat → List Nat
  | [], n => [n]
  | k :: l, n => if n < k then n :: k :: l else if n = k then k :: l else k :: natInsert l n

/-- Strictly rising. -/
def natWf : List Nat → Bool
  | [] => true
  | k :: l => (match l with | [] => true | j :: _ => decide (k < j)) && natWf l

/-! ## Memory -/

/-- What an address that is not listed reads as (log 2). -/
def unlisted : Byte := 0

/-- Whether an address lies in a range under a dead key and has not been written since (R393). -/
def Memory.staleAt (m : Memory) (a : Nat) : Option Nat :=
  if a ∈ m.fresh then none
  else (m.stale.find? (fun r => decide (r.base ≤ a) && decide (a < r.base + r.len))).map Stale.gen

/-- One byte of memory. -/
def Memory.read (m : Memory) (a : Nat) : Byte :=
  match m.staleAt a with
  | some g => Config.staleByte g a
  | none => spGet unlisted m.cells a

/-- Bytes from an address up. -/
def Memory.readN (m : Memory) : Nat → Nat → List Byte
  | 0, _ => []
  | n + 1, a => m.read a :: m.readN n (a + 1)

/-- Writes one byte: the canonical form lists no byte that an unlisted address reads as. -/
def cellsWrite (l : List Host.Cell) (a : Nat) (b : Byte) : List Host.Cell :=
  if b = unlisted then spErase l a else spInsert l a b

/-- Whether an address lies in a range under a dead key. -/
def Memory.inStale (m : Memory) (a : Nat) : Bool :=
  m.stale.any (fun r => decide (r.base ≤ a) && decide (a < r.base + r.len))

/-- Writes one byte, which replaces its poison and is under a live key (R212, R393). -/
def Memory.write (m : Memory) (a : Nat) (b : Byte) : Memory :=
  { cells := cellsWrite m.cells a b
    poison := m.poison.filter (fun x => x != a)
    stale := m.stale
    fresh := if m.inStale a then natInsert m.fresh a else m.fresh }

/-- Writes bytes from an address up. -/
def Memory.writeN (m : Memory) : Nat → List Byte → Memory
  | _, [] => m
  | a, b :: bs => (m.write a b).writeN (a + 1) bs

/-- Writes bytes at listed addresses, in order. -/
def Memory.writeAt (m : Memory) : List (Nat × Byte) → Memory
  | [] => m
  | (a, b) :: l => (m.write a b).writeAt l

/-- Writes zero over a range, as a scrub does: nothing in it stays listed, poisoned or stale (R29, R143, R393). -/
def Memory.scrub (m : Memory) (base len : Nat) : Memory :=
  let out := fun a => !(decide (base ≤ a) && decide (a < base + len))
  let left := m.stale.filter (fun r => !(decide (base ≤ r.base) && decide (r.base + r.len ≤ base + len)))
  let meets := left.any (fun r => decide (r.base < base + len) && decide (base < r.base + r.len))
  { cells := m.cells.filter (fun c => out c.1)
    poison := m.poison.filter out
    stale := left
    fresh := if meets then (List.range len).foldl (fun l i => natInsert l (base + i)) m.fresh else m.fresh.filter out }

/-- Marks the bytes of a range as lying under a dead key (R393). -/
def Memory.kill (m : Memory) (base len gen : Nat) : Memory :=
  let out := fun a => !(decide (base ≤ a) && decide (a < base + len))
  { cells := m.cells.filter (fun c => out c.1)
    poison := m.poison.filter out
    stale := { base := base, len := len, gen := gen } ::
      m.stale.filter (fun r => !(decide (base ≤ r.base) && decide (r.base + r.len ≤ base + len)))
    fresh := m.fresh.filter out }

/-- Leaves bytes holding poison (R212). -/
def Memory.spoil (m : Memory) (base : Nat) : Nat → Memory
  | 0 => m
  | n + 1 =>
    let m' := m.spoil base n
    { m' with poison := natInsert m'.poison (base + n) }

/-- The listed bytes of a range, as offsets in it. -/
def Memory.cut (m : Memory) (base len : Nat) : List Host.Cell :=
  (m.cells.filter (fun c => decide (base ≤ c.1) && decide (c.1 < base + len))).map (fun c => (c.1 - base, c.2))

/-- The bytes of a range as they read, other than those that read as an unlisted address does, as offsets in it. -/
def Memory.image (m : Memory) (base len : Nat) : List Host.Cell :=
  if m.stale.any (fun r => decide (r.base < base + len) && decide (base < r.base + r.len)) then
    (List.range len).filterMap (fun i => if m.read (base + i) = unlisted then none else some (i, m.read (base + i)))
  else m.cut base len

/-- Puts listed bytes back into a range that held zeros. -/
def Memory.paste (m : Memory) (base : Nat) (l : List Host.Cell) : Memory :=
  m.writeAt (l.map (fun c => (base + c.1, c.2)))

/-- Copies a range, poison included: the destination then reads as the source does (R177). -/
def Memory.copy (m : Memory) (src dst len : Nat) : Memory :=
  let m1 := (m.scrub dst len).paste dst (m.image src len)
  let bad := m.poison.filter (fun a => decide (src ≤ a) && decide (a < src + len))
  { m1 with poison := bad.foldl (fun l a => natInsert l (dst + (a - src))) m1.poison }

/-- The canonical form of memory: addresses strictly rising, no byte equal to what an unlisted address reads as, and
rising lists of poisoned and rewritten addresses. -/
def Memory.wf (m : Memory) : Bool :=
  spWf m.cells && m.cells.all (fun c => c.2 != unlisted) && natWf m.poison && natWf m.fresh

/-! ## The places of memory -/

/-- The first address of the host window (R127). -/
def hostBase : Nat := 0x080000000000
/-- The first address of FDd's vat (R23). -/
def vatBase (d : Nat) : Nat := 0x010000000000 + d * 0x08000000
/-- Where the model keeps the palette of region `r`; every region reaches it at the palette alias (R23). -/
def palBase (r : Nat) : Nat := 2 ^ 52 + r * 0x200000
/-- The die of a region (R19). -/
def dieOf (r : Nat) : Nat := r / 48

/-! ## Regions and partitions -/

/-- Region `r`. -/
def State.reg (s : State) (r : Nat) : Region := spGet {} s.regs r
/-- Replaces region `r`. -/
def State.setReg (s : State) (r : Nat) (v : Region) : State := { s with regs := spInsert s.regs r v }
/-- Changes region `r`. -/
def State.modReg (s : State) (r : Nat) (f : Region → Region) : State := s.setReg r (f (s.reg r))
/-- Partition `p`, if it exists. -/
def State.part? (s : State) (p : Nat) : Option Part := spFind s.parts p
/-- Replaces partition `p`. -/
def State.setPart (s : State) (p : Nat) (v : Part) : State := { s with parts := spInsert s.parts p v }
/-- Changes partition `p`, if it exists. -/
def State.modPart (s : State) (p : Nat) (f : Part → Part) : State :=
  match s.part? p with
  | some v => s.setPart p (f v)
  | none => s
/-- Changes the package. -/
def State.modPkg (s : State) (f : Pkg → Pkg) : State := { s with pkg := f s.pkg }
/-- Changes memory. -/
def State.modMem (s : State) (f : Memory → Memory) : State := { s with mem := f s.mem }
/-- Changes the sequencer of region `r`. -/
def State.modSeq (s : State) (r : Nat) (f : Seq → Seq) : State :=
  s.modReg r (fun v => { v with seq := f v.seq })
/-- The sequencer whose instruction is executed. -/
def State.seq (s : State) : Seq := (s.reg s.cur).seq
/-- Changes the sequencer whose instruction is executed. -/
def State.mod (s : State) (f : Seq → Seq) : State := s.modSeq s.cur f
/-- The partition whose stage is placed on region `r`. -/
def State.owner (s : State) (r : Nat) : Option Nat := (s.reg r).place.map Placement.part
/-- Sends an interrupt or a reply to the host. -/
def State.emit (s : State) (o : Output) : State := s.modPkg (fun k => { k with out := k.out ++ [o] })

/-! ## Registers -/

/-- Reads a general register: g0 reads as zero (R183). -/
def Seq.gr (q : Seq) (a : BitVec 5) : Word := if a = 0 then 0 else q.g[a.toNat]'(a.isLt)
/-- Writes a general register: a write to g0 is discarded (R183). -/
def Seq.gw (q : Seq) (d : BitVec 5) (v : Word) : Seq :=
  if d = 0 then q else { q with g := q.g.set d.toNat v (d.isLt) }
/-- Reads a predicate: k0 reads as true (R183). -/
def Seq.kr (q : Seq) (a : BitVec 3) : Bool := a == 0 || q.k.getLsbD a.toNat
/-- Writes a predicate: a write to k0 is discarded (R183). -/
def Seq.kw (q : Seq) (d : BitVec 3) (v : Bool) : Seq :=
  if d = 0 then q
  else { q with k := if v then q.k ||| ((1 : BitVec 8) <<< d.toNat) else q.k &&& ~~~((1 : BitVec 8) <<< d.toNat) }
/-- STATUS.mode: true in handler mode (R190). -/
def Seq.handler (q : Seq) : Bool := q.status.getLsbD 0
/-- STATUS.dz (R190). -/
def Seq.dz (q : Seq) : Bool := q.status.getLsbD 1
/-- Sets STATUS.sat (R200). -/
def Seq.setSat (q : Seq) : Seq := { q with status := q.status ||| 4 }
/-- A landing slot. -/
def Seq.slot (q : Seq) (n : BitVec 4) : Slot := q.slots[n.toNat]'(n.isLt)
/-- Replaces a landing slot. -/
def Seq.setSlot (q : Seq) (n : BitVec 4) (v : Slot) : Seq := { q with slots := q.slots.set n.toNat v (n.isLt) }

/-! ## Completing an instruction -/

/-- The sequencer goes to an address, at an instruction boundary (R195). -/
def Seq.goto (q : Seq) (pc : Word) : Seq := { q with pc := pc, run := .boundary, waitFrom := none }
/-- The instruction of `n` bytes completes (R195). -/
def Seq.advance (q : Seq) (n : Nat) : Seq := q.goto (q.pc + BitVec.ofNat 64 n)
/-- The instruction waits: it has no effect and is executed again from its start (R196). -/
def State.wait (s : State) : State :=
  s.mod (fun q => { q with run := .waiting, waitFrom := q.waitFrom.or (some s.tick) })
/-- The fetch is held: nothing is executed yet (R196). -/
def State.fetchHeld (s : State) : State := s.mod (fun q => { q with run := .waiting })
/-- The instruction of `n` bytes completes with no other effect. -/
def State.advance (s : State) (n : Nat) : State := s.mod (fun q => q.advance n)

/-! ## Taking a cause -/

/-- The registers of a delivery (R185). -/
def Seq.deliver (q : Seq) (cause : BitVec 9) (resume first fva finfo : Word) : Seq :=
  { q with epc := resume, iva := first, cause := cause.setWidth 64, fva := fva, finfo := finfo,
           status := q.status ||| 1, pc := q.tvec, run := .boundary, waitFrom := none }

/-- A fatal delivery, or another fatal cause: the partition will be reset (R187, R355). -/
def State.fatal (s : State) (p : Nat) (q : ResetReq) : State :=
  s.modPart p (fun v => { v with reset := v.reset.or (some q), state := .resetting })

/-- HANDLER_NESTED (R187). -/
def causeNested : BitVec 9 := 0x006

/-- Takes a cause at the sequencer of region `r`: into the handler, or fatally in handler mode or with TVEC 0
(R185, R187). -/
def State.deliver (s : State) (r : Nat) (cause : BitVec 9) (resume first fva finfo : Word) : State :=
  let q := (s.reg r).seq
  if q.handler || q.tvec == 0 then
    let s' := s.modSeq r (fun q => { q with run := .halted })
    match s.owner r with
    | none => s'
    | some p => s'.fatal p
        { cause := if q.handler then causeNested else cause, delivered := cause, region := r,
          resume := resume, first := first, fva := fva }
  else s.modSeq r (fun q => q.deliver cause resume first fva finfo)

/-- `Trap(cause)` of the instruction at pc, which resumes at itself (R186). -/
def State.trap (s : State) (cause : BitVec 9) (fva finfo : Word) : State :=
  s.deliver s.cur cause s.seq.pc s.seq.pc fva finfo

/-- A trap that resumes at the next instruction (BRK, TRAP_n; R186). -/
def State.trapNext (s : State) (cause : BitVec 9) (n : Nat) (finfo : Word) : State :=
  s.deliver s.cur cause (s.seq.pc + BitVec.ofNat 64 n) s.seq.pc 0 finfo

/-- eret's return to normal mode (R198). -/
def Seq.eret (q : Seq) : Seq := { q.goto q.epc with status := q.status &&& ~~~(1 : Word) }

/-- Queues a cause at region `r`; a full queue is fatal, and a sequencer that has ended resumes at its end
(R188). -/
def State.queueCause (s : State) (r : Nat) (c : Pend) : State :=
  match s.owner r with
  | none => s
  | some p =>
    let q := (s.reg r).seq
    if q.pending.length ≥ 16 then
      s.fatal p { cause := causeNested, delivered := c.cause, region := r, resume := q.pc, first := q.pc, fva := c.fva }
    else s.modSeq r (fun q => { q with pending := q.pending ++ [c], wake := true })

/-! ## The cause codes (R346) -/

/-- The code of a decode fault (R93). -/
def Cause.lenIllegal : BitVec 9 := 0x000
def Cause.majorIllegal : BitVec 9 := 0x001
def Cause.fnIllegal : BitVec 9 := 0x002
def Cause.fieldReserved : BitVec 9 := 0x003
def Cause.csrIllegal : BitVec 9 := 0x004
def Cause.csrReadonly : BitVec 9 := 0x005
def Cause.eretOutside : BitVec 9 := 0x007
def Cause.divTrap : BitVec 9 := 0x008
def Cause.brk : BitVec 9 := 0x009
def Cause.trap0 : BitVec 9 := 0x010
def Cause.misaligned : BitVec 9 := 0x020
def Cause.orderIllegal : BitVec 9 := 0x021
def Cause.scopeIllegal : BitVec 9 := 0x022
def Cause.paletteRange : BitVec 9 := 0x023
def Cause.foldForeignWrite : BitVec 9 := 0x024
def Cause.hostWindowDenied : BitVec 9 := 0x025
def Cause.landEmpty : BitVec 9 := 0x026
def Cause.landBusy : BitVec 9 := 0x027
def Cause.eccPad : BitVec 9 := 0x030
def Cause.eccPalette : BitVec 9 := 0x031
def Cause.eccVat : BitVec 9 := 0x032
def Cause.eccHbm : BitVec 9 := 0x033
def Cause.fetchS1 : BitVec 9 := 0x040
def Cause.fetchS2 : BitVec 9 := 0x041
def Cause.fetchExecDenied : BitVec 9 := 0x042
def Cause.fetchEcc : BitVec 9 := 0x043
def Cause.blockMagic : BitVec 9 := 0x060
def Cause.opIllegal : BitVec 9 := 0x061
def Cause.routeSrcIllegal : BitVec 9 := 0x062
def Cause.fuseIllegal : BitVec 9 := 0x063
def Cause.periodTooLong : BitVec 9 := 0x064
def Cause.islandOverlap : BitVec 9 := 0x065
def Cause.bankBusy : BitVec 9 := 0x066
def Cause.cellUnavailable : BitVec 9 := 0x067
def Cause.blockMalformed : BitVec 9 := 0x068
def Cause.cfgNoBlock : BitVec 9 := 0x069
def Cause.cfgOperandRange : BitVec 9 := 0x06A
def Cause.roundOutboundFull : BitVec 9 := 0x06B
def Cause.strmModeIllegal : BitVec 9 := 0x080
def Cause.strmBindingBusy : BitVec 9 := 0x081
def Cause.strmNotOpen : BitVec 9 := 0x082
def Cause.strmCounterZero : BitVec 9 := 0x083
def Cause.chnCorrupt : BitVec 9 := 0x084
def Cause.strmBarMask : BitVec 9 := 0x085
def Cause.strmPosRange : BitVec 9 := 0x086
def Cause.copyTierIllegal : BitVec 9 := 0x087
def Cause.copyRegionIllegal : BitVec 9 := 0x088
def Cause.chnRange : BitVec 9 := 0x089
def Cause.chnNotOpen : BitVec 9 := 0x08A
def Cause.satSticky : BitVec 9 := 0x0A0
def Cause.snan : BitVec 9 := 0x0A1
def Cause.tagBindConflict : BitVec 9 := 0x0C0
def Cause.tagCountUnderflow : BitVec 9 := 0x0C1
def Cause.tagRemoteDenied : BitVec 9 := 0x0C2
def Cause.foldNoWindow : BitVec 9 := 0x0C3
def Cause.foldExactFull : BitVec 9 := 0x0C4
def Cause.s1Invalid : BitVec 9 := 0x0E0
def Cause.s1WriteDenied : BitVec 9 := 0x0E1
def Cause.s2Fault : BitVec 9 := 0x0E2
def Cause.s2WalkFault : BitVec 9 := 0x0E3
def Cause.s2Abort : BitVec 9 := 0x0E4
def Cause.collapse : BitVec 9 := 0x0E5
def Cause.remotePage : BitVec 9 := 0x0E6
def Cause.keyMismatch : BitVec 9 := 0x100
def Cause.rankUnmapped : BitVec 9 := 0x101
def Cause.poisonReceived : BitVec 9 := 0x120
def Cause.orphanReturn : BitVec 9 := 0x121
def Cause.neighbourIsolated : BitVec 9 := 0x140
def Cause.selfIsolated : BitVec 9 := 0x141
def Cause.thermalTrip : BitVec 9 := 0x142
def Cause.queueCorrupt : BitVec 9 := 0x160
def Cause.gateTimeout : BitVec 9 := 0x161
def Cause.saveDeadlineMissed : BitVec 9 := 0x162
def Cause.launchFull : BitVec 9 := 0x163
def Cause.graphMalformed : BitVec 9 := 0x164
def Cause.frameBusy : BitVec 9 := 0x165
def Cause.packetMalformed : BitVec 9 := 0x166
def Cause.dieUnavailable : BitVec 9 := 0x167
def Cause.saveAreaFault : BitVec 9 := 0x168

/-! ## Metering and time -/

/-- The regions that are present: fused in, on a die that passed measurement (R32). -/
def State.presentDie (s : State) (d : Nat) : Bool := !(s.pkg.measured.contains (d, false))

/-- Ticks in a millisecond (R4). -/
def ticksPerMs : Nat := 1000000

/-- The place of a die's counts in a 1 ms window, by the number of the window (R149). -/
def meterKey (window die : Nat) : Nat := 4 * window + die

/-- Adds to the counters that a die's meter block keeps for a partition in a 1 ms window (R149, R150). -/
def State.meterIn (s : State) (p window d : Nat) (f : Counters → Counters) : State :=
  let k := meterKey window d
  s.modPart p (fun v => { v with meter := { v.meter with pend := spInsert v.meter.pend k (f (spGet {} v.meter.pend k)) } })

/-- Adds to the counters of the window that runs (R149, R150). -/
def State.meter (s : State) (p d : Nat) (f : Counters → Counters) : State := s.meterIn p (s.tick / ticksPerMs) d f

/-- Counts the residence of a partition on a region of a die from one tick to another, each window's part in that window (R149, R150). -/
def State.meterResid (s : State) (p d t0 t1 : Nat) : State :=
  (List.range (t1 / ticksPerMs + 1 - t0 / ticksPerMs)).foldl (fun (st : State) (i : Nat) =>
    let w := t0 / ticksPerMs + i
    let n := Nat.min t1 ((w + 1) * ticksPerMs) - Nat.max t0 (w * ticksPerMs)
    st.meterIn p w d (fun c => { c with resid := c.resid + BitVec.ofNat 64 n })) s

/-- Counts bytes read or written at a physical address: HBM controllers and vat banks (R150). -/
def State.countBytes (s : State) (p pa n : Nat) : State :=
  if pa < 2 ^ 39 then s.meter p (pa / 2 ^ 37 % 4) (fun c => { c with hbm := c.hbm + BitVec.ofNat 64 n })
  else if vatBase 0 ≤ pa ∧ pa < vatBase 4 then
    s.meter p ((pa - vatBase 0) / 0x08000000) (fun c => { c with vat := c.vat + BitVec.ofNat 64 n })
  else s

end Sys2Proof.Machine
end

