-- ==== Sys2Proof/Machine/Xlat.lean ====
section
/-!
DEFINITION. Addresses and accesses: the tier window (R280, R281), stage 1 (R161 to R165), the stage-2 array (R166,
R167), replicas, collapses and remote pages as an access meets them (R177, R178, R180), and the reads and writes that
every unit makes through them.
-/
namespace Sys2Proof.Machine

/-- The party that makes an access: its partition, its region if it has one, its unit code of R168, and whether it
owns the fold window it writes. -/
structure Who where
  part : Nat
  region : Option Nat
  unit : Nat
  owner : Bool := false
  deriving DecidableEq, Repr

/-- The kinds of access (R163, R168). -/
inductive AKind
  | read | write | fetch
  deriving DecidableEq, Repr

/-- The outcome of an access: done, a cause with the address it concerns, or held until another agent has acted
(R167, R178, R180). -/
inductive Got (α : Type)
  | ok (a : α)
  | fault (cause : BitVec 9) (va : Nat)
  | held
  deriving DecidableEq, Repr

/-! ## The tier window -/

/-- What a virtual address names before any translation (R280). -/
inductive Tier
  | palette (off : Nat)
  | vat (die off : Nat)
  | rank (n off : Nat)
  | fault (cause : BitVec 9)
  | mapped
  deriving DecidableEq, Repr

/-- Whether an address lies in the tier window (R280). -/
def inTierWindow (va : Nat) : Bool := decide (0xFF0000000000 ≤ va) && decide (va < 2 ^ 48)

/-- The tier window's decoding (R280). -/
def tierOf (va : Nat) : Tier :=
  if inTierWindow va then
    if va < 0xFF0000200000 then .palette (va - 0xFF0000000000)
    else if va < 0xFF1000000000 then .fault Cause.paletteRange
    else if va < 0xFF1020000000 then .vat ((va - 0xFF1000000000) / 0x08000000) ((va - 0xFF1000000000) % 0x08000000)
    else if 0xFF2000000000 ≤ va ∧ va < 0xFF2080000000 then
      .rank ((va - 0xFF2000000000) / 0x200000) ((va - 0xFF2000000000) % 0x200000)
    else .fault Cause.s1Invalid
  else .mapped

/-- Whether a partition reaches a vat byte: the slice belongs to one of its regions (R281). -/
def reachesVat (p : Part) (die off : Nat) : Bool :=
  let j := off / 2 ^ 21
  decide (j < 48) && p.regions.getLsbD (48 * die + j)

/-! ## Physical memory -/

/-- Whether a physical address is populated (R23, R32, R34). -/
def State.populated (s : State) (pa : Nat) : Bool :=
  if pa < 2 ^ 39 then
    s.presentDie (pa / 2 ^ 37) && s.pkg.fusedStacks.getLsbD (pa / 2 ^ 36) && !(s.pkg.mappedOut.contains (pa / 2 ^ 30))
  else
    (decide (vatBase 0 ≤ pa) && decide (pa < vatBase 4)) || (decide (hostBase ≤ pa) && decide (pa < hostBase + 2 ^ 46)) ||
      (decide (palBase 0 ≤ pa) && decide (pa < palBase 192))

/-- The ECC cause of the tier that holds an address; unpopulated addresses report ECC_HBM (R34, R212). -/
def eccOf (pa : Nat) : BitVec 9 :=
  if palBase 0 ≤ pa then Cause.eccPalette
  else if vatBase 0 ≤ pa ∧ pa < vatBase 4 then Cause.eccVat
  else Cause.eccHbm

/-- Whether a physical address belongs to the host (R127). -/
def isHost (pa : Nat) : Bool := decide (hostBase ≤ pa) && decide (pa < hostBase + 2 ^ 46)

/-- Whether `n` bytes from a physical address hold poison (R34, R212). -/
def State.poisoned (s : State) (pa n : Nat) : Bool :=
  !(s.populated pa) || s.mem.poison.any (fun a => decide (pa ≤ a) && decide (a < pa + n))

/-- Whether the host's access control refuses an access to `n` bytes from a host physical address (R127, log 13). -/
def State.hostRefuses (s : State) (a n : Nat) : Bool := s.pkg.denied.any (fun d => decide (0 < d.2) && decide (d.1 < a + n) && decide (a < d.1 + d.2))

/-- What stands against an access at a physical address: a host refusal, or poison for a read (R127, R212). -/
def State.physFault (s : State) (pa n : Nat) (k : AKind) : Option (BitVec 9) :=
  if isHost pa && s.hostRefuses (pa - hostBase) n then some Cause.hostWindowDenied
  else if k != .write && s.poisoned pa n then some (eccOf pa)
  else if k == .write && !(s.populated pa) then some Cause.eccHbm
  else none

/-- The number held little-endian in `n` bytes of memory (R5). -/
def State.readPhys (s : State) (pa n : Nat) : Nat := ofBytes (s.mem.readN n pa)
/-- Writes a number little-endian into `n` bytes of memory (R5). -/
def State.writePhys (s : State) (pa n v : Nat) : State := s.modMem (fun m => m.writeN pa (toBytes n v))

/-! ## Stage 2 -/

/-- The stage-2 entry of a guest physical address, if the array has one (R166). -/
def State.s2Entry (s : State) (p : Part) (gpa : Nat) : Nat :=
  if gpa / 2 ^ 21 < p.entries then s.readPhys (p.s2 + 8 * (gpa / 2 ^ 21)) 8 else 0

/-- What stage 2 makes of an access (R166, R167, R180). -/
inductive S2
  | ok (pa : Nat) (write exec : Bool) (key home : Nat)
  | fault
  | ecc (cause : BitVec 9)
  | remote (gframe : Nat)
  deriving DecidableEq, Repr

/-- What stands against the read of a stage-2 entry: the array is read as any memory, so an entry in an unpopulated or
mapped-out range, or one that holds poison, gives the tier's ECC cause (R23, R34). -/
def State.s2Fault (s : State) (p : Part) (gpa : Nat) : Option (BitVec 9) :=
  if gpa / 2 ^ 21 < p.entries then s.physFault (p.s2 + 8 * (gpa / 2 ^ 21)) 8 .read else none

/-- Stage 2 for a guest physical address (R166). -/
def State.stage2 (s : State) (p : Part) (gpa : Nat) : S2 :=
  match s.s2Fault p gpa with
  | some c => .ecc c
  | none =>
    let e := s.s2Entry p gpa
    match e / 2 ^ 62 % 4 with
    | 1 => .ok (e / 2 ^ 21 % 2 ^ 31 * 2 ^ 21 + gpa % 2 ^ 21) (e.testBit 8) (e.testBit 7) (e / 2 ^ 9 % 2 ^ 12) (e / 2 ^ 5 % 4)
    | 2 => .remote (gpa / 2 ^ 21)
    | _ => .fault

/-! ## Stage 1 -/

/-- The outcome of a walk (R163, R167, R180). -/
inductive Walk
  | ok (x : Xlate)
  | fault (cause : BitVec 9)
  | stage2 (cause : BitVec 9) (level gpa : Nat)
  | remote (gframe level gpa : Nat)
  deriving DecidableEq, Repr

/-- The page size of a leaf: 1 GiB, 2 MiB, 64 KiB or 4 KiB (R161). -/
def leafSize (level : Nat) (contig : Bool) : Nat :=
  if level = 1 then 2 ^ 30 else if level = 2 then 2 ^ 21 else if contig then 2 ^ 16 else 2 ^ 12

/-- Whether a valid stage-1 entry is well formed at its level (R162, R163). -/
def entryOk (level e : Nat) : Bool :=
  let leaf := e.testBit 1
  let contig := e.testBit 5
  decide (e / 2 ^ 6 % 2 ^ 6 = 0) && decide (e / 2 ^ 42 = 0) && !(leaf && level == 0) && !(!leaf && level == 3) &&
    (leaf || decide (e / 2 ^ 2 % 2 ^ 4 = 0)) && !(contig && level != 3) &&
    (!leaf || decide (e % 2 ^ 42 / 2 ^ 12 * 2 ^ 12 % leafSize level contig = 0))

/-- The translation that a leaf gives for a VA, in pieces of at most 2 MiB (R161, R164, R170); the final stage-2
lookup decides its physical page (R166). -/
def State.leafXlate (s : State) (p : Part) (pn va level e leafPa : Nat) : Walk :=
  let contig := e.testBit 5
  let full := leafSize level contig
  let size := Nat.min full (2 ^ 21)
  let gpage := e % 2 ^ 42 / 2 ^ 12 * 2 ^ 12
  let gpa := gpage + va % full
  match s.stage2 p gpa with
  | .fault => .stage2 Cause.s2Fault 255 gpa
  | .ecc c => .fault c
  | .remote f => .remote f 255 gpa
  | .ok pa w x key home =>
    .ok { part := pn, va := va / size * size, size := size, pa := pa - va % size, write := e.testBit 2, exec := e.testBit 3,
          write2 := w, exec2 := x, rep := e.testBit 4, key := key, home := home, gpa := gpa - va % size, fine := level == 3
          leaf := leafPa - 8 * (if level = 3 then va % size / 2 ^ 12 else 0) }

/-- The entry of a contig group that a translation uses: its own, or any of the group where they differ (R164). -/
def State.contigEntry (s : State) (pa e : Nat) : Nat :=
  let base := pa / 128 * 128
  let all := (List.range 16).map (fun i => s.readPhys (base + 8 * i) 8)
  if all.all (fun x => x == e) then e else all.getD (Config.freeNat s.steps pa % 16) e

/-- The walk from a level's table (R161 to R164); the first number counts the levels that remain. DESIGN CHOICE (log 110):
the reads of stage-1 tables and of the stage-2 array are no data bytes of R150's hbm counter. -/
def State.walkFrom (s : State) (p : Part) (pn va : Nat) (kind : AKind) : Nat → Nat → Walk
  | 0, _ => .fault Cause.s1Invalid
  | n + 1, table =>
    let level := 3 - n
    let egpa := table + 8 * (va / 2 ^ (12 + 9 * n) % 512)
    match s.stage2 p egpa with
    | .fault => .stage2 Cause.s2WalkFault level egpa
    | .ecc c => .fault c
    | .remote f => .remote f level egpa
    | .ok pa _ _ _ _ =>
      match s.physFault pa 8 .read with
      | some c => .fault c
      | none =>
        let e0 := s.readPhys pa 8
        if !(e0.testBit 0) || !(entryOk level e0) then .fault Cause.s1Invalid
        else if e0.testBit 1 then
          let e := if e0.testBit 5 then s.contigEntry pa e0 else e0
          if !(e.testBit 0) || !(entryOk level e) || !(e.testBit 1) then .fault Cause.s1Invalid
          else if kind == .write && !(e.testBit 2) then .fault Cause.s1WriteDenied
          else if kind == .fetch && !(e.testBit 3) then .fault Cause.fetchExecDenied
          else s.leafXlate p pn va level e pa
        else s.walkFrom p pn va kind n (e0 % 2 ^ 42 / 2 ^ 12 * 2 ^ 12)

/-- The walk of a VA (R161): bits [63:48] must be zero. -/
def State.walk (s : State) (p : Part) (pn va : Nat) (kind : AKind) : Walk :=
  if 2 ^ 48 ≤ va then .fault Cause.s1Invalid else s.walkFrom p pn va kind 4 p.s1root

/-- The leaf that maps a VA of a translation (R178). -/
def Xlate.leafAt (x : Xlate) (va : Nat) : Nat := if x.fine then x.leaf + 8 * ((va - x.va) / 2 ^ 12) else x.leaf

/-! ## Extents (R170) -/

/-- Whether two translations belong in one extent: leaves of one level-3 table whose GPAs are contiguous within a stage-2
frame, with equal permissions and rep bits (R170). -/
def Xlate.joins (x y : Xlate) : Bool :=
  x.fine && y.fine && x.va / 2 ^ 21 == y.va / 2 ^ 21 && x.gpa / 2 ^ 21 == y.gpa / 2 ^ 21 && x.gpa + y.va == y.gpa + x.va &&
    x.write == y.write && x.exec == y.exec && x.rep == y.rep

/-- Adds the leaves that follow an extent; the first number bounds how many. -/
def State.growUp (s : State) (p : Part) : Nat → Xlate → Xlate
  | 0, x => x
  | n + 1, x =>
    match s.walk p x.part (x.va + x.size) .read with
    | .ok y => if y.va = x.va + x.size ∧ x.joins y then s.growUp p n { x with size := x.size + y.size } else x
    | _ => x

/-- Adds the leaves that come before an extent; the first number bounds how many. -/
def State.growDown (s : State) (p : Part) : Nat → Xlate → Xlate
  | 0, x => x
  | n + 1, x =>
    if x.va = 0 then x
    else match s.walk p x.part (x.va - 1) .read with
    | .ok y =>
      if y.va + y.size = x.va ∧ x.joins y then
        s.growDown p n { x with va := y.va, size := y.size + x.size, pa := y.pa, gpa := y.gpa, leaf := y.leaf }
      else x
    | _ => x

/-- The extent that the loader makes of a translation: with the adjacent leaves of its level-3 table (R170). -/
def State.extentOf (s : State) (p : Part) (x : Xlate) : Xlate :=
  if x.fine then s.growDown p 512 (s.growUp p 512 x) else x

/-! ## Stage-2 faults that a unit holds -/

/-- The 64 bytes of a fault record (R168); `extra` gives bytes 0x1A on for a reset record (R357). -/
def faultBytes (f : FaultRec) (deliv resume first : Nat) : List Byte :=
  toBytes 4 f.num ++ toBytes 2 f.cause ++ toBytes 1 f.level ++ toBytes 1 f.access ++ toBytes 8 f.va ++ toBytes 8 f.gpa ++
    toBytes 1 f.region ++ toBytes 1 f.unit ++ toBytes 2 deliv ++ toBytes 4 0 ++ toBytes 8 f.tick ++ toBytes 8 resume ++
    toBytes 8 first ++ toBytes 8 0

/-- Writes a record into the next slot of a partition's fault ring, then the count (R168); its addresses are host
physical addresses (R135). A ring that the host refuses is not written (R127, log 13). -/
def State.ringWrite (s : State) (p : Nat) (bytes : List Byte) : State :=
  match s.part? p with
  | none => s
  | some v =>
    let base := hostBase + v.meter.faultRing
    let slot := 64 + 256 * v.meter.ringn + 64 * (v.faultCount % 64)
    let s1 := if s.hostRefuses (v.meter.faultRing + slot) 64 || s.hostRefuses (v.meter.faultRing + 8) 8 then s
      else s.modMem (fun m => (m.writeN (base + slot) bytes).writeN (base + 8) (toBytes 8 (v.faultCount + 1)))
    s1.setPart p { v with faultCount := v.faultCount + 1 }

/-- The fault that a unit holds for an access at a VA. -/
def State.faultAt (s : State) (w : Who) (va : Nat) : Option FaultRec :=
  match s.part? w.part with
  | none => none
  | some v => v.faults.find? (fun f => f.region == w.region.getD 255 && f.unit == w.unit && f.va == va && !f.bg)

/-- An access whose fault has not been answered stays held, whatever the translation now is; an answer of abort reaches it
once (R167). -/
def State.awaitAnswer (s : State) (w : Who) (f : FaultRec) : State × Got Nat :=
  if f.answer = .abort then
    (s.modPart w.part (fun v => { v with faults := v.faults.filter (fun g => g.num != f.num) }), .fault Cause.s2Abort f.va)
  else (s, .held)

/-- A unit meets a stage-2 fault: a record is written and the host is told, unless 64 faults are unanswered (R167). -/
def State.holdFault (s : State) (w : Who) (cause : BitVec 9) (level access va gpa : Nat) : State × Got Nat :=
  match s.part? w.part with
  | none => (s, .held)
  | some v =>
    if 64 ≤ (v.faults.filter (fun f => f.answer == .pending)).length then (s, .held)
    else
      let f : FaultRec := { num := v.nextFault, cause := cause.toNat, level := level, access := access, va := va,
                            gpa := gpa, region := w.region.getD 255, unit := w.unit, tick := s.tick }
      let s1 := s.setPart w.part { v with faults := v.faults ++ [f], nextFault := v.nextFault + 1 }
      ((s1.ringWrite w.part (faultBytes f 0 0 0)).emit (.interrupt (2048 + w.part)), .held)

/-- How a command that pauses as a whole at a stage-2 fault stands: it goes on, it waits for the answer, or it has been
aborted at a VA (R167). -/
inductive Paused
  | go
  | wait
  | abort (va : Nat)
  deriving DecidableEq, Repr

/-- The answer to the fault at which a command is paused; an answer of abort is taken once. -/
def State.pauseAt (s : State) (p : Nat) (fault : Option Nat) : State × Paused :=
  match fault, s.part? p with
  | some n, some v =>
    match v.faults.find? (fun f => f.num == n) with
    | none => (s, .go)
    | some f =>
      if f.answer = .abort then (s.setPart p { v with faults := v.faults.filter (fun g => g.num != n) }, .abort f.va)
      else (s, .wait)
  | _, _ => (s, .go)

/-- The fault that an access has raised: `s1` is the state it left. -/
def State.raised (s s1 : State) (p : Nat) : Option Nat :=
  match s.part? p, s1.part? p with
  | some v, some w => if v.nextFault < w.nextFault then some v.nextFault else none
  | _, _ => none

/-- Whether an operation does what another already does: one pull serves every access to its frame (R180). -/
def InvOp.covers (a b : InvOp) : Bool :=
  match a, b with
  | .pull f _, .pull g _ => f == g
  | .replica f d _ _, .replica g e _ _ => f == g && d == e
  | _, _ => a == b

/-- A pull that has come to the head of the invalidation sequencer is sent to the source's package, with the ticket's session (R175, R180,
R181). -/
def State.invStart (s : State) (p : Nat) : State :=
  match s.part? p with
  | none => s
  | some v =>
    match v.invq, v.migration with
    | .pull g none :: l, some m => (s.setPart p { v with invq := .pull g (some s.tick) :: l }).emit (.pull m.peer m.session g)
    | _, _ => s

/-- The pull in a partition's invalidation sequencer that no access waits for, if one is there (R181). -/
def Part.backPull (v : Part) : List InvOp :=
  match v.pulling with
  | some (g, t) => v.invq.filter (fun o => o == .pull g (some t))
  | none => []

/-- A pull of a frame is no longer one that no access waits for (R180, R181). -/
def Part.claimPull (v : Part) (gframe : Nat) : Part := { v with pulling := if v.pulling.map Prod.fst = some gframe then none else v.pulling }

/-- Puts an operation into a partition's invalidation sequencer, unless it already waits there; an access that asks for a frame that is
being pulled waits for that pull (R175, R180). -/
def State.invQueue (s : State) (p : Nat) (o : InvOp) : State :=
  (s.modPart p (fun v =>
    if v.invq.any (fun a => a.covers o) then match o with | .pull g _ => v.claimPull g | _ => v
    else { v with invq := v.invq ++ [o] })).invStart p

/-! ## An access -/

/-- Whether an address range meets a fold window of a partition (R330). -/
def inWindow (p : Part) (va n : Nat) : Bool :=
  p.windows.any (fun w => decide (va < w.va + 2 ^ w.log2) && decide (w.va < va + n))

/-- The cached translation of a VA in a list. -/
def findXlate (l : List Xlate) (pn va : Nat) : Option Xlate :=
  l.find? (fun x => x.part == pn && decide (x.va ≤ va) && decide (va < x.va + x.size))

/-- Puts a translation first in a cache of `n` entries (R172: replaced least recently used). -/
def cacheXlate (l : List Xlate) (x : Xlate) (n : Nat) : List Xlate :=
  (x :: l.filter (fun y => !(y.part == x.part && y.va == x.va && y.size == x.size))).take n

/-- The frame of a physical address. -/
def frameOf (pa : Nat) : Nat := pa / 2 ^ 21 * 2 ^ 21

/-- The replica of a frame that a partition has on a die (R177). -/
def State.replica? (s : State) (p frame d : Nat) : Option Replica :=
  s.pkg.replicas.find? (fun q => q.part == p && q.frame == frame && q.die == d)

/-- Whether a read needs a replica that is still to be created: it goes through a leaf with rep 1 to a local HBM frame that is
not collapsed, whose home is another die, and no replica stands on the reader's die nor has been given up there (R177). -/
def State.wantsReplica (s : State) (w : Who) (x : Xlate) (va : Nat) (kind : AKind) : Bool :=
  match w.region with
  | none => false
  | some r =>
    let pa := x.pa + (va - x.va)
    let f := frameOf pa
    kind == .read && x.rep && decide (pa < 2 ^ 39) && x.home != dieOf r &&
      !((((s.part? w.part).map Part.collapsed).getD []).contains f) &&
      (s.replica? w.part f (dieOf r)).isNone && !(s.pkg.noReplica.contains (f, dieOf r))

/-- What an access makes of a translation: permissions, then collapse and replication: a write through rep or into a
replicated frame waits for a collapse, and a read through rep on a die that is not the frame's home goes to the replica
there, which is created first (R163, R167, R177, R178). -/
def State.useXlate (s : State) (w : Who) (x : Xlate) (va : Nat) (kind : AKind) : State × Got Nat :=
  let pa := x.pa + (va - x.va)
  let gpa := x.gpa + (va - x.va)
  match s.faultAt w va with
  | some f => s.awaitAnswer w f
  | none =>
  if kind == .write && !x.write then (s, .fault Cause.s1WriteDenied va)
  else if kind == .fetch && !x.exec then (s, .fault Cause.fetchExecDenied va)
  else if (kind == .write && !x.write2) || (kind == .fetch && !x.exec2) then
    s.holdFault w Cause.s2Fault 255 (match kind with | .read => 0 | .write => 1 | .fetch => 2) va gpa
  else
    let f := frameOf pa
    let replicated := s.pkg.replicas.any (fun r => r.part == w.part && r.frame == f)
    if kind == .write && (x.rep || replicated) then
      (s.invQueue w.part (.collapse f (if x.rep then some (x.leafAt va) else none)), .held)
    else
      match w.region with
      | none => (s, .ok pa)
      | some r =>
        if s.wantsReplica w x va kind then (s.invQueue w.part (.replica f (dieOf r) r w.unit), .held)
        else match s.replica? w.part f (dieOf r) with
          | some q => (s, .ok (if kind == .read && x.rep then q.pool + pa % 2 ^ 21 else pa))
          | none => (s, .ok pa)

/-- A translation that an access uses stands first in its region's cache (R172). -/
def State.useCache (s : State) (w : Who) (x : Xlate) : State :=
  match w.region with
  | some r => s.modReg r (fun g => { g with tlb := cacheXlate g.tlb x 512 })
  | none => s

/-- The access code of a fault record (R168). -/
def AKind.code : AKind → Nat
  | .read => 0
  | .write => 1
  | .fetch => 2

/-- The translation of a VA outside the tier window: from the region's cache, or from a walk that fills it; the latest
used stands first (R172, R173). A frame whose pull has failed is a stage-2 fault of the walk's read or of the access
(R182). -/
def State.xlateFor (s : State) (w : Who) (va : Nat) (kind : AKind) : State × Got Xlate :=
  match s.part? w.part with
  | none => (s, .fault Cause.s1Invalid va)
  | some v =>
    let cached := match w.region with | some r => findXlate (s.reg r).tlb w.part va | none => none
    let up := fun (y : State × Got Nat) => match y with
      | (s1, .fault c a) => ((s1, .fault c a) : State × Got Xlate)
      | (s1, _) => (s1, .held)
    match s.faultAt w va, cached with
    | some f, _ => up (s.awaitAnswer w f)
    | none, some x => (s.useCache w x, .ok x)
    | none, none =>
      match s.walk v w.part va kind with
      | .fault c => (s, .fault c va)
      | .stage2 c l g => up (s.holdFault w c l (if c = Cause.s2WalkFault then 3 else kind.code) va g)
      | .remote f l g =>
        if f ∈ v.failedPulls then up (s.holdFault w Cause.remotePage l (if l = 255 then kind.code else 3) va g)
        else (s.invQueue w.part (.pull f none), .held)
      | .ok x => (s.useCache w x, .ok x)

/-- The physical address that a party's access at a VA reaches (R172, R173, R280). -/
def State.reach (s : State) (w : Who) (va : Nat) (kind : AKind) : State × Got Nat :=
  match s.part? w.part with
  | none => (s, .fault Cause.s1Invalid va)
  | some v =>
    match tierOf va with
    | .palette off =>
      if kind = .fetch then (s, .fault Cause.s1Invalid va)
      else match w.region with
        | some r => (s, .ok (palBase r + off))
        | none => (s, .fault Cause.s1Invalid va)
    | .vat d off =>
      if kind ≠ .fetch ∧ reachesVat v d off then (s, .ok (vatBase d + off)) else (s, .fault Cause.s1Invalid va)
    | .rank _ _ => (s, .fault Cause.s1Invalid va)
    | .fault c => (s, .fault (if kind = .fetch ∨ w.region = none then Cause.s1Invalid else c) va)
    | .mapped =>
      match s.xlateFor w va kind with
      | (s1, .ok x) => s1.useXlate w x va kind
      | (s1, .fault c a) => (s1, .fault c a)
      | (s1, .held) => (s1, .held)

/-- Reads `n` bytes within one page (R212). -/
def State.readPage (s : State) (w : Who) (va n : Nat) : State × Got (List Byte) :=
  match s.reach w va .read with
  | (s1, .fault c a) => (s1, .fault c a)
  | (s1, .held) => (s1, .held)
  | (s1, .ok pa) =>
    match s1.physFault pa n .read with
    | some c => (s1, .fault c va)
    | none => (s1.countBytes w.part pa n, .ok (s1.mem.readN n pa))

/-- The bytes of a range that lie in its first 4 KiB page. -/
def firstPage (va n : Nat) : Nat := Nat.min n (4096 - va % 4096)

/-- Reads `n` bytes, at most a page long, that may cross one page boundary. -/
def State.readVA (s : State) (w : Who) (va n : Nat) : State × Got (List Byte) :=
  let m := firstPage va n
  match s.readPage w va m with
  | (s1, .ok bs) =>
    if m = n then (s1, .ok bs)
    else match s1.readPage w (va + m) (n - m) with
      | (s2, .ok cs) => (s2, .ok (bs ++ cs))
      | r => r
  | r => r

/-- Writes bytes within one page (R212). -/
def State.writePage (s : State) (w : Who) (va : Nat) (bs : List Byte) : State × Got Unit :=
  match s.reach w va .write with
  | (s1, .fault c a) => (s1, .fault c a)
  | (s1, .held) => (s1, .held)
  | (s1, .ok pa) =>
    match s1.physFault pa bs.length .write with
    | some c => (s1, .fault c va)
    | none => ((s1.countBytes w.part pa bs.length).modMem (fun m => m.writeN pa bs), .ok ())

/-- Writes bytes, at most a page of them; a range that crosses a page boundary is written only when both pages can
be. A write into a fold window is its owner's alone (R330). -/
def State.writeVA (s : State) (w : Who) (va : Nat) (bs : List Byte) : State × Got Unit :=
  if !w.owner && (match s.part? w.part with | some v => inWindow v va bs.length | none => false) then
    (s, .fault Cause.foldForeignWrite va)
  else
    let m := firstPage va bs.length
    if m = bs.length then s.writePage w va bs
    else match s.reach w (va + m) .write with
      | (s1, .ok pa) =>
        match s1.physFault pa (bs.length - m) .write with
        | some c => (s1, .fault c (va + m))
        | none =>
          match s1.writePage w va (bs.take m) with
          | (s2, .ok ()) => s2.writePage w (va + m) (bs.drop m)
          | r => r
      | (s1, .fault c a) => (s1, .fault c a)
      | (s1, .held) => (s1, .held)

/-- Reads a number. -/
def State.readNum (s : State) (w : Who) (va n : Nat) : State × Got Nat :=
  match s.readVA w va n with
  | (s1, .ok bs) => (s1, .ok (ofBytes bs))
  | (s1, .fault c a) => (s1, .fault c a)
  | (s1, .held) => (s1, .held)

/-- Writes a number. -/
def State.writeNum (s : State) (w : Who) (va n v : Nat) : State × Got Unit := s.writeVA w va (toBytes n v)

/-- Reads `k` pieces of `n` bytes from an address up, for the structures that a unit reads whole. -/
def State.readMany (s : State) (w : Who) (n : Nat) : Nat → Nat → State × Got (List Byte)
  | 0, _ => (s, .ok [])
  | k + 1, va =>
    match s.readVA w va n with
    | (s1, .ok bs) =>
      match s1.readMany w n k (va + n) with
      | (s2, .ok cs) => (s2, .ok (bs ++ cs))
      | r => r
    | r => r

/-- Writes bytes in pieces of 64, in rising order. -/
def State.writeMany (s : State) (w : Who) : Nat → Nat → List Byte → State × Got Unit
  | 0, _, _ => (s, .ok ())
  | k + 1, va, bs =>
    if bs.isEmpty then (s, .ok ())
    else match s.writeVA w va (bs.take 64) with
      | (s1, .ok ()) => s1.writeMany w k (va + 64) (bs.drop 64)
      | r => r

/-- What stands against writing `n` bytes within one page: nothing is written. -/
def State.canWritePage (s : State) (w : Who) (va n : Nat) : State × Got Unit :=
  if !w.owner && (match s.part? w.part with | some v => inWindow v va n | none => false) then (s, .fault Cause.foldForeignWrite va)
  else match s.reach w va .write with
    | (s1, .ok pa) =>
      match s1.physFault pa n .write with
      | some c => (s1, .fault c va)
      | none => (s1, .ok ())
    | (s1, .fault c a) => (s1, .fault c a)
    | (s1, .held) => (s1, .held)

/-- What stands against writing `n` bytes from an address up, page by page. -/
def State.canWrite (s : State) (w : Who) : Nat → Nat → Nat → State × Got Unit
  | 0, _, _ => (s, .ok ())
  | k + 1, va, n =>
    if n = 0 then (s, .ok ())
    else match s.canWritePage w va (firstPage va n) with
      | (s1, .ok ()) => s1.canWrite w k (va + firstPage va n) (n - firstPage va n)
      | r => r

/-- Writes bytes in pieces of 64, in rising order, once all of them can be written: a hold or a fault leaves memory as it is. -/
def State.writeWhole (s : State) (w : Who) (va : Nat) (bs : List Byte) : State × Got Unit :=
  match s.canWrite w (bs.length / 4096 + 2) va bs.length with
  | (s1, .ok ()) => s1.writeMany w (bs.length / 64 + 1) va bs
  | r => r

/-! ## The sequencer's party -/

/-- The sequencer of region `r` as a party of the partition that is placed there. -/
def State.seqWho (s : State) (r : Nat) : Who := { part := (s.owner r).getD 48, region := some r, unit := 255 }

/-- Number in `n` bytes of a list from an offset. -/
def numAt (bs : List Byte) (off n : Nat) : Nat := ofBytes ((bs.drop off).take n)

end Sys2Proof.Machine
end

