-- ==== Sys2Proof/Machine/Operands.lean ====
section
/-!
DEFINITION. The operand forms of the sequencer: guards (R94), lead words (R186), effective addresses (R211), the
identity word (R199), the control registers as numbered places (R189, R190), and the waiting rules that operands of
several instructions share (R196, R326, R333).
-/
namespace Sys2Proof.Machine

/-- What executing an instruction answers. -/
abbrev Out := Host.Outcome State Fault Refusal

/-- The lead word of an instruction, as FINFO holds it (R186). -/
def leadOf (i : Instr) : Word := ((encode i).headD 0).setWidth 64

/-- An instruction of `n` bytes with a guard: a false guard leaves everything as it is (R94). -/
def State.guarded (s : State) (k : BitVec 3) (n : Nat) (f : State → Out) : Out :=
  if s.seq.kr k then f s else .next (s.advance n)

/-- An instruction that writes one general register and completes. -/
def State.setG (s : State) (d : BitVec 5) (v : Word) (n : Nat) : State := s.mod (fun q => (q.gw d v).advance n)

/-- An instruction that writes one predicate and completes. -/
def State.setK (s : State) (d : BitVec 3) (v : Bool) (n : Nat) : State := s.mod (fun q => (q.kw d v).advance n)

/-- The sum of a register and an offset on unbounded integers (R8), as a number that is right modulo 2^64. DEDUCED (log 91): a sum below 0 is
a number past 2^64, which is no VA (R161) and no position (R286). -/
def exactSum (x : Word) (off : Int) : Nat := if 0 ≤ (x.toNat : Int) + off then ((x.toNat : Int) + off).toNat else ((x.toNat : Int) + off + 2 ^ 65).toNat

/-- Base register plus a signed 32-bit offset (R101, R104). -/
def Seq.addr32 (q : Seq) (a : BitVec 5) (off : BitVec 32) : Nat := exactSum (q.gr a) off.toInt

/-- Base register plus a signed 20-bit offset (R106). -/
def Seq.addr20 (q : Seq) (a : BitVec 5) (off : BitVec 20) : Nat := exactSum (q.gr a) off.toInt

/-- The bytes of an access by its size code (R101). -/
def sizeBytes (size : BitVec 3) : Nat := 2 ^ (size.toNat % 4)

/-- A loaded value by its size code: sizes 0 to 2 extend the sign, the others do not (R211). -/
def loadExtend (size : BitVec 3) (v : Nat) : Word :=
  if size.toNat < 3 then sext (8 * sizeBytes size) v else BitVec.ofNat 64 v

/-- A scope code as the sequencer, the copy engine and the tag table use it: 0 acts as region scope (R211, R316). -/
def regionScope (scope : Nat) : Nat := if scope = 0 then 1 else scope

/-- The signals of the package that have not been applied, those held for saved tag tables included (R326). -/
def State.openSignals (s : State) : List Signal :=
  s.pkg.signals ++ s.parts.flatMap (fun e => e.2.replays.flatMap (fun r => r.dgs.flatMap DieGraph.held))

/-- Whether a message that region `r` sent for a replay of a partition is its present sequencer's own: on a shared set, or where stages
take turns, the region may have sent others for programs that are saved (R157, R216). -/
def State.sentHere (s : State) (r part replay : Nat) : Bool :=
  (s.reg r).place.any (fun p => p.part == part && p.replay == replay)

/-- Whether an engine command of the sequencer of region `r` has not performed: a copy or channel transfer, a signal, a fold, a frame
to another package (R215, R216). -/
def State.engineBusy (s : State) (r : Nat) : Bool :=
  !(s.reg r).copies.isEmpty || s.openSignals.any (fun g => g.src == r && s.sentHere r g.part g.replay) ||
    s.pkg.folds.any (fun f => f.issuer == r && !f.rmw && s.sentHere r f.part f.replay) ||
    s.parts.any (fun e => e.2.frames.any (fun f => f.src == r && s.sentHere r e.1 f.replay))

/-- Whether an rmw operation that the blocks of region `r` have sent has not been applied (R52, R321). -/
def State.rmwBusy (s : State) (r : Nat) : Bool :=
  s.pkg.folds.any (fun f => f.rmw && f.issuer == r && s.sentHere r f.part f.replay)

/-- Whether what a hold waits for is still to be performed (R147, R216, R326, R333). -/
def State.holdOpen (s : State) (r : Nat) : Hold → Bool
  | .signal dst n => s.openSignals.any (fun g => g.src == r && g.dst == dst && g.num == n)
  | .fold n => s.pkg.folds.any (fun f => f.num == n)
  | .frame n => s.parts.any (fun e => e.2.frames.any (fun f => f.src == r && f.id == n && s.sentHere r e.1 f.replay))
  | .engines => s.engineBusy r

/-- Whether an acquire of an earlier fold or tag.sig still holds the sequencer's accesses back (R326, R333). -/
def State.held (s : State) (r : Nat) : Bool := (s.reg r).seq.holds.any (fun h => h != .engines && s.holdOpen r h)

/-- Whether an engine command of the sequencer is held back: by an acquire, or behind a stream-only fence (R216, R326,
R333). -/
def State.engineHeld (s : State) (r : Nat) : Bool := (s.reg r).seq.holds.any (s.holdOpen r)

/-- An engine command begins: the stream-only fences before it have completed (R216). -/
def Seq.begun (q : Seq) : Seq := { q with holds := q.holds.filter (fun h => h != .engines) }

/-- The identity of the region as whoami writes it (R199). -/
def State.identity (s : State) : Word :=
  match (s.reg s.cur).place with
  | none => 0
  | some p => BitVec.ofNat 64 (packNat [(8, s.cur), (8, p.lane), (8, p.width), (2, dieOf s.cur), (6, 0), (8, p.number), (16, p.stage)])

/-! ## Control registers (R48, R160, R189, R190) -/

/-- LANDST (R190). -/
def Seq.landst (q : Seq) : Word :=
  BitVec.ofNat 64 (packNat (q.slots.toList.map (fun v => (1, match v with | .full _ => 1 | _ => 0)) ++
    q.slots.toList.map (fun v => (1, match v with | .owed => 1 | _ => 0))))

/-- QLEFT: the ticks until the set's next gang tick (R160). -/
def State.qleft (s : State) (r : Nat) : Word :=
  match (s.owner r).bind s.part? with
  | none => 0
  | some v =>
    match spFind s.sets v.set with
    | none => 0
    | some t => BitVec.ofNat 64 (1000 * t.period - s.tick % (1000 * t.period))

/-- STAGEID (R48). -/
def Placement.stageid (p : Placement) : Word :=
  BitVec.ofNat 64 (packNat [(16, p.stage), (8, p.number), (8, p.lane), (8, p.width)])

/-- Whether a control register can only be read (R189). -/
def csrReadOnly (c : Nat) : Bool := (decide (0x010 ≤ c) && decide (c ≤ 0x013)) || c == 0x020 || c == 0x021 || c == 0x030

/-- The value of a control register, if its number is in the map (R189). -/
def State.csr (s : State) (c : Nat) : Option Word :=
  let q := s.seq
  let pl := (s.reg s.cur).place
  if c = 0x000 then some q.status
  else if c = 0x001 then some q.tvec
  else if c = 0x002 then some q.epc
  else if c = 0x003 then some q.cause
  else if c = 0x004 then some q.fva
  else if c = 0x005 then some q.iva
  else if c = 0x006 then some q.finfo
  else if c = 0x010 then some (match pl with | some _ => BitVec.ofNat 64 s.cur | none => 0)
  else if c = 0x011 then some (match pl with | some p => BitVec.ofNat 64 p.graph | none => 0)
  else if c = 0x012 then some (match pl with | some p => p.stageid | none => 0)
  else if c = 0x013 then some (match pl with | some p => BitVec.ofNat 64 p.replay | none => 0)
  else if c = 0x020 then some (BitVec.ofNat 64 s.tick)
  else if c = 0x021 then some (s.qleft s.cur)
  else if c = 0x030 then some q.landst
  else if h : 0x040 ≤ c ∧ c ≤ 0x04F then some (q.scr[c - 0x040]'(by omega))
  else none

/-- Writes a control register in its writable fields only (R190, R217). -/
def Seq.csrWrite (q : Seq) (c : Nat) (v : Word) : Seq :=
  if c = 0x000 then { q with status := (q.status &&& 1) ||| (v &&& 6) }
  else if c = 0x001 then { q with tvec := v &&& ~~~(3 : Word) }
  else if c = 0x002 then { q with epc := v &&& ~~~(3 : Word) }
  else if c = 0x003 then { q with cause := v &&& 0x1FF }
  else if c = 0x004 then { q with fva := v }
  else if c = 0x005 then { q with iva := v &&& ~~~(3 : Word) }
  else if c = 0x006 then { q with finfo := v }
  else if h : 0x040 ≤ c ∧ c ≤ 0x04F then { q with scr := q.scr.set (c - 0x040) v (by omega) }
  else q

end Sys2Proof.Machine
end

