-- ==== Sys2Proof/Machine/Flags.lean ====
section
/-!
DEFINITION. The flags: predicates as the compares compute them (R204 to R206), STATUS.sat (R200), and the region's
sticky bits SAT and SNAN (R72, R75, R278).
-/
namespace Sys2Proof.Machine

/-- The relations of cmp, cmpi and cmpiu (R204, R205). -/
def cmpEq (a b : Word) : Bool := a == b
def cmpNe (a b : Word) : Bool := a != b
def cmpLt (a b : Word) : Bool := decide (a.toInt < b.toInt)
def cmpLtu (a b : Word) : Bool := decide (a.toNat < b.toNat)
def cmpGe (a b : Word) : Bool := decide (b.toInt ≤ a.toInt)
def cmpGeu (a b : Word) : Bool := decide (b.toNat ≤ a.toNat)
def cmpBit (a b : Word) : Bool := (a &&& b) != 0

/-- A saturated 64-bit sum or difference, and whether it was clamped (R200). -/
def satWord (x : Int) : Word × Bool :=
  let y := sat x (-(2 ^ 63)) (2 ^ 63 - 1)
  (BitVec.ofInt 64 y, y != x)

/-- Sets the region's SAT and SNAN bits (R278). -/
def Region.sticky (r : Region) (sat snan : Bool) : Region := { r with sat := r.sat || sat, snan := r.snan || snan }

end Sys2Proof.Machine
end

