-- ==== Sys2Proof/Machine/Tags.lean ====
section
/-!
DEFINITION. Route tags and the messages that change them (R317 to R326), the landing buffer (R327, R328), and the
issue of folds (R333).
-/
namespace Sys2Proof.Machine

/-! ## Events of a tag (R318) -/

/-- A tag of a region. -/
def Region.tag (r : Region) (t : Nat) : TagState := spGet {} r.tags t
/-- A tag takes a state; a change of it ends a yield (R198). -/
def Region.setTag (r : Region) (t : Nat) (v : TagState) : Region :=
  { r with tags := spInsert r.tags t v, seq := { r.seq with wake := r.seq.wake || v != r.tag t } }
/-- Unblock (R318). -/
def TagState.unblock (t : TagState) : TagState := { t with b := false, count := 0, arm := none }
/-- Decrement, unless the count is at its least (R318). -/
def TagState.decrement (t : TagState) : Option TagState :=
  if t.count = BitVec.intMin 16 then none
  else if t.count = 1 then some t.unblock
  else some { t with count := t.count - 1 }
/-- Set count, unless it leaves the range (R318). -/
def TagState.addCount (t : TagState) (imm : BitVec 16) : Option TagState :=
  let c := t.count.toInt + imm.toInt
  if c < -32768 ∨ 32767 < c then none else some { t with count := BitVec.ofInt 16 c, b := decide (0 < c) }

/-- A decrement or an unblock reaches a tag of region `r` from outside its sequencer; `src` is the region that sent
it, or 255 (R318). -/
def State.tagEvent (s : State) (r t mode src : Nat) : State :=
  let v := (s.reg r).tag t
  if mode = 1 then s.modReg r (fun g => g.setTag t v.unblock)
  else match v.decrement with
    | some v' => s.modReg r (fun g => g.setTag t v')
    | none => s.queueCause r { cause := Cause.tagCountUnderflow, finfo := BitVec.ofNat 64 (t + 256 * src) }

/-- An evaluation of an armed tag (R325). -/
def State.evalArm (s : State) (r t : Nat) : State :=
  match ((s.reg r).tag t).arm with
  | none => s
  | some a =>
    match s.readNum { part := (s.owner r).getD 48, region := some r, unit := 0xF9 } a.va 8 with
    | (s1, .ok w) =>
      if BitVec.ofNat 64 w &&& a.mask = a.mask then s1.modReg r (fun g => g.setTag t (g.tag t).unblock) else s1
    | (s1, .fault c _) =>
      (s1.modReg r (fun g => g.setTag t { g.tag t with arm := none })).queueCause r
        { cause := c, fva := BitVec.ofNat 64 a.va, finfo := BitVec.ofNat 64 t }
    | (s1, .held) => s1

/-! ## The tag instructions -/

/-- A tag instruction that only changes its own tag (R323). -/
def State.tagOp (s : State) (t : BitVec 8) (k : BitVec 3) (f : TagState → TagState) : Out :=
  s.guarded k 8 fun s => .next ((s.modReg s.cur (fun g => g.setTag t.toNat (f (g.tag t.toNat)))).advance 8)

/-- tag.blk (R323). -/
def execTagBlk (t : BitVec 8) (k : BitVec 3) (s : State) : Out := s.tagOp t k fun v => { v with b := true }
/-- tag.ubk (R323). -/
def execTagUbk (t : BitVec 8) (k : BitVec 3) (s : State) : Out := s.tagOp t k TagState.unblock
/-- tag.clr (R318). -/
def execTagClr (t : BitVec 8) (k : BitVec 3) (s : State) : Out := s.tagOp t k fun _ => {}
/-- tag.wait (R323). -/
def execTagWait (t : BitVec 8) (k : BitVec 3) (s : State) : Out :=
  s.guarded k 8 fun s => if ((s.reg s.cur).tag t.toNat).b then .next s.wait else .next (s.advance 8)
/-- tag.test (R323). -/
def execTagTest (t : BitVec 8) (d k : BitVec 3) (s : State) : Out :=
  s.guarded k 8 fun s => .next (s.setK d (!((s.reg s.cur).tag t.toNat).b) 8)
/-- tag.cnt (R318). -/
def execTagCnt (t : BitVec 8) (i : BitVec 16) (k : BitVec 3) (s : State) : Out :=
  s.guarded k 8 fun s =>
    match ((s.reg s.cur).tag t.toNat).addCount i with
    | none => .next (s.trap Cause.tagCountUnderflow 0 (leadOf (.tagCnt t i k)))
    | some v => .next ((s.modReg s.cur (fun g => g.setTag t.toNat v)).advance 8)
/-- tag.bind (R324). -/
def execTagBind (t : BitVec 8) (isl : BitVec 4) (k : BitVec 3) (s : State) : Out :=
  s.guarded k 8 fun s =>
    let v := (s.reg s.cur).tag t.toNat
    match v.task with
    | some i =>
      if i = isl.toNat then .next (s.advance 8)
      else .next (s.trap Cause.tagBindConflict 0 (leadOf (.tagBind t isl k)))
    | none => .next ((s.modReg s.cur (fun g => g.setTag t.toNat { v with task := some isl.toNat })).advance 8)
/-- tag.arm: the arming, then its first evaluation (R325). -/
def execTagArm (t : BitVec 8) (a b : BitVec 5) (k : BitVec 3) (s : State) : Out :=
  s.guarded k 8 fun s =>
    let v := s.seq.gr a
    if v &&& 7 != 0 then .next (s.trap Cause.misaligned v (leadOf (.tagArm t a b k)))
    else
      let m := s.seq.gr b
      let s1 := s.modReg s.cur (fun g => g.setTag t.toNat { g.tag t.toNat with arm := some ⟨v.toNat, m⟩, b := true })
      .next ((s1.evalArm s.cur t.toNat).advance 8)

/-! ## Targets of tag.sig (R326) -/

/-- Where a stage of a partition stands on a region: replay, die graph and stage, placed or saved (R326). -/
structure Standing where
  replay : Nat
  dg : Nat
  stage : Nat
  deriving DecidableEq, Repr

/-- Whether every lane of a stage has reported (R53). -/
def StageRec.over (g : StageRec) : Bool := decide (g.width ≤ g.done.length)

/-- Whether a die graph's stages stand on their regions. -/
def DieGraph.standing (d : DieGraph) : Bool :=
  match d.place with
  | .waiting => false
  | .finished => false
  | _ => true

/-- The stages of a die graph that stand on a region: one that is over has left it (R157). -/
def DieGraph.standingAt (d : DieGraph) (num dg r : Nat) : List Standing :=
  if d.standing then
    (d.stages.filter (fun g => g.regions.contains r && !g.over)).map (fun g => { replay := num, dg := dg, stage := g.index })
  else []

/-- The stages of a replay that stand on a region. -/
def Replay.standingAt (v : Replay) (r : Nat) : List Standing :=
  (v.dgs.zipIdx).flatMap (fun e => e.1.standingAt v.num e.2 r)

/-- The stages of a partition that stand on a region. -/
def Part.standingAt (v : Part) (r : Nat) : List Standing := v.replays.flatMap (fun y => y.standingAt r)

/-- Whether a stage standing elsewhere lies in the scope of a placed party (R315, R316). -/
def inScope (scope src dst : Nat) (p : Placement) (t : Standing) : Bool :=
  match regionScope scope with
  | 1 => src == dst
  | 2 => p.replay == t.replay && p.stage == t.stage
  | 3 => p.replay == t.replay && p.dg == t.dg
  | 4 => p.replay == t.replay
  | _ => true

/-- The stage that a placement names. -/
def Part.stageOf (v : Part) (p : Placement) : Option StageRec :=
  ((v.replays.find? (fun y => y.num == p.replay)).bind (fun y => y.dgs[p.dg]?)).bind
    (fun d => d.stages.find? (fun g => g.index == p.stage))

/-- The region that g[a] names for tag.sig, other than a rank (R326). -/
def sigTarget (v : Part) (p : Placement) (x : Nat) : Option Nat :=
  if x < 192 then some x
  else if 0x100 ≤ x ∧ x ≤ 0x12F then (v.stageOf p).bind (fun g => g.regions[x - 0x100]?)
  else none

/-- A rank entry's fields (R146). -/
def rankRegion (e : Word) : Nat := fieldN e 0 8
def rankPackage (e : Word) : Nat := fieldN e 8 12
def rankKey (e : Word) : Nat := fieldN e 20 16
def rankValid (e : Word) : Bool := e.getLsbD 63

/-- Sends a signal on the partition's virtual network, and holds later accesses back if it acquires (R326). -/
def State.sendSignal (s : State) (pl : Placement) (dst tag mode : Nat) (acq : Bool) (target : Option Standing) : State :=
  let n := s.pkg.msgCount
  let s1 := s.modPkg (fun k => { k with msgCount := n + 1, signals := k.signals ++
    [{ part := pl.part, src := s.cur, dst := dst, tag := tag, mode := mode, num := n, replay := pl.replay
       target := target.map (fun t => (t.replay, t.stage)) }] })
  s1.mod (fun q => ({ q.begun with holds := q.begun.holds ++ (if acq then [.signal dst n] else []) } : Seq).advance 8)

/-- The bytes that a frame of a rank transfer counts for: a signal's 8, or those of a sector (R150, log 92). -/
def frameBytes (body : RankBody) : Word := match body with | .signal _ _ _ => 8 | .sector _ b => BitVec.ofNat 64 b.length

/-- The copies of a region, still on their way to a rank of another package (R147). -/
def Region.pushesTo (r : Region) (e : Word) : List Nat :=
  (r.copies.filter (fun c => c.rank == some e.toNat && c.done.length != c.len / 32)).map Copy.index

/-- Sends a frame of a rank transfer to another package; it follows the pushes that its region issued before it to the same
rank (R147). -/
def State.sendFrame (s : State) (p : Nat) (src : Nat) (e : Word) (body : RankBody) (copy : Option Nat) (after : List Nat) : State :=
  let s1 := s.modPart p (fun v => { v with nextFrame := v.nextFrame + 1, frames := v.frames ++
    [{ id := v.nextFrame, src := src, package := rankPackage e, key := rankKey e, region := rankRegion e, body := body, copy := copy,
       replay := ((s.reg src).place.map Placement.replay).getD 0, after := after }] })
  s1.meter p (dieOf src) (fun c => { c with fabric := c.fabric + frameBytes body })

/-- tag.sig to a rank of another package: the frame leaves after the pushes issued before it, and with acquire later accesses
wait until it is acknowledged (R147, R326). -/
def State.sendRankSignal (s : State) (p : Nat) (v : Part) (e : Word) (t : BitVec 8) (m : BitVec 1) (acq : Bool) : State :=
  (s.sendFrame p s.cur e (.signal t m (BitVec.ofNat 8 s.cur)) none ((s.reg s.cur).pushesTo e)).mod (fun q =>
    ({ q.begun with holds := q.begun.holds ++ (if acq then [.frame v.nextFrame] else []) } : Seq).advance 8)

/-- The stage at which a signal to a region is aimed: the one that is placed there if it lies in scope, otherwise a saved
one that does (R326). -/
def State.sigStage (s : State) (v : Part) (pl : Placement) (scope r : Nat) : Option Standing :=
  let l := (v.standingAt r).filter (inScope scope s.cur r pl)
  let here := fun (t : Standing) => match (s.reg r).place with
    | some x => x.part == pl.part && x.replay == t.replay && x.stage == t.stage
    | none => false
  (l.find? here).or l.head?

/-- tag.sig (R326, R147). -/
def execTagSig (t : BitVec 8) (a : BitVec 5) (mode acq rel : BitVec 1) (scope k : BitVec 3) (s : State) : Out :=
  s.guarded k 8 fun s =>
    let x := s.seq.gr a
    let info := leadOf (.tagSig t a mode acq rel scope k)
    let denied := s.trap Cause.tagRemoteDenied x info
    if s.engineHeld s.cur then .next s.wait
    else match (s.reg s.cur).place with
      | none => .next denied
      | some pl =>
        match s.part? pl.part with
        | none => .next denied
        | some v =>
          if 0x400 ≤ x.toNat ∧ x.toNat ≤ 0x7FF then
            let e := spGet 0 v.ranks (x.toNat - 0x400)
            if !(rankValid e) then .next (s.trap Cause.rankUnmapped x info)
            else if scope != 6 then .next denied
            else if rel == 1 && s.engineBusy s.cur then .next s.wait
            else if rankPackage e = Config.packageId.toNat then
              .next (s.sendSignal pl (rankRegion e) t.toNat mode.toNat (acq == 1) none)
            else .next (s.sendRankSignal pl.part v e t mode (acq == 1))
          else match sigTarget v pl x.toNat with
            | none => .next denied
            | some r =>
              match s.sigStage v pl scope.toNat r with
              | none => .next denied
              | some g =>
                if rel == 1 && s.engineBusy s.cur then .next s.wait
                else .next (s.sendSignal pl r t.toNat mode.toNat (acq == 1) (some g))

/-! ## The landing buffer (R327, R328) -/

/-- commit (R328). -/
def execCommit (d : BitVec 5) (n : BitVec 4) (s : State) : Out :=
  match s.seq.slot n with
  | .empty => .next (s.trap Cause.landEmpty 0 (leadOf (.commit d n)))
  | .owed => .next s.wait
  | .full v => .next (s.mod fun q => ((q.setSlot n .empty).gw d v).advance 4)

/-- land.test (R328). -/
def execLandTest (d : BitVec 3) (n : BitVec 4) (s : State) : Out :=
  .next (s.setK d (match s.seq.slot n with | .full _ => true | _ => false) 4)

/-- A landing slot of region `r` takes a state, which ends a yield when it fills (R198, R327). -/
def State.land (s : State) (r n : Nat) (v : Slot) : State :=
  s.modSeq r (fun q => { q.setSlot (BitVec.ofNat 4 n) v with wake := q.wake || (match v with | .full _ => true | _ => false) })

/-! ## Issuing a fold (R333) -/

/-- The bytes of a fold by its size code (R106). -/
def foldBytes (size : BitVec 2) : Nat := match size.toNat with | 0 => 4 | 1 => 8 | _ => 2

/-- The window that holds a word (R329, R333). -/
def findWindow (p : Part) (va z : Nat) : Option Window :=
  p.windows.find? (fun w => decide (w.va ≤ va) && decide (va + z ≤ w.va + 2 ^ w.log2))

/-- fold at issue (R333). A window that has no owner left queues the cause with nothing of the operation, as R382 names neither FVA nor
FINFO (R186). -/
def execFold (a b c : BitVec 5) (op : BitVec 4) (r : BitVec 1) (slot : BitVec 4) (off : BitVec 20) (size : BitVec 2)
    (acq rel : BitVec 1) (scope k : BitVec 3) (s : State) : Out :=
  s.guarded k 8 fun s =>
    let ea := s.seq.addr20 a off
    let z := foldBytes size
    let info := leadOf (.fold a b c op r slot off size acq rel scope k)
    let p := (s.owner s.cur).getD 48
    if s.engineHeld s.cur then .next s.wait
    else if !(aligned z ea) then .next (s.trap Cause.misaligned (BitVec.ofNat 64 ea) info)
    else match (s.part? p).bind (fun v => findWindow v ea z) with
      | none => .next (s.trap Cause.foldNoWindow (BitVec.ofNat 64 ea) info)
      | some w =>
        if r == 1 && s.seq.slot slot != .empty then .next (s.trap Cause.landBusy 0 info)
        else if rel == 1 && s.engineBusy s.cur then .next s.wait
        else match w.owner with
          | none => .next ((s.queueCause s.cur { cause := Cause.foldNoWindow }).advance 8)
          | some o =>
            let n := s.pkg.msgCount
            let msg : FoldMsg :=
              { num := n, part := p, issuer := s.cur, owner := o, op := op.toNat, addr := ea, z := z,
                b := BitVec.ofNat 64 ((s.seq.gr b).toNat % 2 ^ (8 * z)), c := BitVec.ofNat 64 ((s.seq.gr c).toNat % 2 ^ (8 * z)),
                r := r == 1, slot := slot.toNat, rel := rel == 1, scope := scope.toNat, info := info
                replay := ((s.reg s.cur).place.map Placement.replay).getD 0 }
            let s1 := s.modPkg (fun k => { k with msgCount := n + 1, folds := k.folds ++ [msg] })
            let s2 := if r == 1 then s1.mod (fun q => q.setSlot slot .owed) else s1
            .next (s2.mod fun q => ({ q.begun with holds := q.begun.holds ++ (if acq == 1 then [.fold n] else []) } : Seq).advance 8)

end Sys2Proof.Machine
end

