-- ==== Sys2Proof/Machine/Copies.lean ====
section
/-!
DEFINITION. push, pull and pushn (R305, R306, R147), and the copy engine's work on a sector and on a bitmap bit (R307,
R308).
-/
namespace Sys2Proof.Machine

/-- Whether an address lies on the own-palette side for the tier rule (R306). -/
def palSide (va : Nat) : Bool := decide (0xFF0000000000 ≤ va) && decide (va < 0xFF1000000000)
/-- Whether an address lies in the rank window (R280). -/
def rankSide (va : Nat) : Bool := match tierOf va with | .rank _ _ => true | _ => false

/-- The copy instructions differ in their sides (R305). -/
inductive CopyKind
  | push | pull | pushn
  deriving DecidableEq, Repr

/-- The first side that breaks the tier rule of R305, if one does. -/
def tierBroken (kind : CopyKind) (src dst : Nat) : Option Nat :=
  match kind with
  | .push => if palSide src then none else some src
  | .pull => if palSide src || rankSide src then some src else if palSide dst then none else some dst
  | .pushn => if !(palSide src) then some src else if palSide dst then none else some dst

/-- Whether a palette side of a copy leaves the 2 MiB of a palette (R306). -/
def palSideBad (va len : Nat) : Bool :=
  (palSide va && decide (0xFF0000000000 + 0x200000 < va + len || 0xFF0000000000 + 0x200000 ≤ va)) ||
    (rankSide va && decide (0x200000 < (va - 0xFF2000000000) % 0x200000 + len))

/-- Puts a copy into the queue of the region's copy engine (R306). -/
def Region.enqueue (r : Region) (c : Copy) : Region :=
  { r with copies := r.copies ++ [{ c with index := r.copyIndex }], copyIndex := (r.copyIndex + 1) % 2 ^ 16, seq := r.seq.begun }

/-- push, pull and pushn at issue, in the order of R306; a rank entry is read after the region rule (R147). -/
def State.copyOp (s : State) (kind : CopyKind) (a b n : BitVec 5) (acq rel : Bool) (scope : Nat) (off : BitVec 32)
    (m : BitVec 5) (t : Nat) (region : Nat) (info : Word) : Out :=
  let src := (s.seq.gr a)
  let dst := s.seq.addr32 b off
  let len := s.seq.gr n
  let bm := s.seq.gr m
  if s.engineHeld s.cur then .next s.wait
  else match tierBroken kind src.toNat dst with
    | some v => .next (s.trap Cause.copyTierIllegal (BitVec.ofNat 64 v) info)
    | none =>
      let pl := (s.reg s.cur).place
      let sameDg := match pl, (s.reg region).place with
        | some x, some y => x.part == y.part && x.replay == y.replay && x.dg == y.dg
        | _, _ => false
      let entry := match tierOf dst, (s.owner s.cur).bind s.part? with
        | .rank i _, some v => some (i, spGet 0 v.ranks i)
        | _, _ => none
      if kind = .pushn ∧ sameDg = false then .next (s.trap Cause.copyRegionIllegal (BitVec.ofNat 64 dst) info)
      else if (match entry with | some (_, e) => !(rankValid e) | none => false) then .next (s.trap Cause.rankUnmapped (BitVec.ofNat 64 dst) info)
      else if !(aligned 32 src.toNat) then .next (s.trap Cause.misaligned src info)
      else if !(aligned 32 dst) then .next (s.trap Cause.misaligned (BitVec.ofNat 64 dst) info)
      else if !(aligned 32 len.toNat) then .next (s.trap Cause.misaligned len info)
      else if palSideBad src.toNat len.toNat then .next (s.trap Cause.paletteRange src info)
      else if palSideBad dst len.toNat then .next (s.trap Cause.paletteRange (BitVec.ofNat 64 dst) info)
      else if m != 0 && bm &&& 7 != 0 then .next (s.trap Cause.misaligned bm info)
      else if 16 ≤ (s.reg s.cur).copies.length then .next s.wait
      else
        let c : Copy :=
          { index := 0, src := src.toNat, dst := dst, len := len.toNat, bitmap := if m = 0 then none else some bm.toNat,
            tag := some t, acq := acq || entry.isSome, rel := rel || entry.isSome,
            scope := if entry.isSome then 6 else if acq || rel then regionScope scope else 1,
            region := region, rank := entry.map (fun e => e.2.toNat), part := (s.owner s.cur).getD 48 }
        .next ((s.modReg s.cur (fun r => r.enqueue c)).advance 12)

/-- push (R305). -/
def execPush (a b n : BitVec 5) (acq rel : BitVec 1) (scope k : BitVec 3) (off : BitVec 32) (m : BitVec 5) (t : BitVec 8)
    (s : State) : Out :=
  s.guarded k 12 fun s => s.copyOp .push a b n (acq == 1) (rel == 1) scope.toNat off m t.toNat s.cur
    (leadOf (.push a b n acq rel scope k off m t))
/-- pull (R305). -/
def execPull (a b n : BitVec 5) (acq rel : BitVec 1) (scope k : BitVec 3) (off : BitVec 32) (m : BitVec 5) (t : BitVec 8)
    (s : State) : Out :=
  s.guarded k 12 fun s => s.copyOp .pull a b n (acq == 1) (rel == 1) scope.toNat off m t.toNat s.cur
    (leadOf (.pull a b n acq rel scope k off m t))
/-- pushn; naming the own region it acts as push (R305). -/
def execPushn (a b n : BitVec 5) (acq rel : BitVec 1) (scope k : BitVec 3) (off : BitVec 32) (m : BitVec 5) (t : BitVec 8)
    (region : BitVec 8) (s : State) : Out :=
  s.guarded k 12 fun s =>
    s.copyOp (if region.toNat = s.cur then .push else .pushn) a b n (acq == 1) (rel == 1) scope.toNat off m t.toNat
      region.toNat (leadOf (.pushn a b n acq rel scope k off m t region))

/-! ## The copy engine -/

/-- The copy engine of region `r` as a party (R168). -/
def State.copyWho (s : State) (r : Nat) : Who := { part := (s.owner r).getD 48, region := some r, unit := 0xFE }

/-- Where byte `j` of a channel transfer lies in the ring (R310): header, slots, first slot. -/
def ringAddr (ring : Nat × Nat × Nat) (j : Nat) : Nat :=
  ring.1 + 0x40 + 64 * ((ring.2.2 + j / 64) % ring.2.1) + j % 64

/-- The source address of a sector. -/
def Copy.srcAddr (c : Copy) (sector : Nat) : Nat :=
  match c.chan, c.ring with
  | some (_, 1), some g => ringAddr g (32 * sector)
  | _, _ => c.src + 32 * sector

/-- The destination address of a sector. -/
def Copy.dstAddr (c : Copy) (sector : Nat) : Nat :=
  match c.chan, c.ring with
  | some (_, 0), some g => ringAddr g (32 * sector)
  | _, _ => c.dst + 32 * sector

/-- Replaces a copy in the queue. -/
def Region.setCopy (r : Region) (c : Copy) : Region :=
  { r with copies := r.copies.map (fun x => if x.index = c.index then c else x) }
/-- Removes a copy from the queue. -/
def Region.dropCopy (r : Region) (i : Nat) : Region := { r with copies := r.copies.filter (fun x => x.index != i) }
/-- A copy in the queue. -/
def Region.copy? (r : Region) (i : Nat) : Option Copy := r.copies.find? (fun x => x.index == i)

/-- A send behind one that has failed moves down to the slots from prod, and is copied there (R311). -/
def Copy.moveDown (c : Copy) (m : Nat) : Copy := { c with ring := c.ring.map (fun g => (g.1, g.2.1, g.2.2 - m)), done := [] }

/-- A copy leaves the queue at a fault: a send gives up its own slots, which prod does not pass. DESIGN CHOICE (log 115): the sends queued
behind it on its channel are copied into the slots from prod anew, since prod counts no slot that was not sent (R311). -/
def Region.giveUp (r : Region) (c : Copy) : Region :=
  match c.chan with
  | some (n, 0) =>
    let m := c.len / 64
    let before := r.copies.takeWhile (fun x => x.index != c.index)
    let behind := (r.copies.drop before.length).drop 1
    { r with
      copies := before ++ behind.map (fun x => if x.chan = c.chan then x.moveDown m else x)
      chans := r.chans.map (fun e => if e.num = n then { e with inflight := e.inflight - m } else e) }
  | _ => r.dropCopy c.index

/-- A copy stops at a fault: its cause is queued, and neither its release nor its tag takes place (R308); a send gives up its slots
(R311). -/
def State.copyFault (s : State) (r : Nat) (c : Copy) (cause : BitVec 9) (va : Nat) : State :=
  let s1 := s.modReg r (fun g => g.giveUp c)
  s1.queueCause r { cause := cause, fva := BitVec.ofNat 64 va, finfo := BitVec.ofNat 64 (0x80000000 + c.index) }

/-- Every armed tag of a region is evaluated when its copy engine writes a bitmap word (R325). -/
def State.evalArms (s : State) (r : Nat) : State :=
  ((s.reg r).tags.filter (fun e => e.2.arm.isSome)).foldl (fun st e => st.evalArm r e.1) s

/-- Sets bit `c` of a completion bitmap: a read and a write of its word (R294, R307). -/
def State.setBit (s : State) (w : Who) (r bitmap c : Nat) : State × Got Unit :=
  let va := bitmap + 8 * (c / 64)
  match s.readNum w va 8 with
  | (s1, .ok v) =>
    match s1.writeNum w va 8 (v ||| 2 ^ (c % 64)) with
    | (s2, .ok ()) => (s2.evalArms r, .ok ())
    | x => x
  | (s1, .fault k a) => (s1, .fault k a)
  | (s1, .held) => (s1, .held)

/-- The sectors of chunk `c` of a copy (R307). -/
def Copy.chunkSectors (c : Copy) (i : Nat) : List Nat :=
  (List.range 16).filterMap (fun j => if 32 * (16 * i + j) < c.len then some (16 * i + j) else none)

/-- The bytes of a push sector reach the palette of a region, live or saved, of a partition; otherwise they are
discarded (R147). -/
def State.landSector (s : State) (p r off : Nat) (bytes : List Byte) : State :=
  if s.owner r = some p then s.modMem (fun m => m.writeN (palBase r + off) bytes)
  else
    s.modPart p (fun v => { v with replays := v.replays.map (fun y => { y with dgs := y.dgs.map (fun d =>
      { d with saved := d.saved.map (fun l =>
          if l.region = r then { l with palette := (({ cells := l.palette } : Memory).writeN off bytes).cells } else l) }) }) })

/-- Writes a sector where it goes: another region's palette, the palette of a rank, or an address (R305, R147). -/
def State.writeSector (s : State) (r : Nat) (c : Copy) (sector : Nat) (bytes : List Byte) : State × Got Unit :=
  let va := c.dstAddr sector
  match c.rank with
  | some e =>
    let entry : Word := BitVec.ofNat 64 e
    let off := (va - 0xFF2000000000) % 0x200000
    if rankPackage entry = Config.packageId.toNat then (s.landSector c.part (rankRegion entry) off bytes, .ok ())
    else (s.sendFrame c.part r entry (.sector off bytes) (some c.index) [], .ok ())
  | none =>
    if palSide va && c.region != r then
      (s.modMem (fun m => m.writeN (palBase c.region + (va - 0xFF0000000000)) bytes), .ok ())
    else s.writeVA (s.copyWho r) va bytes

/-- Whether a copy leaves for another package, so that its sectors await acknowledgement (R147). -/
def Copy.remote (c : Copy) : Bool :=
  match c.rank with
  | some e => rankPackage (BitVec.ofNat 64 e) != Config.packageId.toNat
  | none => false

/-- The sectors of a copy that count for its bits: written, and acknowledged where that is awaited (R147, R307). -/
def Copy.settled (c : Copy) : List Nat := if c.remote then c.acked else c.done

/-- An access of a copy is held; a stage-2 fault that it raised pauses the whole copy (R167). -/
def State.copyHeld (s s1 : State) (r : Nat) (c : Copy) : State :=
  match s.raised s1 (s.copyWho r).part with
  | some n => s1.modReg r (fun g => g.setCopy { c with fault := some n })
  | none => s1

/-- Sets the oldest bit that is still to be set, if there is one (R307). -/
def State.copyBit (s : State) (r : Nat) (c : Copy) : State :=
  match c.bits, c.bitmap with
  | b :: bs, some m =>
    match s.setBit (s.copyWho r) r m b with
    | (s1, .ok ()) => s1.modReg r (fun g => g.setCopy { c with bits := bs })
    | (s1, .fault k a) => s1.copyFault r c k a
    | (s1, .held) => s.copyHeld s1 r c
  | _, _ => s

/-- After a sector has settled, the bit of its chunk is to be set when all its sectors have (R307). -/
def Copy.afterSector (c : Copy) (sector : Nat) : Copy :=
  let i := sector / 16
  if c.bitmap.isSome && (c.chunkSectors i).all (fun x => c.settled.contains x) then { c with bits := c.bits ++ [i] } else c

/-- Whether a push to a rank of another package waits for an earlier one of its region to the same rank, so that their sectors
arrive in issue order (R147). -/
def Region.behindPush (r : Region) (c : Copy) : Bool :=
  c.remote && (r.copies.takeWhile (fun x => x.index != c.index)).any (fun x => x.rank == c.rank && x.done.length != x.len / 32)

/-- The copy engine reads and writes one sector, then tries the bit it completes (R307). -/
def State.moveSector (s : State) (r : Nat) (c : Copy) (sector : Nat) : State :=
  if !c.bits.isEmpty then s.copyBit r c
  else if (s.reg r).behindPush c then s
  else if !(decide (32 * sector < c.len)) || c.done.contains sector then s
  else
    match s.readVA (s.copyWho r) (c.srcAddr sector) 32 with
    | (s1, .fault k a) => s1.copyFault r c k a
    | (s1, .held) => s.copyHeld s1 r c
    | (s1, .ok bytes) =>
      match s1.writeSector r c sector bytes with
      | (s2, .fault k a) => s2.copyFault r c k a
      | (s2, .held) => s1.copyHeld s2 r c
      | (s2, .ok ()) =>
        let c1 := { c with done := natInsert c.done sector }
        let c2 := if c1.remote then c1 else c1.afterSector sector
        (s2.modReg r (fun g => g.setCopy c2)).copyBit r c2

/-- A sector of a copy that is not paused at a stage-2 fault (R167). -/
def State.copySector (s : State) (r : Nat) (c : Copy) (sector : Nat) : State :=
  match s.pauseAt (s.copyWho r).part c.fault with
  | (s1, .go) => s1.moveSector r { c with fault := none } sector
  | (s1, .wait) => s1
  | (s1, .abort va) => s1.copyFault r c Cause.s2Abort va

/-- COPY_SECTOR (R307). -/
def execCopySector (r c sector : Nat) (s : State) : Out :=
  if r < 192 then
    match (s.reg r).copy? c with
    | none => .next s
    | some x => .next (s.copySector r x sector)
  else .fault .noSuchUnit

/-- Whether every sector has settled and every bit is set (R307). -/
def Copy.finished (c : Copy) : Bool := decide (c.settled.length = c.len / 32) && c.bits.isEmpty

end Sys2Proof.Machine
end

