-- ==== Sys2Proof/Machine/Channels.lean ====
section
/-!
DEFINITION. Channels (R309 to R312), the end of a copy (R307), and the acknowledgement of a rank transfer (R147).
-/
namespace Sys2Proof.Machine

/-! ## The channel table and the ends -/

/-- The replay that runs on region `r`. -/
def State.replayOf (s : State) (r : Nat) : Option Replay :=
  match (s.reg r).place with
  | none => none
  | some p => (s.part? p.part).bind (fun v => v.replays.find? (fun y => y.num == p.replay))

/-- A stage of a replay by its index. -/
def Replay.stage? (v : Replay) (i : Nat) : Option StageRec :=
  (v.dgs.flatMap DieGraph.stages).find? (fun g => g.index == i)

/-- Whether an address can be that of a channel header: a VA, or an address of the vat window (R280, R309). -/
def headerPlace (a : Nat) : Bool := match tierOf a with | .mapped => decide (a < 2 ^ 48) | .vat _ _ => true | _ => false

/-- Whether an entry of the channel table meets R309. -/
def channelEntryOk (v : Replay) (bs : List Byte) : Bool :=
  match v.stage? (numAt bs 8 2), v.stage? (numAt bs 10 2) with
  | some p, some c =>
    decide (p.number < c.number) && decide (numAt bs 12 1 < p.width) && decide (numAt bs 13 1 < c.width) &&
      aligned 64 (numAt bs 0 8) && headerPlace (numAt bs 0 8) && numAt bs 14 18 == 0
  | _, _ => false

/-- The channel end of a region, if it holds it open. -/
def Region.chan? (r : Region) (n : Nat) : Option ChanEnd := r.chans.find? (fun e => e.num == n)
/-- Replaces or adds a channel end. -/
def Region.setChan (r : Region) (e : ChanEnd) : Region :=
  { r with chans := if r.chans.any (fun x => x.num == e.num) then r.chans.map (fun x => if x.num = e.num then e else x)
                    else r.chans ++ [e] }
/-- The party that accesses a channel's header (R168). -/
def State.chanWho (s : State) (r : Nat) : Who := { part := (s.owner r).getD 48, region := some r, unit := 0xFA }
/-- The slots of a ring of log2size L (R310). -/
def ringSlots (l : Nat) : Nat := 2 ^ l / 64

/-- Whether a header as read makes the channel corrupt for an end (R312). -/
def ChanEnd.bad (e : ChanEnd) (bs : List Byte) : Bool :=
  let other := if e.producer then numAt bs 8 8 else numAt bs 0 8
  let l := numAt bs 16 4
  let prod := if e.producer then e.own else other
  let cons := if e.producer then other else e.own
  decide (other < e.other) || decide (prod < cons) || decide (ringSlots e.size < prod - cons) || l != e.size ||
    decide (l < 12) || decide (26 < l) || numAt bs 20 4 == 1

/-- The end with what it reads of the header. -/
def ChanEnd.read (e : ChanEnd) (bs : List Byte) : ChanEnd :=
  { e with other := if e.producer then numAt bs 8 8 else numAt bs 0 8, ended := numAt bs 28 4 == 1 }

/-- The sends queued at an end that is corrupt stop: no slot beyond the indices already taken is written (R312). DESIGN CHOICE (log 127):
they leave the queue, with no cause of their own, so that chn.close does not wait for them. -/
def Region.stopSends (r : Region) (n : Nat) : Region :=
  { r with
    copies := r.copies.filter (fun c => c.chan != some (n, 0))
    chans := r.chans.map (fun e => if e.num = n then { e with inflight := 0 } else e) }

/-- A region holds an end of a channel as corrupt (R312). -/
def Region.corruptEnd (r : Region) (e : ChanEnd) : Region := (r.stopSends e.num).setChan { e with corrupt := true, inflight := 0 }

/-- An end writes a field of the header; a fault is queued and leaves the channel corrupt on its side (R312). -/
def State.chanWrite (s : State) (r : Nat) (e : ChanEnd) (off n v : Nat) : State × Got Unit :=
  match s.writeNum (s.chanWho r) (e.header + off) n v with
  | (s1, .fault c a) =>
    ((s1.modReg r (fun g => g.corruptEnd e)).queueCause r
      { cause := c, fva := BitVec.ofNat 64 a, finfo := BitVec.ofNat 64 e.num }, .fault c a)
  | x => x

/-- An end holds its channel as corrupt, and queues CHN_CORRUPT (R312). -/
def State.chanLost (s : State) (r : Nat) (e : ChanEnd) : State :=
  (s.modReg r (fun g => g.corruptEnd e)).queueCause r
    { cause := Cause.chnCorrupt, fva := BitVec.ofNat 64 e.header, finfo := BitVec.ofNat 64 e.num }

/-- An end finds its channel corrupt: its sends stop, it writes cause and then state, and queues CHN_CORRUPT. A write that faults
queues its cause too and ends the writing; one that is held is made again with the check (R312). -/
def State.chanCorrupt (s : State) (r : Nat) (e : ChanEnd) : State × Got (Option ChanEnd) :=
  match (s.modReg r (fun g => g.stopSends e.num)).chanWrite r e 0x18 4 0x084 with
  | (s1, .held) => (s1, .held)
  | (s1, .fault _ _) => (s1.chanLost r e, .ok none)
  | (s1, .ok ()) =>
    match s1.chanWrite r e 0x14 4 1 with
    | (s2, .held) => (s2, .held)
    | (s2, _) => (s2.chanLost r e, .ok none)

/-- An end reads the header and checks it (R312); `none` when the channel is corrupt. -/
def State.chanRead (s : State) (r : Nat) (e : ChanEnd) : State × Got (Option ChanEnd) :=
  match s.readVA (s.chanWho r) e.header 64 with
  | (s1, .ok bs) =>
    if e.bad bs then s1.chanCorrupt r (e.read bs)
    else (s1.modReg r (fun g => g.setChan (e.read bs)), .ok (some (e.read bs)))
  | (s1, .fault c a) => (s1, .fault c a)
  | (s1, .held) => (s1, .held)

/-! ## The chn instructions -/

/-- chn.open: an end that is already open reads its header again, and its sends and receive go on (R311). -/
def execChnOpen (k : BitVec 3) (ch : BitVec 12) (s : State) : Out :=
  s.guarded k 8 fun s =>
    let info := leadOf (.chnOpen k ch)
    let n := ch.toNat
    match s.replayOf s.cur, (s.reg s.cur).place with
    | some v, some pl =>
      if v.chcount ≤ n then .next (s.trap Cause.chnRange 0 info)
      else match s.readVA (s.seqWho s.cur) (v.chtab + 32 * n) 32 with
        | (s1, .fault c a) => .next (s1.trap c (BitVec.ofNat 64 a) info)
        | (s1, .held) => .next s1.wait
        | (s1, .ok bs) =>
          let prodEnd := numAt bs 8 2 == pl.stage && numAt bs 12 1 == pl.lane
          let consEnd := numAt bs 10 2 == pl.stage && numAt bs 13 1 == pl.lane
          if !(channelEntryOk v bs) then .next (s1.trap Cause.chnCorrupt 0 info)
          else if !prodEnd && !consEnd then .next (s1.trap Cause.chnNotOpen 0 info)
          else match s1.readVA (s1.chanWho s1.cur) (numAt bs 0 8) 64 with
            | (s2, .fault c a) => .next (s2.trap c (BitVec.ofNat 64 a) info)
            | (s2, .held) => .next s2.wait
            | (s2, .ok hd) =>
              let old := (s2.reg s2.cur).chan? n
              let e : ChanEnd :=
                { num := n, producer := prodEnd, header := numAt bs 0 8, size := numAt hd 16 4,
                  own := if prodEnd then numAt hd 0 8 else numAt hd 8 8, other := if prodEnd then numAt hd 8 8 else numAt hd 0 8,
                  ended := !prodEnd && numAt hd 28 4 == 1, corrupt := false,
                  stream := old.bind ChanEnd.stream, inflight := (old.map ChanEnd.inflight).getD 0
                  recv := old.bind ChanEnd.recv, ready := old.any ChanEnd.ready }
              if e.bad hd then
                match s2.chanCorrupt s2.cur e with
                | (s3, .held) => .next s3.wait
                | (s3, _) => .next (s3.advance 8)
              else
                let s3 := s2.modReg s2.cur (fun g => g.setChan e)
                if prodEnd then
                  match s3.chanWrite s3.cur e 0x1C 4 0 with
                  | (s4, .held) => .next s4.wait
                  | (s4, _) => .next (s4.advance 8)
                else .next (s3.advance 8)
    | _, _ => .next (s.trap Cause.chnRange 0 info)

/-- The checks that send and receive share, before they look at the header, in the order in which R311 names them (R311, R312; DEDUCED,
log 23). -/
def chanOpFault (e : Option ChanEnd) (producer : Bool) (addr len : Word) (least : Nat) : Option (BitVec 9 × Word) :=
  match e with
  | none => some (Cause.chnNotOpen, 0)
  | some e =>
    if e.producer != producer || e.stream.isSome then some (Cause.chnNotOpen, 0)
    else if e.corrupt then some (Cause.chnCorrupt, BitVec.ofNat 64 e.header)
    else if len.toNat < least || (producer && decide (2 ^ e.size < len.toNat)) then some (Cause.chnRange, 0)
    else if !(aligned 32 addr.toNat) then some (Cause.misaligned, addr)
    else if !(aligned 64 len.toNat) then some (Cause.misaligned, len)
    else none

/-- A transfer between memory and a ring (R311). -/
def State.chanCopy (s : State) (e : ChanEnd) (kind addr slots first : Nat) : Copy :=
  { index := 0, src := addr, dst := addr, len := 64 * slots, bitmap := none, tag := none, acq := true, rel := true, scope := 4,
    region := s.cur, part := (s.owner s.cur).getD 48, chan := some (e.num, kind), ring := some (e.header, ringSlots e.size, first) }

/-- chn.send (R311). -/
def execChnSend (a b : BitVec 5) (k : BitVec 3) (ch : BitVec 12) (s : State) : Out :=
  s.guarded k 8 fun s =>
    let info := leadOf (.chnSend a b k ch)
    let src := s.seq.gr a
    let len := s.seq.gr b
    if s.engineHeld s.cur then .next s.wait
    else match chanOpFault ((s.reg s.cur).chan? ch.toNat) true src len 0 with
      | some (c, v) => .next (s.trap c v info)
      | none =>
        match (s.reg s.cur).chan? ch.toNat with
        | none => .next s
        | some e0 =>
          match s.chanRead s.cur e0 with
          | (s1, .fault c v) => .next (s1.trap c (BitVec.ofNat 64 v) info)
          | (s1, .held) => .next s1.wait
          | (s1, .ok none) => .next s1.wait
          | (s1, .ok (some e)) =>
            let slots := len.toNat / 64
            if ringSlots e.size - (e.own + e.inflight - e.other) < slots || decide (16 ≤ (s1.reg s1.cur).copies.length) then
              .next s1.wait
            else if slots = 0 then .next (s1.advance 8)
            else
              .next ((s1.modReg s1.cur (fun g =>
                (g.setChan { e with inflight := e.inflight + slots }).enqueue
                  (s1.chanCopy e 0 src.toNat slots (e.own + e.inflight)))).advance 8)

/-- chn.recv: it waits for data, for its copy, and for the index write (R311). -/
def execChnRecv (d a b : BitVec 5) (k : BitVec 3) (ch : BitVec 12) (s : State) : Out :=
  s.guarded k 8 fun s =>
    let info := leadOf (.chnRecv d a b k ch)
    let dst := s.seq.gr a
    let len := s.seq.gr b
    if s.engineHeld s.cur then .next s.wait
    else match chanOpFault ((s.reg s.cur).chan? ch.toNat) false dst len 64 with
      | some (c, v) => .next (s.trap c v info)
      | none =>
        match (s.reg s.cur).chan? ch.toNat with
        | none => .next s
        | some e0 =>
          match e0.recv with
          | some m =>
            if !e0.ready then .next s.wait
            else
              let e := { e0 with own := e0.own + m, recv := none, ready := false }
              match s.chanWrite s.cur e0 8 8 e.own with
              | (s1, .held) => .next s1.wait
              | (s1, .fault _ _) => .next (s1.modReg s1.cur (fun g => g.setChan { e0 with corrupt := true, recv := none, ready := false })).wait
              | (s1, .ok ()) => .next ((s1.modReg s1.cur (fun g => g.setChan e)).setG d (BitVec.ofNat 64 (64 * m)) 8)
          | none =>
            match s.chanRead s.cur e0 with
            | (s1, .fault c v) => .next (s1.trap c (BitVec.ofNat 64 v) info)
            | (s1, .held) => .next s1.wait
            | (s1, .ok none) => .next s1.wait
            | (s1, .ok (some e)) =>
              if e.other ≤ e.own then
                if e.ended then .next (s1.setG d 0 8) else .next s1.wait
              else if 16 ≤ (s1.reg s1.cur).copies.length then .next s1.wait
              else
                let m := Nat.min (e.other - e.own) (len.toNat / 64)
                .next (s1.modReg s1.cur (fun g =>
                  (g.setChan { e with recv := some m }).enqueue (s1.chanCopy e 1 dst.toNat m e.own))).wait

/-- chn.close (R311). -/
def execChnClose (k : BitVec 3) (ch : BitVec 12) (s : State) : Out :=
  s.guarded k 8 fun s =>
    let n := ch.toNat
    let drop := fun (st : State) => (st.modReg st.cur (fun g => { g with chans := g.chans.filter (fun e => e.num != n) })).advance 8
    match (s.reg s.cur).chan? n with
    | none => .next (s.advance 8)
    | some e =>
      if e.inflight != 0 || e.recv.isSome then .next s.wait
      else if !e.producer then .next (drop s)
      else match s.chanWrite s.cur e 0x1C 4 1 with
        | (s1, .held) => .next s1.wait
        | (s1, _) => .next (drop s1)

/-- The chn.stat word (R311). DEDUCED (log 130): a number of slots below 0, on a corrupt channel, is taken modulo 2^56, the field's width. -/
def ChanEnd.status (e : ChanEnd) : Word :=
  let ahead : Int := if e.producer then (e.own : Int) - e.other else (e.other : Int) - e.own
  let slots := ((if e.producer then (ringSlots e.size : Int) - ahead else ahead) % 2 ^ 56).toNat
  BitVec.ofNat 64 (packNat [(1, 1), (1, e.producer.toNat), (1, e.ended.toNat), (1, e.corrupt.toNat), (4, 0), (56, slots)])

/-- An end reads its header for chn.stat: one that it holds as corrupt stays so, with what it reads (R311, R312). -/
def State.chanLook (s : State) (r : Nat) (e : ChanEnd) : State × Got (Option ChanEnd) :=
  if e.corrupt then
    match s.readVA (s.chanWho r) e.header 64 with
    | (s1, .ok bs) => (s1.modReg r (fun g => g.setChan (e.read bs)), .ok (some (e.read bs)))
    | (s1, .fault c a) => (s1, .fault c a)
    | (s1, .held) => (s1, .held)
  else s.chanRead r e

/-- chn.stat: the word tells what this read of the header found (R311). -/
def execChnStat (d : BitVec 5) (k : BitVec 3) (ch : BitVec 12) (s : State) : Out :=
  s.guarded k 8 fun s =>
    let info := leadOf (.chnStat d k ch)
    let n := ch.toNat
    if ((s.replayOf s.cur).map Replay.chcount).getD 0 ≤ n then .next (s.trap Cause.chnRange 0 info)
    else match (s.reg s.cur).chan? n with
      | none => .next (s.setG d 0 8)
      | some e =>
        match s.chanLook s.cur e with
        | (s1, .fault c v) => .next (s1.trap c (BitVec.ofNat 64 v) info)
        | (s1, .held) => .next s1.wait
        | (s1, .ok _) => .next (s1.setG d ((((s1.reg s1.cur).chan? n).getD e).status) 8)

/-! ## The end of a copy -/

/-- The slots of a send have been written: prod advances (R311). -/
def State.chanSent (s : State) (r : Nat) (c : Copy) (num : Nat) : State :=
  match (s.reg r).chan? num with
  | none => s.modReg r (fun g => g.dropCopy c.index)
  | some e =>
    let m := c.len / 64
    let e1 := { e with own := e.own + m, inflight := e.inflight - m }
    match s.chanWrite r e 0 8 e1.own with
    | (s1, .held) => s1
    | (s1, .fault _ _) => s1
    | (s1, .ok ()) => s1.modReg r (fun g => (g.dropCopy c.index).setChan e1)

/-- The end of a copy: its release, then its tag (R307); a channel transfer ends as R311 says, in the order of its
channel. -/
def State.copyDone (s : State) (r : Nat) (c : Copy) : State :=
  match c.chan with
  | some (n, 0) =>
    if (s.reg r).copies.any (fun x => x.chan == c.chan && x.index != c.index && decide (x.ring != c.ring) &&
        ((s.reg r).copies.takeWhile (fun y => y.index != c.index)).contains x) then s
    else s.chanSent r c n
  | some (n, _) =>
    s.modReg r (fun g =>
      let g1 := g.dropCopy c.index
      match g1.chan? n with
      | some e => g1.setChan { e with ready := true }
      | none => g1)
  | none =>
    let s1 := s.modReg r (fun g => g.dropCopy c.index)
    match c.tag with
    | some t => s1.tagEvent r t 0 255
    | none => s1

/-- COPY_COMPLETION (R307). -/
def execCopyCompletion (r c : Nat) (s : State) : Out :=
  if r < 192 then
    match (s.reg r).copy? c with
    | none => .next s
    | some x => if x.finished then .next (s.copyDone r x) else .next s
  else .fault .noSuchUnit

/-- Whether one of these copies of a region still has sectors to send, so that a frame behind them has not left (R147). -/
def Region.unsent (r : Region) (after : List Nat) : Bool :=
  r.copies.any (fun c => after.contains c.index && c.done.length != c.len / 32)

/-- RANK_ACK: the destination has acknowledged a frame (R147). -/
def State.rankAck (s : State) (p id : Nat) : State :=
  match s.part? p with
  | none => s
  | some v =>
    match v.frames.find? (fun f => f.id == id) with
    | none => s
    | some f =>
      if (s.reg f.src).unsent f.after then s else
      let s1 := s.setPart p { v with frames := v.frames.filter (fun g => g.id != id) }
      match f.copy, f.body with
      | some i, .sector off _ =>
        s1.modReg f.src (fun g =>
          match g.copy? i with
          | none => g
          | some c =>
            let sector := (off - (c.dst - 0xFF2000000000) % 0x200000) / 32
            g.setCopy ({ c with acked := natInsert c.acked sector }.afterSector sector))
      | _, _ => s1

/-- RANK_ACK (R147). -/
def execRankAck (p frame : Nat) (s : State) : Out := if p < 48 then .next (s.rankAck p frame) else .fault .noSuchUnit

/-- RANK_FRAME_RETRANSMISSION: an unacknowledged frame is sent again, and its bytes are counted again (R147, R150). -/
def State.retransmit (s : State) (p id : Nat) : State :=
  match (s.part? p).bind (fun v => v.frames.find? (fun f => f.id == id)) with
  | none => s
  | some f =>
    if (s.reg f.src).unsent f.after then s
    else
      (s.modPart p (fun v =>
        { v with frames := v.frames.map (fun g => if g.id = id then { g with sends := g.sends + 1 } else g) })).meter p (dieOf f.src)
        (fun c => { c with fabric := c.fabric + frameBytes f.body })

/-- RANK_FRAME_RETRANSMISSION (R147). -/
def execRankFrameRetransmission (p frame : Nat) (s : State) : Out :=
  if p < 48 then .next (s.retransmit p frame) else .fault .noSuchUnit

end Sys2Proof.Machine
end

