-- ==== Sys2Proof/Machine/Messages.lean ====
section
/-!
DEFINITION. Arrivals: signals (R326), done tokens (R52), evaluations of armed tags (R325), words at the region router
(R320), frames of other packages (R145, R147), returns to landing slots (R327) and orphans (R381).
-/
namespace Sys2Proof.Machine

/-- The state code of a tile (R379). -/
def Region.tileState (r : Region) (t : Nat) : Nat := (spGet ({} : Tile) r.tiles t).state
/-- Whether a tile is live: HEALTHY, SUSPECT or PROBATION (R376, R379). -/
def tileLive (c : Nat) : Bool := c == 0 || c == 1 || c == 5
/-- Whether a signal to a region comes back: the region has retired, or its sequencer is isolated (R326). -/
def State.unreachable (s : State) (r : Nat) : Bool :=
  s.pkg.retired.getLsbD r || !(tileLive ((s.reg r).tileState 352))

/-- Whether the links to a region's router are closed (R376, R381). -/
def State.routerDown (s : State) (r : Nat) : Bool := !(tileLive ((s.reg r).tileState 353))

/-- Whether a die graph of a partition is saved with a stage on a region (R326). -/
def DieGraph.savedOn (d : DieGraph) (r : Nat) : Bool :=
  d.saved.any (fun l => l.region == r)

/-- Whether a saved die graph of a replay holds the tag table that a signal is aimed at (R326). -/
def DieGraph.takesSignal (d : DieGraph) (num : Nat) (g : Signal) : Bool :=
  d.saved.any (fun l => l.region == g.dst && match g.target with | none => true | some t => t.1 == num && t.2 == l.stage)

/-- Holds a signal for the saved tag table that it is aimed at; one to a rank goes to the oldest record of its region (R326). -/
def Part.holdSignal (v : Part) (g : Signal) : Part :=
  match v.replays.find? (fun y => y.dgs.any (fun d => d.takesSignal y.num g)) with
  | none => v
  | some x => { v with replays := v.replays.map (fun y =>
      if y.num = x.num then
        let i := y.dgs.findIdx (fun d => d.takesSignal y.num g)
        { y with dgs := y.dgs.zipIdx.map (fun (e : DieGraph × Nat) => if e.2 = i then { e.1 with held := e.1.held ++ [g] } else e.1) }
      else y) }

/-- Whether a region's part of the stage that is placed there has completed (R390). -/
def State.partDone (s : State) (r : Nat) (pl : Placement) : Bool :=
  ((s.part? pl.part).bind (fun v => v.stageOf pl)).any (fun g => g.done.contains r)

/-- Whether the stage that a signal is aimed at is placed on its region and has not completed there (R326, R390). -/
def State.signalLands (s : State) (g : Signal) : Bool :=
  match (s.reg g.dst).place with
  | none => false
  | some pl =>
    pl.part == g.part && !(s.partDone g.dst pl) && match g.target with | none => true | some t => t.1 == pl.replay && t.2 == pl.stage

/-- A signal reaches its target: applied, held for a saved table, or discarded (R326, R390). -/
def State.applySignal (s : State) (g : Signal) : State :=
  if s.signalLands g then s.tagEvent g.dst g.tag g.mode g.src
  else s.modPart g.part (fun v => v.holdSignal g)

/-- Takes the oldest signal from one issuer to one target out of flight (R326). -/
def State.takeSignal (s : State) (src dst : Nat) : Option (Signal × State) :=
  match s.pkg.signals.find? (fun g => g.src == src && g.dst == dst) with
  | none => none
  | some g => some (g, s.modPkg (fun k => { k with signals := k.signals.filter (fun x => x.num != g.num) }))

/-- REMOTE_SIGNAL (R326). -/
def State.remoteSignal (s : State) (src dst : Nat) : State :=
  if s.unreachable dst then s
  else match s.takeSignal src dst with
    | none => s
    | some (g, s1) => s1.applySignal g

/-- REMOTE_SIGNAL (R326). -/
def execRemoteSignal (src dst : Nat) (s : State) : Out :=
  if src < 192 ∧ dst < 192 then .next (s.remoteSignal src dst) else .fault .noSuchUnit

/-- DONE_TOKEN: the oldest token unblocks its completion tag, once every rmw operation that the region's blocks have sent has
been applied (R52, R318, R321). A token is the event that ends a yield. -/
def State.doneToken (s : State) (r : Nat) : State :=
  match (s.reg r).tokens with
  | [] => s
  | t :: ts => if s.rmwBusy r then s else s.modReg r (fun g =>
      { g with tokens := ts, seq := { g.seq with wake := true } }.setTag t (g.tag t).unblock)

/-- DONE_TOKEN (R52). -/
def execDoneToken (r : Nat) (s : State) : Out := if r < 192 then .next (s.doneToken r) else .fault .noSuchUnit

/-- ARM_EVALUATION (R325). -/
def execArmEvaluation (r t : Nat) (s : State) : Out :=
  if r < 192 ∧ t < 256 then .next (s.evalArm r t) else .fault .noSuchUnit

/-! ## The region router (R320) -/

/-- A word as a receiving tile hands it to its consumer: a reserved kind becomes poison (R222). -/
def GWord.received (w : GWord) : GWord := if 5 ≤ w.kind.toNat then { w with kind := 3 } else w


/-- The bank of the latest cfg.run (R268). -/
def Region.bank (r : Region) (b : Bool) : Bank := if b then r.bankB else r.bankA
/-- Replaces a bank. -/
def Region.setBank (r : Region) (b : Bool) (v : Bank) : Region := if b then { r with bankB := v } else { r with bankA := v }

/-- Where the router puts a word that the region may take (R320). -/
inductive RouteTo
  | injection (i : Nat)
  | row (y : Nat)
  | wait
  deriving DecidableEq, Repr

/-- The number of the injection FIFO of island `i` of the block in a bank (R225). -/
def injKey (bank : Bool) (i : Nat) : Nat := i + 16 * bank.toNat

/-- The router's choice for a tag: the hold for a blocked tag and for a bound tag whose island the block in bank cur does not
have, the injection FIFO of an island of that block that has switched, otherwise a row FIFO (R320, R324). -/
def Region.routeTo (r : Region) (t : Nat) : RouteTo :=
  let v := r.tag t
  if v.b then .wait
  else match v.task with
    | none => .row (t % 16)
    | some i =>
      match (r.bank r.cur).islands[i]? with
      | some isl => if isl.started then .injection (injKey r.cur i) else .row (t % 16)
      | none => .wait

/-- Whether a tag is bound to an island that the block in bank cur does not have (R324). -/
def Region.islandMissing (r : Region) (t : Nat) : Bool :=
  match (r.tag t).task with
  | some i => ((r.bank r.cur).islands[i]?).isNone
  | none => false

/-- The router's choice for a word: one that the hold has kept for a missing island of its tag waits until a block with that island has
switched (R324). -/
def Region.routeFor (r : Region) (q : QWord) : RouteTo :=
  match r.routeTo q.w.tag.toNat with
  | .row y => if q.missed && (r.tag q.w.tag.toNat).task.isSome then .wait else .row y
  | x => x

/-- The held words of a tag that is bound to an island which the block in bank cur lacks are kept for one that has it (R324). -/
def Region.keepMissed (r : Region) : Region :=
  { r with hold := r.hold.map (fun q => if r.islandMissing q.w.tag.toNat then { q with missed := true } else q) }

/-- Whether the FIFO that a word goes to has room. -/
def Region.routeRoom (r : Region) (q : QWord) : Bool :=
  match r.routeFor q with
  | .injection i => decide ((spGet [] r.inj i).length < 8)
  | .row y => decide ((spGet [] r.rows y).length < 8)
  | .wait => false

/-- Puts a word into the FIFO that its tag chooses. -/
def Region.routePut (r : Region) (q : QWord) : Region :=
  match r.routeFor q with
  | .injection i => { r with inj := spInsert r.inj i (spGet [] r.inj i ++ [q]) }
  | .row y => { r with rows := spInsert r.rows y (spGet [] r.rows y ++ [q]) }
  | .wait => r

/-- Places a word that has just arrived; `none` when the router takes no word, as while the hold is full (R320). Words of one
tag keep their order: one that the hold still has a word of waits behind it, for the same island where that is missing (R324). A word of a reserved kind goes on as poison
(R222); a marker ends here (R359). -/
def Region.routeArrive (r : Region) (q0 : QWord) : Option Region :=
  let q := { q0 with w := q0.w.received, missed := false }
  let t := q.w.tag.toNat
  if 64 ≤ r.hold.length then none
  else if q.w.kind = 4 then some r
  else if r.routeTo t = .wait ∨ r.hold.any (fun h => h.w.tag == q.w.tag) then
    some { r with hold := r.hold ++ [{ q with missed := r.islandMissing t || r.hold.any (fun h => h.w.tag == q.w.tag && h.missed) }] }
  else if r.routeRoom q then some (r.routePut q) else none

/-- Takes the first word out of a list that meets a test. -/
def takeFirst {α : Type} (f : α → Bool) : List α → Option (α × List α)
  | [] => none
  | x :: xs => if f x then some (x, xs) else (takeFirst f xs).map (fun y => (y.1, x :: y.2))

/-- ROUTER_WORD_ARRIVAL: a held word whose tag has been unblocked goes first; otherwise the next word of the die mesh
or of the region itself (R320). -/
def Region.routerStep (r : Region) (mesh : Bool) : Region :=
  match takeFirst r.routeRoom r.hold with
  | some (q, rest) => { r with hold := rest }.routePut q
  | none =>
    match if mesh then r.mesh else r.loc with
    | [] => r
    | q :: qs =>
      match r.routeArrive q with
      | none => r
      | some r1 => if mesh then { r1 with mesh := qs } else { r1 with loc := qs }

/-- ROUTER_WORD_ARRIVAL (R320). -/
def execRouterWordArrival (r : Nat) (mesh : Bool) (s : State) : Out :=
  if r < 192 then .next (s.modReg r (fun g => g.routerStep mesh)) else .fault .noSuchUnit

/-! ## Other packages (R145, R147) -/

/-- A port drops a packet whose key does not match, and logs it (R145). -/
def State.dropPacket (s : State) (port key : Nat) : State :=
  s.modPkg (fun k => { k with drops := k.drops + 1, lastDrops := ((port, key, s.tick) :: k.lastDrops).take 16 })

/-- KEY_MISMATCH (R145): ports 0 to 15 are the fabric ports; the numbers from 16 on stand for the routers' input ports. DESIGN CHOICE (log
114): the spec numbers none of these, and the log gives a port two bytes. -/
def execKeyMismatch (port key : Nat) (s : State) : Out :=
  if port < 65536 ∧ key < 65536 then .next (s.dropPacket port key) else .fault .noSuchUnit

/-- The partition that holds a key. -/
def State.keyHolder (s : State) (key : Nat) : Option Nat :=
  (s.parts.find? (fun e => e.2.key.toNat == key)).map Prod.fst

/-- RANK_FRAME_ARRIVAL: the port checks the key; the region takes the signal or the sector for its live or saved
state, or discards it; a signal names the region that sent it (R145, R147, R318, R326). -/
def State.frameArrival (s : State) (port key region : Nat) (body : RankBody) : State :=
  match s.keyHolder key with
  | none => s.dropPacket port key
  | some p =>
    match body with
    | .signal t m src =>
      (s.applySignal { part := p, src := src.toNat, dst := region, tag := t.toNat, mode := m.toNat, num := 0 }).meter p (dieOf region)
        (fun c => { c with fabric := c.fabric + frameBytes body })
    | .sector off bytes =>
      (s.landSector p region off bytes).meter p (dieOf region) (fun c => { c with fabric := c.fabric + frameBytes body })

/-- Whether a frame names a region as the sender of its signal (R19, R318). -/
def senderOk : RankBody → Bool
  | .signal _ _ src => decide (src.toNat < 192)
  | .sector _ _ => true

/-- RANK_FRAME_ARRIVAL (R147). -/
def execRankFrameArrival (port key region : Nat) (body : RankBody) (s : State) : Out :=
  if port < 16 ∧ key < 65536 ∧ region < 192 ∧ senderOk body = true then .next (s.frameArrival port key region body) else .fault .noSuchUnit

/-! ## Returns and orphans (R327, R381) -/

/-- Changes the saved state of a region in every saved record of a replay. -/
def Part.modSaved (v : Part) (num r : Nat) (f : Region → Region) : Part :=
  { v with replays := v.replays.map (fun y => if y.num = num then { y with dgs := y.dgs.map (fun d =>
      { d with saved := d.saved.map (fun l => if l.region = r then { l with img := f l.img } else l) }) } else y) }

/-- Changes a region of a replay, live or saved. -/
def State.modIssuer (s : State) (p replay r : Nat) (f : Region → Region) : State :=
  match (s.reg r).place with
  | some pl =>
    if pl.part = p ∧ pl.replay = replay then s.modReg r f else s.modPart p (fun v => v.modSaved replay r f)
  | none => s.modPart p (fun v => v.modSaved replay r f)

/-- The saved sequencer of a region of a replay. -/
def Part.savedSeq (v : Part) (replay r : Nat) : Option Seq :=
  (((v.replays.filter (fun y => y.num == replay)).flatMap (fun y => y.dgs.flatMap DieGraph.saved)).find? (fun l => l.region == r)).map
    (fun l => l.img.seq)

/-- Queues a cause in the saved state of a region; a full queue is fatal at the saved sequencer's pc (R186 to R188, R362). -/
def State.queueSaved (s : State) (p replay r : Nat) (c : Pend) : State :=
  match (s.part? p).bind (fun v => v.savedSeq replay r) with
  | none => s
  | some q =>
    if 16 ≤ q.pending.length then
      s.fatal p { cause := causeNested, delivered := c.cause, region := r, resume := q.pc, first := q.pc, fva := c.fva }
    else s.modPart p (fun v => v.modSaved replay r (fun g => { g with seq := { g.seq with pending := g.seq.pending ++ [c] } }))

/-- Queues a cause at a region of a replay, live or saved (R188, R362). -/
def State.queueIssuer (s : State) (p replay r : Nat) (c : Pend) : State :=
  match (s.reg r).place with
  | some pl => if pl.part = p ∧ pl.replay = replay then s.queueCause r c else s.queueSaved p replay r c
  | none => s.queueSaved p replay r c

/-- A slot that is owed becomes full. -/
def Seq.fill (q : Seq) (n : Nat) (v : Word) : Seq :=
  let i : BitVec 4 := BitVec.ofNat 4 n
  if q.slot i = .owed then { q.setSlot i (.full v) with wake := true } else q

/-- A slot that is owed becomes empty (R328, R334). -/
def Seq.unowe (q : Seq) (n : Nat) : Seq :=
  let i : BitVec 4 := BitVec.ofNat 4 n
  if q.slot i = .owed then q.setSlot i .empty else q

/-- FOLD_RETURN: the oldest return for a region lands in its slot, live or saved, or is discarded (R327, R390). -/
def State.foldReturn (s : State) (r : Nat) : State :=
  match takeFirst (fun x => x.dst == r) s.pkg.returns with
  | none => s
  | some (x, rest) =>
    let s1 := s.modPkg (fun k => { k with returns := rest })
    s1.modIssuer x.part x.replay r (fun g => { g with seq := g.seq.fill x.slot x.val })

/-- FOLD_RETURN (R327). -/
def execFoldReturn (r : Nat) (s : State) : Out := if r < 192 then .next (s.foldReturn r) else .fault .noSuchUnit

/-- An operation is discarded: its owed slot returns to empty, and a cause is queued at its issuer (R334, R381, R382). -/
def State.discardFold (s : State) (m : FoldMsg) (c : Pend) : State :=
  let s1 := if m.r then s.modIssuer m.part m.replay m.issuer (fun g => { g with seq := g.seq.unowe m.slot }) else s
  s1.queueIssuer m.part m.replay m.issuer c

/-- ORPHAN_RETURN: a message that met a closed link comes back to its sender (R381). -/
def State.orphanReturn (s : State) (src dst : Nat) : State :=
  if s.unreachable dst && s.pkg.signals.any (fun g => g.src == src && g.dst == dst) then
    match s.takeSignal src dst with
    | none => s
    | some (g, s1) =>
      s1.queueIssuer g.part g.replay src { cause := Cause.orphanReturn, finfo := BitVec.ofNat 64 (g.tag + 256 * dst) }
  else
    match takeFirst (fun m => (m.orphan || s.routerDown dst) && m.issuer == src && m.owner.1 == dst) s.pkg.folds with
    | none => s
    | some (m, rest) =>
      (s.modPkg (fun k => { k with folds := rest })).discardFold m
        { cause := Cause.orphanReturn, fva := BitVec.ofNat 64 m.addr, finfo := if m.r then m.info else 0 }

/-- ORPHAN_RETURN (R381). -/
def execOrphanReturn (src dst : Nat) (s : State) : Out :=
  if src < 192 ∧ dst < 192 then .next (s.orphanReturn src dst) else .fault .noSuchUnit

end Sys2Proof.Machine
end

