-- ==== Sys2Proof/Machine/Streams.lean ====
section
/-!
DEFINITION. Stream descriptors and their checks (R119, R120, R286 to R292), the strm instructions (R296 to R304), and
extents (R170 to R172).
-/
namespace Sys2Proof.Machine

/-! ## Descriptors -/

/-- A descriptor read from its 64 bytes (R119). -/
def parseDesc (va : Nat) (bs : List Byte) : Desc :=
  let w := numAt bs 0 8
  { mode := w % 8, dir := w / 2 ^ 3 % 2, bmask := w.testBit 4, width := w / 2 ^ 5 % 64 + 1, planes := w / 2 ^ 11 % 8,
    tag := BitVec.ofNat 8 (w / 2 ^ 14), burst := if w / 2 ^ 22 % 64 = 0 then 64 else w / 2 ^ 22 % 64,
    index := w / 2 ^ 28 % 256, filter := w / 2 ^ 36 % 256, scale := signedOf 16 (w / 2 ^ 48), base := numAt bs 8 8 % 2 ^ 48,
    trip := (List.range 5).map (fun i => numAt bs (0x10 + 8 * i) 4),
    stride := (List.range 5).map (fun i => signedOf 32 (numAt bs (0x14 + 8 * i) 4)),
    bitmap := signedOf 32 (numAt bs 0x38 4),
    seed := if numAt bs 0x3C 4 = 0 then 1 else BitVec.ofNat 32 (numAt bs 0x3C 4), va := va }

/-- The delivered width (R71, R285). -/
def delivered (w : Nat) : Nat :=
  if w ≤ 16 then w + w % 2 else if w ≤ 32 then 32 else 64

/-- The number of steps, T (R286). -/
def Desc.total (d : Desc) : Nat := d.trip.foldl (· * ·) 1
/-- The width at which elements are delivered: 32 for indices of a coord stream (R288). -/
def Desc.dw (d : Desc) : Nat := if d.mode = 3 then 32 else delivered d.width
/-- The elements of a word (R285). -/
def Desc.perWord (d : Desc) : Nat := if d.dw = 6 then 8 else 64 / d.dw
/-- The elements of a memory word, for w below 8 (R285). -/
def Desc.perMem (d : Desc) : Nat := if d.width = 6 then 8 else 64 / d.width
/-- Whether memory is counted in 64-bit words (R285). -/
def Desc.small (d : Desc) : Bool := decide (d.width < 8)
/-- The bytes of a container, or of a memory word (R285). -/
def Desc.container (d : Desc) : Nat := if d.small then 8 else (delivered d.width + 7) / 8

/-- Whether a filter handle is legal for a mode and direction (R120, R289). -/
def filterLegal (mode dir f : Nat) : Bool :=
  !(decide (128 ≤ f) && decide (f < 255)) && !(mode == 4 && f == 255) &&
    (f == 255 || mode == 4 || (dir == 1 && (mode == 0 || mode == 2)))

/-- The cases of R120 that give STRM_MODE_ILLEGAL. -/
def descIllegal (bs : List Byte) (d : Desc) : Bool :=
  decide (numAt bs 0 8 / 2 ^ 44 % 16 ≠ 0) || decide (numAt bs 8 8 / 2 ^ 48 ≠ 0) ||
    (d.dir == 1 && (d.mode == 1 || d.mode == 3 || d.mode == 4 || d.mode == 5 || d.mode == 6)) ||
    (d.dir == 0 && (d.mode == 2 || d.mode == 7)) ||
    (decide (128 ≤ d.index) && decide (d.index < 255)) || (d.index == 255 && (d.mode == 1 || d.mode == 2)) ||
    (decide (128 ≤ d.filter) && decide (d.filter < 255)) || (d.filter == 255 && d.mode == 4) ||
    (d.mode == 5 && (decide (d.width % 2 ≠ 0) || decide (16 < d.width) || decide (d.width / 2 < d.planes + 1))) ||
    (d.mode != 5 && d.planes != 0)

/-- The cases of R286, R288, R289 and R292 that give STRM_MODE_ILLEGAL, after those of R120 (R297). -/
def descModeIllegal (d : Desc) : Bool :=
  decide (2 ^ 48 ≤ d.total) || !(filterLegal d.mode d.dir d.filter) ||
    (d.mode == 3 && (!(d.width == 16 || d.width == 32) || (d.trip.drop 1).any (fun t => t != 1) || !(d.scale == 0 || d.scale == 1))) ||
    (d.bmask && d.dir == 1 && (d.mode == 0 || d.mode == 2) && d.width != 64)

/-! ## Which blocks and streams use a stream -/

/-- Stream `n` of a region. -/
def Region.stream (r : Region) (n : Nat) : Stream := spGet {} r.streams n
/-- Replaces a stream. -/
def Region.setStream (r : Region) (n : Nat) (v : Stream) : Region := { r with streams := spInsert r.streams n v }

/-- The bank whose running block binds a stream, with the bind entry (R272, R283). -/
def Region.binding (r : Region) (n : Nat) : Option (Bool × Bind) :=
  match r.bankA.bound.find? (fun b => b.stream == n) with
  | some b => some (false, b)
  | none => (r.bankB.bound.find? (fun b => b.stream == n)).map (fun b => (true, b))

/-- Whether a stream names another as its index or filter (R289). -/
def Stream.usesSource (v : Stream) (n : Nat) : Bool :=
  v.state != 0 && (((v.desc.mode == 1 || v.desc.mode == 2) && v.desc.index == n) || v.desc.filter == n)

/-- The sources of a stream (R289). -/
def Stream.sources (v : Stream) : List Nat :=
  (if v.desc.mode = 1 ∨ v.desc.mode = 2 then [v.desc.index] else []) ++ (if v.desc.filter = 255 then [] else [v.desc.filter])

/-- The consumer of a source among the open streams (R289). -/
def Region.consumer (r : Region) (n : Nat) : Option Nat :=
  (r.streams.find? (fun e => e.1 != n && e.2.usesSource n)).map Prod.fst

/-- Whether a stream is busy (R283). -/
def Region.busy (r : Region) (n : Nat) : Bool :=
  (r.binding n).isSome || (r.stream n).state == 2 ||
    r.streams.any (fun e => e.2.usesSource n && e.2.state == 2)

/-- The positions of a stream's sources, and of theirs, at the elements they will hand over next (R293). -/
def Region.srcsOf (r : Region) : Nat → Nat → List (Nat × Nat × Nat)
  | 0, _ => []
  | f + 1, n => (r.stream n).sources.flatMap (fun m =>
      let v := r.stream m
      match v.elems with
      | (_, c) :: _ => (m, c.pos, c.sub) :: c.srcs
      | [] => (m, v.cur.pos, v.cur.sub) :: r.srcsOf f m)

/-- The cursor of a stream, with the positions of its sources as they stand. -/
def Region.curOf (r : Region) (n : Nat) : Cursor := { (r.stream n).cur with srcs := r.srcsOf 128 n }

/-- The cursor of a dir-0 stream's first element that nothing has taken: in a word read ahead, in the word being packed, or one that it
has read as a source. -/
def Region.nextCursor (r : Region) (n : Nat) : Cursor :=
  let v := r.stream n
  match v.ahead, v.part, v.elems with
  | q :: _, _, _ => { q.cur with lfsr := v.cur.lfsr }
  | [], _ :: _, _ => { v.wordCur with lfsr := v.cur.lfsr }
  | [], [], (_, c) :: _ => { c with lfsr := v.cur.lfsr }
  | [], [], [] => r.curOf n

/-! ## Addresses of a step (R286, R287) -/

/-- The counters of a position, n0 first. -/
def counters : List Nat → Nat → List Nat
  | [], _ => []
  | t :: ts, p => p % t :: counters ts (p / t)

/-- Sum of counters times strides. -/
def dotStrides : List Nat → List Int → Int
  | n :: ns, s :: ss => n * s + dotStrides ns ss
  | _, _ => 0

/-- An integer address, modulo 2^64. -/
def wrap64 (x : Int) : Nat := (x % (2 ^ 64 : Nat)).toNat

/-- Whether a stream stores by byte masks (R292). -/
def Desc.masked (d : Desc) : Bool := d.bmask && d.dir == 1 && (d.mode == 0 || d.mode == 2)

/-- The address of a step; `x` is the index element of gather and scatter (R286, R287, R290). -/
def Desc.addr (d : Desc) (pos x : Nat) : Nat :=
  let ns := counters d.trip pos
  if d.mode = 1 ∨ d.mode = 2 then
    wrap64 (d.base + (ns.getD 0 0) * (d.stride.getD 0 0) + x * (d.stride.getD 1 0) + dotStrides (ns.drop 2) (d.stride.drop 2))
  else wrap64 (d.base + dotStrides ns d.stride)

/-- The address of a byte of a channel stream's data (R310, R313). -/
def ChanEnd.byteVA (e : ChanEnd) (first off : Nat) : Nat :=
  e.header + 0x40 + 64 * ((first + off / 64) % ringSlots e.size) + off % 64

/-- The address of the next step of a stream. -/
def Region.strmVA (r : Region) (n : Nat) : Nat :=
  let v := r.stream n
  match v.chan.bind r.chan? with
  | some e => e.byteVA v.cur.chan (v.desc.container * v.cur.pos)
  | none => v.desc.addr v.cur.pos v.cur.chan

/-! ## Extents (R170, R171) -/

/-- Adds the extent of a VA to a stream if a walk gives one now; a fault leaves the slot empty (R171). -/
def State.patchExtent (s : State) (p : Nat) (ext : List Xlate) (va : Nat) : List Xlate :=
  if inTierWindow va || (findXlate ext p va).isSome then ext
  else match s.part? p with
    | none => ext
    | some v => match s.walk v p va .read with
      | .ok x => cacheXlate ext (s.extentOf v x) 4
      | _ => ext

/-- Patches extents one after another from a VA, each where the one before ends; where a slot stays empty the search goes
on at the next 4 KiB page (R171, log 26). -/
def State.followExtents (s : State) (p : Nat) (up : Bool) : Nat → Nat → List Xlate → List Xlate
  | 0, _, ext => ext
  | n + 1, va, ext =>
    let ext1 := s.patchExtent p ext va
    match findXlate ext1 p va with
    | some x => s.followExtents p up n (if up then x.va + x.size else x.va - 1) ext1
    | none => s.followExtents p up n (if up then va / 4096 * 4096 + 4096 else va / 4096 * 4096 - 1) ext1

/-- The extents that strm.open patches: the one that holds the first element and, for the modes that walk in VA order,
up to three that follow it (R171). -/
def State.openExtents (s : State) (p : Nat) (d : Desc) (first : Nat) : List Xlate :=
  s.followExtents p (decide (0 ≤ d.stride.getD 0 0)) (if d.mode = 0 ∨ d.mode = 5 ∨ d.mode = 6 ∨ d.mode = 7 then 4 else 1) first []

/-! ## The strm instructions -/

/-- A command aimed at a busy stream waits, or faults with .nw (R296). -/
def State.strmBusy (s : State) (n : Nat) (nw : BitVec 1) (info : Word) (f : Out) : Out :=
  if (s.reg s.cur).busy n then
    if nw = 1 then .next (s.trap Cause.strmBindingBusy 0 info) else .next s.wait
  else f

/-- Closes a stream: its extents and its channel end are released (R300, R313). -/
def Region.closeStream (r : Region) (n : Nat) : Region :=
  let v := r.stream n
  let r1 := { r with streams := spErase r.streams n }
  match v.chan with
  | none => r1
  | some c => { r1 with chans := r1.chans.map (fun (e : ChanEnd) => if e.num = c then { e with stream := none } else e) }

/-- The checks of the channel modes at strm.open (R313). -/
def State.chanModeFault (s : State) (d : Desc) : Option (BitVec 9) :=
  if d.mode = 6 ∨ d.mode = 7 then
    let n := d.base % 2 ^ 12
    if d.base / 2 ^ 12 ≠ 0 ∨ ((s.replayOf s.cur).map Replay.chcount).getD 0 ≤ n then some Cause.chnRange
    else match (s.reg s.cur).chan? n with
      | none => some Cause.chnNotOpen
      | some e => if e.producer = (d.mode == 7) then none else some Cause.chnNotOpen
  else none

/-- Whether a strm.bar hold is in force (R299). -/
def Region.barred (r : Region) (n : Nat) : Bool :=
  (r.stream n).bars.any (fun m => (List.range 128).any (fun i => m.testBit i &&
    let st := (r.stream i).state
    !(st == 0 || st == 3 || st == 4)))

/-- The holds of strm.bar that are satisfied end (R299). Every operation that takes a stream out of states 0, 3 and 4 applies
this first, so a hold that was once satisfied does not come back. -/
def Region.endBars (r : Region) : Region :=
  { r with streams := r.streams.map (fun e => if r.barred e.1 then e else (e.1, { e.2 with bars := [] })) }

/-- The stream that strm.open latches (R297); one on a channel end that another stream holds takes the end (DESIGN CHOICE, log 137). -/
def State.openStream (s : State) (n : Nat) (d : Desc) : State :=
  s.modReg s.cur (fun g =>
    let g1 := (g.closeStream n).endBars
    let ch := if d.mode = 6 ∨ d.mode = 7 then some (d.base % 2 ^ 12) else none
    let g2 := match ch with
      | none => g1
      | some c => { g1 with chans := g1.chans.map (fun (e : ChanEnd) => if e.num = c then { e with stream := some n } else e) }
    let own := match ch.bind g2.chan? with | some e => e.own | none => 0
    let first := match ch.bind g2.chan? with | some e => e.byteVA own 0 | none => d.base
    g2.setStream n
      { state := 1, desc := d, cur := { lfsr := d.seed, chan := own }, chan := ch,
        extents := s.openExtents ((s.owner s.cur).getD 48) d first })

/-- strm.open (R297). -/
def execStrmOpen (n : BitVec 7) (a : BitVec 5) (nw : BitVec 1) (off : BitVec 32) (s : State) : Out :=
  let info := leadOf (.strmOpen n a nw off)
  s.strmBusy n.toNat nw info <|
    let v := s.seq.addr32 a off
    if !(aligned 64 v) then .next (s.trap Cause.misaligned (BitVec.ofNat 64 v) info)
    else match s.readVA { (s.seqWho s.cur) with unit := 0xFB } v 64 with
      | (s1, .fault c x) => .next (s1.trap c (BitVec.ofNat 64 x) info)
      | (s1, .held) => .next s1.wait
      | (s1, .ok bs) =>
        let d := parseDesc v bs
        if descIllegal bs d then .next (s1.trap Cause.strmModeIllegal 0 info)
        else if d.trip.any (fun t => t == 0) then .next (s1.trap Cause.strmCounterZero 0 info)
        else if descModeIllegal d then .next (s1.trap Cause.strmModeIllegal 0 info)
        else match s1.chanModeFault d with
          | some c => .next (s1.trap c 0 info)
          | none => .next ((s1.openStream n.toNat d).advance 8)

/-- Whether a source may be started with its consumer (R289). -/
def Region.sourceOk (r : Region) (consumer n : Nat) : Bool :=
  let v := r.stream n
  decide (n < 128) && n != consumer && v.state != 0 && v.desc.dir == 0 && (v.desc.mode == 0 || v.desc.mode == 3 || v.desc.mode == 4) &&
    (r.binding n).isNone && !(r.streams.any (fun e => e.1 != consumer && e.2.usesSource n))

/-- A stream goes back to its first element that nothing has taken, and what it has read ahead is discarded. -/
def Region.unread (r : Region) (n : Nat) : Region :=
  let v := r.stream n
  let c := r.nextCursor n
  r.setStream n { v with cur := c, elems := [], ahead := [], part := [], wordCur := c }

/-- Starts a stream in state 1 or 4, and with its flags each of its sources that is not running; one in another state is left as it is,
and so are its sources (R289, R298, R343). -/
def Region.startStream (r : Region) (n : Nat) (acq rel : Bool) (scope : Nat) : Region :=
  let go := fun (g : Region) (m : Nat) =>
    let v := g.stream m
    if v.state = 1 ∨ v.state = 4 then
      g.setStream m { v with state := 2, acq := acq, rel := rel, scope := scope, paused := false, need := none, ended := false }
    else g
  if (r.stream n).state = 1 ∨ (r.stream n).state = 4 then go ((r.srcsOf 128 n).foldl (fun g e => go g e.1) r.endBars) n else r

/-- strm.go (R298, R289). -/
def execStrmGo (n : BitVec 7) (nw acq rel : BitVec 1) (scope : BitVec 3) (s : State) : Out :=
  let info := leadOf (.strmGo n nw acq rel scope)
  s.strmBusy n.toNat nw info <|
    let r := s.reg s.cur
    let v := r.stream n.toNat
    if v.state = 0 then .next (s.trap Cause.strmNotOpen 0 info)
    else if !(v.sources.all (r.sourceOk n.toNat)) then .next (s.trap Cause.strmModeIllegal 0 info)
    else .next ((s.modReg s.cur (fun g => g.startStream n.toNat (acq == 1) (rel == 1) (regionScope scope.toNat))).advance 8)

/-- The mask of strm.bar (R299). -/
def barMask (a b : Word) : Nat := a.toNat + b.toNat * 2 ^ 64
/-- The streams that a mask names. -/
def maskStreams (m : Nat) : List Nat := (List.range 128).filter (fun i => m.testBit i)

/-- strm.bar (R299). -/
def execStrmBar (n : BitVec 7) (a b : BitVec 5) (nw : BitVec 1) (s : State) : Out :=
  let info := leadOf (.strmBar n a b nw)
  let r := s.reg s.cur
  let m := barMask (s.seq.gr a) (s.seq.gr b)
  if (r.stream n.toNat).state = 0 then .next (s.trap Cause.strmNotOpen 0 info)
  else if m = 0 ∨ m.testBit n.toNat ∨ (maskStreams m).any (fun i => (r.stream i).state == 0) then
    .next (s.trap Cause.strmBarMask 0 info)
  else
    .next ((s.modReg s.cur (fun g =>
      let g1 := g.endBars
      let v := g1.stream n.toNat
      g1.setStream n.toNat { v with bars := v.bars ++ [m] })).advance 8)

/-- strm.close (R300). -/
def execStrmClose (n : BitVec 7) (nw : BitVec 1) (s : State) : Out :=
  s.strmBusy n.toNat nw (leadOf (.strmClose n nw)) <|
    .next ((s.modReg s.cur (fun g => g.closeStream n.toNat)).advance 8)

/-- strm.pos (R301). -/
def execStrmPos (n : BitVec 7) (a : BitVec 5) (s : State) : Out :=
  .next (s.setG a (BitVec.ofNat 64 ((s.reg s.cur).stream n.toNat).cur.pos) 8)

/-- The status word of a stream (R301). -/
def Region.streamStatus (r : Region) (n : Nat) : Word :=
  let v := r.stream n
  let src := r.streams.any (fun e => e.2.usesSource n)
  if v.state = 0 then BitVec.ofNat 64 (packNat [(3, 0), (1, (r.binding n).isSome.toNat), (1, src.toNat)])
  else BitVec.ofNat 64 (packNat [(3, v.state), (1, (r.binding n).isSome.toNat), (1, src.toNat), (1, (r.barred n).toNat),
    (1, v.paused.toNat), (1, v.desc.dir), (3, v.desc.mode), (5, 0), (48, v.cur.pos)])

/-- strm.stat (R301). -/
def execStrmStat (n : BitVec 7) (a : BitVec 5) (s : State) : Out :=
  .next (s.setG a ((s.reg s.cur).streamStatus n.toNat) 8)

/-- strm.seek (R302): the LFSR is not changed. The sum of g[a] and the offset is exact (R8); one below 0 is out of range too (log 91). -/
def execStrmSeek (n : BitVec 7) (a : BitVec 5) (nw : BitVec 1) (off : BitVec 32) (s : State) : Out :=
  let info := leadOf (.strmSeek n a nw off)
  s.strmBusy n.toNat nw info <|
    let v := (s.reg s.cur).stream n.toNat
    let p := s.seq.addr32 a off
    if v.state = 0 then .next (s.trap Cause.strmNotOpen 0 info)
    else if v.desc.mode ≠ 0 ∧ v.desc.mode ≠ 5 then .next (s.trap Cause.strmModeIllegal 0 info)
    else if v.desc.total < p then .next (s.trap Cause.strmPosRange 0 info)
    else
      let ext := s.openExtents ((s.owner s.cur).getD 48) v.desc (v.desc.addr p 0)
      .next ((s.modReg s.cur (fun g =>
        let g1 := g.endBars
        let w := g1.stream n.toNat
        g1.setStream n.toNat
          { w with state := 1, cur := { pos := p, lfsr := v.cur.lfsr }, extents := ext, ahead := [], part := [], elems := [], marks := [],
                   need := none, paused := false, ended := false })).advance 8)

/-- strm.filt (R304). -/
def execStrmFilt (n : BitVec 7) (f : BitVec 8) (nw : BitVec 1) (s : State) : Out :=
  let info := leadOf (.strmFilt n f nw)
  s.strmBusy n.toNat nw info <|
    let v := (s.reg s.cur).stream n.toNat
    if v.state = 0 then .next (s.trap Cause.strmNotOpen 0 info)
    else if !(filterLegal v.desc.mode v.desc.dir f.toNat) then .next (s.trap Cause.strmModeIllegal 0 info)
    else .next ((s.modReg s.cur (fun g => g.setStream n.toNat { v with desc := { v.desc with filter := f.toNat } })).advance 8)

/-- A block with a bind entry in the place of any that the stream held (R303). -/
def Block.addBind (b : Block) (e : Bind) : Option Block :=
  let rest := b.binds.filter (fun x => x.stream != e.stream)
  if rest.any (fun x => x.kind == e.kind && x.pos == e.pos) || decide (128 ≤ rest.length) then none
  else some { b with binds := rest ++ [e] }

/-- strm.bind (R303). -/
def execStrmBind (n : BitVec 7) (kind pos idx : BitVec 8) (nw : BitVec 1) (s : State) : Out :=
  let info := leadOf (.strmBind n kind pos idx nw)
  s.strmBusy n.toNat nw info <|
    let r := s.reg s.cur
    let bk := r.bank (!r.cur)
    match bk.state, bk.img with
    | 1, some b =>
      if 5 < kind.toNat ∨ 15 < pos.toNat ∨ 15 < idx.toNat then .next (s.trap Cause.blockMalformed 0 info)
      else match b.addBind { stream := n.toNat, kind := kind.toNat, pos := pos.toNat, idx := idx.toNat } with
        | none => .next (s.trap Cause.blockMalformed 0 info)
        | some b' =>
          let v := r.stream n.toNat
          let ext := if v.state = 0 then v.extents else s.patchExtent ((s.owner s.cur).getD 48) v.extents (r.strmVA n.toNat)
          .next ((s.modReg s.cur (fun g =>
            let g1 := g.setBank (!g.cur) { bk with img := some b' }
            if v.state = 0 then g1 else g1.setStream n.toNat { v with extents := ext })).advance 8)
    | _, _ => .next (s.trap Cause.cfgNoBlock 0 info)

end Sys2Proof.Machine
end

