-- ==== Sys2Proof/Machine/Sys.lean ====
section
/-!
DEFINITION. The sys, csr and trap groups (R198, R199, R217, R218).
-/
namespace Sys2Proof.Machine

/-- nop (R198). -/
def execNop (k : BitVec 3) (s : State) : Out := s.guarded k 4 fun s => .next (s.advance 4)

/-- brk: Trap(BRK), resuming at the next instruction (R186, R198). -/
def execBrk (k : BitVec 3) (s : State) : Out :=
  s.guarded k 4 fun s => .next (s.trapNext Cause.brk 4 (leadOf (.brk k)))

/-- end: fetch stops, and pc stays at the end (R188, R198). -/
def execEnd (k : BitVec 3) (s : State) : Out :=
  s.guarded k 4 fun s => .next (s.mod fun q => { q with run := .ended, waitFrom := none })

/-- The ticks of 4,096 cycles of the fabric clock, 1.3 cycles a tick (R4, R198). -/
def yieldCyclesPassed (since now : Nat) : Bool := decide (4096 * 10 ≤ (now - since) * 13)

/-- yield: waits for a wake event or 4,096 cycles (R198). -/
def execYield (k : BitVec 3) (s : State) : Out :=
  s.guarded k 4 fun s =>
    match s.seq.waitFrom with
    | none => .next (State.wait (s.mod fun q => { q with wake := false }))
    | some t =>
      if s.seq.wake || yieldCyclesPassed t s.tick then .next (s.mod fun q => { q.advance 4 with wake := false })
      else .next s.wait

/-- The handler of a voiding cause has ended: nothing waits for its eret any longer (R353). -/
def Bank.afterEret (b : Bank) : Bank :=
  { b with voids := b.voids.filter (fun v => match v with | .eret _ true => false | _ => true) }

/-- What eret does to the region: the return, and the end of the waits for it (R198, R353). -/
def Region.eret (r : Region) : Region :=
  { r with seq := r.seq.eret, bankA := r.bankA.afterEret, bankB := r.bankB.afterEret }

/-- eret (R198). -/
def execEret (k : BitVec 3) (s : State) : Out :=
  s.guarded k 4 fun s =>
    if s.seq.handler then .next (s.modReg s.cur Region.eret)
    else .next (s.trap Cause.eretOutside 0 (leadOf (.eret k)))

/-- time (R198). -/
def execTime (d : BitVec 5) (k : BitVec 3) (s : State) : Out :=
  s.guarded k 4 fun s => .next (s.setG d (BitVec.ofNat 64 s.tick) 4)

/-- whoami (R199). -/
def execWhoami (d : BitVec 5) (k : BitVec 3) (s : State) : Out :=
  s.guarded k 4 fun s => .next (s.setG d s.identity 4)

/-- The four csr operations (R217): `new` is what is written, if anything is. -/
def State.csrOp (s : State) (d : BitVec 5) (c : BitVec 12) (info : Word) (new : Option (Word → Word)) : State :=
  match s.csr c.toNat with
  | none => s.trap Cause.csrIllegal 0 info
  | some old =>
    match new with
    | none => s.setG d old 4
    | some f =>
      if csrReadOnly c.toNat then s.trap Cause.csrReadonly 0 info
      else s.mod (fun q => ((q.csrWrite c.toNat (f old)).gw d old).advance 4)

/-- csrr (R217). -/
def execCsrr (d : BitVec 5) (c : BitVec 12) (s : State) : Out :=
  .next (s.csrOp d c (leadOf (.csrr d c)) none)
/-- csrw (R217). -/
def execCsrw (d a : BitVec 5) (c : BitVec 12) (s : State) : Out :=
  .next (s.csrOp d c (leadOf (.csrw d a c)) (some fun _ => s.seq.gr a))
/-- csrs (R217). -/
def execCsrs (d a : BitVec 5) (c : BitVec 12) (s : State) : Out :=
  .next (s.csrOp d c (leadOf (.csrs d a c)) (some fun old => old ||| s.seq.gr a))
/-- csrc (R217). -/
def execCsrc (d a : BitVec 5) (c : BitVec 12) (s : State) : Out :=
  .next (s.csrOp d c (leadOf (.csrc d a c)) (some fun old => old &&& ~~~(s.seq.gr a)))

/-- trap (R218, R110): TRAP_0 + imm14[3:0], FINFO the immediate. -/
def execTrap (i : BitVec 14) (s : State) : Out :=
  .next (s.trapNext (Cause.trap0 + (i.setWidth 4).setWidth 9) 4 (i.setWidth 64))

end Sys2Proof.Machine
end

