-- ==== Sys2Proof/Machine/Fetch.lean ====
section
/-!
DEFINITION. Fetching an instruction (R191 to R194), the decode fault (R93), the delivery of a queued cause (R188) and
the end of a yield after 4,096 cycles (R198).
-/
namespace Sys2Proof.Machine

/-! ## The instruction cache (R191, R193) -/

/-- The fetch cause of an access fault (R193). -/
def fetchCause (c : BitVec 9) : BitVec 9 :=
  if c = Cause.fetchExecDenied then c
  else if c = Cause.s2Abort then Cause.fetchS2
  else if c = Cause.s1Invalid then Cause.fetchS1
  else Cause.fetchEcc

/-- The 64 bytes of the line at a VA: from the cache, as it was filled or as memory holds it now (log 9), or from
memory, which fills the line (R191). -/
def State.fetchLine (s : State) (r va : Nat) : State × Got (List Byte) :=
  match (s.reg r).icache.find? (fun l => l.va == va) with
  | some l =>
    let now := s.mem.readN 64 l.pa
    (s, .ok (if l.bytes == now || Config.staleLine s.steps va then l.bytes else now))
  | none =>
    match s.reach (s.seqWho r) va .fetch with
    | (s1, .fault c a) => (s1, .fault (fetchCause c) a)
    | (s1, .held) => (s1, .held)
    | (s1, .ok pa) =>
      match s1.physFault pa 64 .fetch with
      | some c => (s1, .fault (fetchCause c) va)
      | none =>
        let bytes := s1.mem.readN 64 pa
        let s2 := s1.modReg r (fun g => { g with icache := ({ va := va, pa := pa, bytes := bytes } :: g.icache).take 512 })
        (s2.countBytes (s.seqWho r).part pa 64, .ok bytes)

/-- The instruction word at an address, through its line. -/
def State.fetchWord (s : State) (r : Nat) (va : Word) : State × Got IWord :=
  let a := va.toNat
  match s.fetchLine r (a / 64 * 64) with
  | (s1, .ok bs) => (s1, .ok (BitVec.ofNat 32 (numAt bs (a % 64) 4)))
  | (s1, .fault c _) => (s1, .fault c a)
  | (s1, .held) => (s1, .held)

/-- The operand words of an instruction, from its second word on. -/
def State.fetchWords (s : State) (r : Nat) : Nat → Word → State × Got (List IWord)
  | 0, _ => (s, .ok [])
  | n + 1, va =>
    match s.fetchWord r va with
    | (s1, .ok w) =>
      match s1.fetchWords r n (va + 4) with
      | (s2, .ok ws) => (s2, .ok (w :: ws))
      | x => x
    | (s1, .fault c a) => (s1, .fault c a)
    | (s1, .held) => (s1, .held)

/-! ## An instruction -/

/-- What a fetch at pc gives: an instruction, a decode fault with the lead word, a fetch fault with FVA and FINFO, or
nothing yet (R192 to R194). -/
inductive Fetched
  | instr (i : Instr)
  | reject (e : Reject) (lead : IWord)
  | fault (cause : BitVec 9) (fva finfo : Word)
  | held
  deriving DecidableEq, Repr

/-- The cause of a decode fault (R93). -/
def rejectCause : Reject → BitVec 9
  | .lenIllegal => Cause.lenIllegal
  | .majorIllegal => Cause.majorIllegal
  | .fnIllegal => Cause.fnIllegal
  | .fieldReserved => Cause.fieldReserved
  | .orderIllegal => Cause.orderIllegal
  | .scopeIllegal => Cause.scopeIllegal
  | .truncated => Cause.lenIllegal

/-- Fetches and decodes the instruction at pc in the order of R93 and R192. -/
def State.fetch (s : State) (r : Nat) : State × Fetched :=
  let pc := (s.reg r).seq.pc
  match s.fetchWord r pc with
  | (s1, .fault c a) => (s1, .fault c (BitVec.ofNat 64 a) 0)
  | (s1, .held) => (s1, .held)
  | (s1, .ok w) =>
    match decodeLength w with
    | .error e => (s1, .reject e w)
    | .ok n =>
      match s1.fetchWords r (n / 4 - 1) (pc + 4) with
      | (s2, .fault c a) => (s2, .fault c (BitVec.ofNat 64 a) (w.setWidth 64))
      | (s2, .held) => (s2, .held)
      | (s2, .ok ws) =>
        match decodeWords n w (ws.getD 0 0) (ws.getD 1 0) with
        | .error e => (s2, .reject e w)
        | .ok i => (s2, .instr i)

/-- DECODE_FAULT: the fetch at pc faults, or its words are no instruction (R93, R186, R193). -/
def State.decodeFault (s : State) : State :=
  let pc := s.seq.pc
  match s.fetch s.cur with
  | (s1, .reject e w) => s1.deliver s1.cur (rejectCause e) pc pc 0 (w.setWidth 64)
  | (s1, .fault c a info) => s1.deliver s1.cur c pc pc a info
  | (s1, .held) => s1.fetchHeld
  | (_, .instr _) => s

/-- DECODE_FAULT (R93). -/
def execDecodeFault (s : State) : Out := if s.cur < 192 then .next s.decodeFault else .fault .noSuchUnit

/-! ## The delivery of a queued cause (R188) -/

/-- The first void of a cause whose handler has not been entered (R353). -/
def enterVoid (c : BitVec 9) : List VoidWait → Option (List VoidWait)
  | [] => none
  | .eret d false :: vs => if d = c then some (.eret d true :: vs) else (enterVoid c vs).map (fun x => .eret d false :: x)
  | v :: vs => (enterVoid c vs).map (fun x => v :: x)

/-- The handler of a cause is entered: the void that waits for its eret is marked (R353). -/
def Region.enterVoid (r : Region) (c : Pend) : Region :=
  match c.voids with
  | none => r
  | some bank =>
    match Machine.enterVoid c.cause (r.bank bank).voids with
    | some vs => r.setBank bank { r.bank bank with voids := vs }
    | none => r

/-- A waiting chn.recv is abandoned with no effect: its copy and its place are given up (R188, R311). -/
def Region.abandonRecv (r : Region) : Region :=
  { r with
    copies := r.copies.filter (fun c => match c.chan with | some (_, 1) => false | _ => true)
    chans := r.chans.map (fun e => { e with recv := none, ready := false }) }

/-- What the sequencer of a region does next (R188, R195, R196). -/
inductive Ready
  | none | cause | fetch
  deriving DecidableEq, Repr

/-- Nothing is issued while nothing is placed, after a fatal cause, behind a marker, and after end; a pending cause
goes before the next fetch (R188, R195, R355, R359). -/
def State.ready (s : State) (r : Nat) : Ready :=
  let g := s.reg r
  let live := match (s.owner r).bind s.part? with
    | some v => match v.state with | .ready => true | .migratingOut => true | .migratingIn => true | _ => false
    | Option.none => false
  if !live || g.marker then .none
  else match g.seq.run with
    | .idle => .none
    | .halted => .none
    | .ended => if !g.seq.handler && !g.seq.pending.isEmpty then .cause else .none
    | _ => if !g.seq.handler && !g.seq.pending.isEmpty then .cause else .fetch

/-- CAUSE_DELIVERY: the oldest pending cause is delivered; one that voided rounds marks the void whose replay its handler's
eret begins (R188, R353). -/
def State.causeDelivery (s : State) (r : Nat) : State :=
  let g := s.reg r
  match g.seq.pending with
  | [] => s
  | c :: cs =>
    if s.ready r = .cause then
      let g1 := if g.seq.run = .waiting then g.abandonRecv else g
      let s1 := s.setReg r { g1.enterVoid c with seq := { g.seq with pending := cs } }
      s1.deliver r c.cause g.seq.pc g.seq.pc c.fva c.finfo
    else s

/-- CAUSE_DELIVERY (R188). -/
def execCauseDelivery (r : Nat) (s : State) : Out := if r < 192 then .next (s.causeDelivery r) else .fault .noSuchUnit

/-- YIELD_TIMEOUT: a yield that has waited 4,096 cycles continues (R198). -/
def State.yieldTimeout (s : State) (r : Nat) : State :=
  let q := (s.reg r).seq
  match q.run, q.waitFrom with
  | .waiting, some t =>
    if yieldCyclesPassed t s.tick && s.ready r == .fetch then
      match s.fetch r with
      | (s1, .instr (.yield _)) => s1.modSeq r (fun q => { q.advance 4 with wake := false })
      | _ => s
    else s
  | _, _ => s

/-- YIELD_TIMEOUT (R198). -/
def execYieldTimeout (r : Nat) (s : State) : Out := if r < 192 then .next (s.yieldTimeout r) else .fault .noSuchUnit

end Sys2Proof.Machine
end

