-- ==== Sys2Proof/Machine/Launch.lean ====
section
/-!
DEFINITION. Replays: the launch instruction (R58, R59), the begin of a replay with its checks and its frame (R41, R42, R55
to R57, R153 to R155), and the end of a replay (R56, R391).
-/
namespace Sys2Proof.Machine

/-! ## Acceptance (R55, R58, R59) -/

/-- A party that belongs to no region: the launcher is unit 0xFC, XD and the command processor unit 0xFD (R168). -/
def outsideWho (p unit : Nat) : Who := { part := p, region := none, unit := unit }

/-- The frame at acceptance: state 0 and the replay number (R56). -/
def State.writeAccepted (s : State) (w : Who) (frame n : Nat) : State × Got Unit :=
  match s.writeNum w frame 8 0 with
  | (s1, .ok ()) => s1.writeNum w (frame + 8) 8 n
  | x => x

/-- The number of a queue: host queues are 0 to 15, device launch queues 16 to 19. -/
def Source.id : Source → Nat
  | .host q => q
  | .device p => 16 + p

/-- A replay is accepted under the next number (R55). -/
def Part.accept (v : Part) (src : Source) (prio graph frame : Nat) : Part :=
  { v with counter := v.counter + 1, lastOf := spInsert v.lastOf src.id v.counter,
           replays := v.replays ++ [{ num := v.counter, src := src, prio := prio, graph := graph, frame := frame, prev := spGet 0 v.lastOf src.id }] }

/-- Whether a device launch queue holds its 16 entries (R59). -/
def Part.deviceFull (v : Part) (prio : Nat) : Bool :=
  decide (16 ≤ (v.replays.filter (fun y => y.src == .device prio && !y.begun && y.aborting.isNone)).length)

/-- The translations that launch makes: the graph object to read, the frame to write (R58). DESIGN CHOICE (log 112): of what an access
of that size meets they take the causes of the tier window and of the translation, and a host refusal or poison is met at begin. -/
def State.launchReach (s : State) (w : Who) (g f : Nat) : State × Got Unit :=
  match s.reach w g .read with
  | (s1, .fault c a) => (s1, .fault c a)
  | (s1, .held) => (s1, .held)
  | (s1, .ok _) =>
    if (match s1.part? w.part with | some v => inWindow v f 64 | none => false) then (s1, .fault Cause.foldForeignWrite f)
    else match s1.reach w f .write with
      | (s2, .fault c a) => (s2, .fault c a)
      | (s2, .held) => (s2, .held)
      | (s2, .ok _) => (s2, .ok ())

/-- launch (R58). -/
def execLaunch (d a b : BitVec 5) (prio : BitVec 2) (nw : BitVec 1) (k : BitVec 3) (immG immF : BitVec 32) (s : State) : Out :=
  s.guarded k 12 fun s =>
    let info := leadOf (.launch d a b prio nw k immG immF)
    let g := s.seq.addr32 a immG
    let f := s.seq.addr32 b immF
    let w := s.seqWho s.cur
    if s.held s.cur then .next s.wait
    else if !(aligned 256 g) then .next (s.trap Cause.misaligned (BitVec.ofNat 64 g) info)
    else if !(aligned 64 f) then .next (s.trap Cause.misaligned (BitVec.ofNat 64 f) info)
    else match s.launchReach w g f with
      | (s1, .fault c x) => .next (s1.trap c (BitVec.ofNat 64 x) info)
      | (s1, .held) => .next s1.wait
      | (s1, .ok ()) =>
        match s1.part? w.part with
        | none => .next s1.wait
        | some v =>
          if v.deviceFull prio.toNat then
            if nw = 1 then .next (s1.trap Cause.launchFull 0 info) else .next s1.wait
          else match s1.writeAccepted w f v.counter with
            | (s2, .fault c x) => .next (s2.trap c (BitVec.ofNat 64 x) info)
            | (s2, .held) => .next s2.wait
            | (s2, .ok ()) =>
              .next ((s2.modPart w.part (fun u => u.accept (.device prio.toNat) prio.toNat g f)).setG d (BitVec.ofNat 64 v.counter) 12)

/-! ## The graph object (R41, R42, R153, R154) -/

/-- Whether `n` bytes at an offset are zero. -/
def zeroAt (bs : List Byte) (off n : Nat) : Bool := numAt bs off n == 0

/-- The checks of a graph header (R41, R42). -/
def graphHeaderOk (bs : List Byte) : Bool :=
  let dgs := numAt bs 6 1
  numAt bs 0 4 == 0x59474F42 && numAt bs 4 2 == 1 && decide (1 ≤ dgs) && decide (dgs ≤ 4) && zeroAt bs 7 1 &&
    decide (1 ≤ numAt bs 8 2) && decide (numAt bs 8 2 ≤ 1024) && zeroAt bs 0x0A 6 && aligned 64 (numAt bs 0x10 8) &&
    aligned 64 (numAt bs 0x18 4) && decide (numAt bs 0x18 4 ≤ 65536) && zeroAt bs 0x1C 4 && aligned 64 (numAt bs 0x20 8) &&
    (numAt bs 0x28 2 != 0 || zeroAt bs 0x20 8) && decide (numAt bs 0x28 2 ≤ 4096) && zeroAt bs 0x2A 22 && zeroAt bs 0x60 160 &&
    (List.range 4).all (fun i => if i < dgs then aligned 64 (numAt bs (0x40 + 8 * i) 8) else zeroAt bs (0x40 + 8 * i) 8)

/-- The checks of a die-graph header (R153). -/
def dgHeaderOk (bs : List Byte) : Bool :=
  numAt bs 0 4 == 0x59444752 && numAt bs 4 2 == 1 && decide (numAt bs 6 1 < 4) && zeroAt bs 7 1 && decide (1 ≤ numAt bs 8 2) &&
    decide (numAt bs 8 2 ≤ 1024) && decide (1 ≤ numAt bs 0x0A 2) && decide (numAt bs 0x0A 2 ≤ 48) && zeroAt bs 0x0C 52

/-- The checks of a stage record (R154). -/
def stageOk (total : Nat) (bs : List Byte) : Bool :=
  decide (numAt bs 0 2 < total) && decide (1 ≤ numAt bs 3 1) && decide (numAt bs 3 1 ≤ 48) && zeroAt bs 4 4 &&
    aligned 4 (numAt bs 8 8) && aligned 64 (numAt bs 0x10 8) && zeroAt bs 0x18 8

/-- A stage record (R154). -/
def stageAt (bs : List Byte) : StageRec :=
  { index := numAt bs 0 2, number := numAt bs 2 1, width := numAt bs 3 1, entry := numAt bs 8 8, save := numAt bs 0x10 8 }

/-- The 32-byte records of a list of bytes. -/
def records32 (bs : List Byte) (n : Nat) : List (List Byte) := (List.range n).map (fun i => (bs.drop (32 * i)).take 32)

/-- A read of the launcher, or the cause that aborts the replay (R42). -/
def State.launcherRead (s : State) (p n k va : Nat) : State × Got (List Byte) := s.readMany (outsideWho p 0xFC) n k va

/-- The regions of a partition on a die that are present and unretired (R155, R156). -/
def State.usable (s : State) (v : Part) (die : Nat) : List Nat :=
  (List.range 48).filterMap (fun j =>
    let r := 48 * die + j
    if v.regions.getLsbD r && s.pkg.fusedRegions.getLsbD r && s.presentDie die && !(s.pkg.retired.getLsbD r) then some r else none)

/-- Reads and checks one die-graph descriptor (R153 to R155). -/
def State.readDg (s : State) (p : Nat) (v : Part) (total va : Nat) (before : List DieGraph) : State × Got DieGraph :=
  match s.launcherRead p 64 1 va with
  | (s1, .fault c a) => (s1, .fault c a)
  | (s1, .held) => (s1, .held)
  | (s1, .ok h) =>
    if !(dgHeaderOk h) then (s1, .fault Cause.graphMalformed va)
    else match s1.launcherRead p 32 (numAt h 8 2) (va + 0x40) with
      | (s2, .fault c a) => (s2, .fault c a)
      | (s2, .held) => (s2, .held)
      | (s2, .ok bs) =>
        let recs := records32 bs (numAt h 8 2)
        let stages := recs.map stageAt
        let die := numAt h 6 1
        if !(recs.all (stageOk total)) || (stages.map StageRec.width).sum != numAt h 0x0A 2 || before.any (fun d => d.die == die) then
          (s2, .fault Cause.graphMalformed va)
        else if (s2.usable v die).length < numAt h 0x0A 2 then (s2, .fault Cause.dieUnavailable va)
        else (s2, .ok { die := die, stages := stages })

/-- Reads the die graphs of a header, in dgraph order (R155). -/
def State.readDgs (s : State) (p : Nat) (v : Part) (total : Nat) : List Nat → List DieGraph → State × Got (List DieGraph)
  | [], done => (s, .ok done)
  | va :: vas, done =>
    match s.readDg p v total va done with
    | (s1, .ok d) => s1.readDgs p v total vas (done ++ [d])
    | (s1, .fault c a) => (s1, .fault c a)
    | (s1, .held) => (s1, .held)

/-- Whether the stage indices of a graph are unique and as many as its header says (R39, R42). -/
def stagesAgree (dgs : List DieGraph) (total : Nat) : Bool :=
  let l := (dgs.flatMap DieGraph.stages).map StageRec.index
  decide (l.length = total) && decide l.Nodup

/-- Reads and checks the whole graph object: the replay as it begins, with the bytes of its snapshot (R42, R55, R57). DEDUCED (log
42): the reads come in the order in which R42 names them, and the first fault among reads and checks is the replay's. -/
def State.readGraph (s : State) (p : Nat) (v : Part) (y : Replay) : State × Got (Replay × List Byte) :=
  match s.launcherRead p 256 1 y.graph with
  | (s1, .fault c a) => (s1, .fault c a)
  | (s1, .held) => (s1, .held)
  | (s1, .ok h) =>
    if !(graphHeaderOk h) then (s1, .fault Cause.graphMalformed y.graph)
    else
      let total := numAt h 8 2
      match s1.launcherRead p 64 (numAt h 0x18 4 / 64) (numAt h 0x10 8) with
      | (s2, .fault c a) => (s2, .fault c a)
      | (s2, .held) => (s2, .held)
      | (s2, .ok snap) =>
        match s2.readDgs p v total ((List.range (numAt h 6 1)).map (fun i => numAt h (0x40 + 8 * i) 8)) [] with
        | (s3, .fault c a) => (s3, .fault c a)
        | (s3, .held) => (s3, .held)
        | (s3, .ok dgs) =>
          let y1 := { y with begun := true, psize := numAt h 0x18 4, chtab := numAt h 0x20 8, chcount := numAt h 0x28 2, dgs := dgs }
          if !(stagesAgree dgs total) then (s3, .fault Cause.graphMalformed y.graph)
          else match s3.launcherRead p 32 y1.chcount y1.chtab with
            | (s4, .fault c a) => (s4, .fault c a)
            | (s4, .held) => (s4, .held)
            | (s4, .ok ch) =>
              if !((records32 ch y1.chcount).all (channelEntryOk y1)) then (s4, .fault Cause.graphMalformed y.graph)
              else (s4, .ok (y1, snap))

/-! ## REPLAY_BEGIN (R55, R56) -/

/-- The writes to the frame at begin: graph, tbegin, the snapshot, then state 1 (R56). DESIGN CHOICE (log 111): the bytes at 0x28 to
0x3F become zero together with graph. -/
def State.writeBegin (s : State) (p : Nat) (y : Replay) (snap : List Byte) : State × Got Unit :=
  let w := outsideWho p 0xFC
  match s.writeVA w (y.frame + 0x20) (toBytes 8 y.graph ++ toBytes 24 0) with
  | (s1, .ok ()) =>
    match s1.writeNum w (y.frame + 0x10) 8 s1.tick with
    | (s2, .ok ()) =>
      match s2.writeMany w (y.psize / 64) (y.frame + 0x40) snap with
      | (s3, .ok ()) => s3.writeNum w y.frame 8 1
      | x => x
    | x => x
  | x => x

/-- Changes a replay of a partition. -/
def State.modReplay (s : State) (p n : Nat) (f : Replay → Replay) : State :=
  s.modPart p (fun v => { v with replays := v.replays.map (fun y => if y.num = n then f y else y) })

/-- A replay has ended and counts no more (R55, R56, R134). -/
def State.dropReplay (s : State) (p n : Nat) : State :=
  s.modPart p (fun v => { v with replays := v.replays.filter (fun y => y.num != n) })

/-- One write of an end: a fault loses it, a hold keeps the end waiting (R56). -/
def State.endWrite (s : State) (w : Who) (va n x : Nat) : State × Bool :=
  match s.writeNum w va n x with
  | (s1, .held) => (s1, false)
  | (s1, _) => (s1, true)

/-- The end of a replay: tend, the cause of an abort, and then state 2 or 3; a write that is held leaves the tick of the end as it
was first taken (R56, R391). -/
def State.endReplay (s0 : State) (p : Nat) (y : Replay) : State :=
  let w := outsideWho p 0xFC
  let t := y.tend.getD s0.tick
  let s := s0.modReplay p y.num (fun x => { x with tend := some t })
  match s.endWrite w (y.frame + 0x18) 8 t with
  | (s1, false) => s1
  | (s1, true) =>
    match s1.endWrite w (y.frame + 4) 4 ((y.aborting.map BitVec.toNat).getD 0) with
    | (s2, false) => s2
    | (s2, true) =>
      match s2.endWrite w y.frame 4 (if y.aborting.isSome then 3 else 2) with
      | (s3, false) => s3
      | (s3, true) => s3.dropReplay p y.num

/-- A replay is aborted with a cause in its frame, and ends at the abort (R42, R56). -/
def State.abortReplay (s : State) (p : Nat) (y : Replay) (c : BitVec 9) : State :=
  (s.modReplay p y.num (fun x => { x with aborting := some c, tend := none })).endReplay p { y with aborting := some c, tend := none }

/-- Whether the launcher may take a replay from its queue: the oldest of its queue that has not begun, and fewer than 64
running (R55). -/
def Part.mayBegin (v : Part) (y : Replay) : Bool :=
  !y.begun && y.aborting.isNone && v.replays.all (fun x => x.src != y.src || x.begun || x.aborting.isSome || decide (y.num ≤ x.num)) &&
    decide ((v.replays.filter Replay.begun).length < 64)

/-- The die graphs of a partition: replay, index, die graph. -/
def Part.dieGraphs (v : Part) : List (Replay × Nat × DieGraph) :=
  v.replays.flatMap (fun y => y.dgs.zipIdx.map (fun (e : DieGraph × Nat) => (y, e.2, e.1)))

/-- Whether a die graph is placed, is being saved, or is saved. -/
def DieGraph.isPlaced (d : DieGraph) : Bool := match d.place with | .placed => true | _ => false
def DieGraph.isSaving (d : DieGraph) : Bool := match d.place with | .saving _ => true | _ => false
def DieGraph.isSaved (d : DieGraph) : Bool := match d.place with | .saved => true | .restoring => true | _ => false
def DieGraph.isWaiting (d : DieGraph) : Bool := match d.place with | .waiting => true | _ => false

/-- Whether a replay that has ended still writes its frame, and no stage-2 fault holds the write (R56, R167). -/
def Part.endOwed (v : Part) (y : Replay) : Bool :=
  y.tend.isSome && !(v.faults.any (fun f => f.unit == 0xFC && decide (y.frame ≤ f.va) && decide (f.va < y.frame + 64)))

/-- Whether every save of a suspension has ended, and the frames of the replays that have ended are written (R391, R396, log 99). -/
def Part.savesOver (v : Part) : Bool :=
  v.dieGraphs.all (fun e => !(e.2.2.isPlaced || e.2.2.isSaving)) && v.replays.all (fun y => !(v.endOwed y))

/-- Whether a partition stands still: the saves of its suspension have ended, and its memory stays as it is until it is resumed
(R396, R400, log 99). -/
def Part.still (v : Part) : Bool :=
  v.state == .suspended || v.state == .migratingOut || (v.suspending.isSome && v.savesOver)

/-- Whether the work of a partition goes on: state 0 or 3 of R138, and no suspension under way (R396). -/
def Part.runs (v : Part) : Bool := (v.state == .ready || v.state == .migratingIn) && v.suspending.isNone

/-- REPLAY_BEGIN (R55 to R57). -/
def State.replayBegin (s : State) (p n : Nat) : State :=
  match s.part? p with
  | none => s
  | some v =>
    match v.replays.find? (fun y => y.num == n) with
    | none => s
    | some y =>
      if !(v.mayBegin y) || !v.runs then s
      else if v.replays.any (fun x => x.begun && x.frame == y.frame) then s.dropReplay p n
      else match s.readGraph p v y with
        | (s1, .fault c _) => s1.abortReplay p y c
        | (s1, .held) => s1
        | (s1, .ok (y1, snap)) =>
          match s1.writeBegin p y1 snap with
          | (s2, .fault c _) => s2.abortReplay p y c
          | (s2, .held) => s2
          | (s2, .ok ()) => s2.modReplay p n (fun _ => y1)

/-- REPLAY_BEGIN (R55). -/
def execReplayBegin (p n : Nat) (s : State) : Out := if p < 48 then .next (s.replayBegin p n) else .fault .noSuchUnit

/-! ## REPLAY_COMPLETE (R391) -/

/-- Whether every stage of a die graph has completed. -/
def DieGraph.over (d : DieGraph) : Bool := match d.place with | .finished => true | _ => false

/-- Whether every stage of every die graph of a replay has completed (R391). -/
def Replay.over (y : Replay) : Bool := y.begun && !y.dgs.isEmpty && y.dgs.all DieGraph.over

/-- A replay whose last stage has just completed ends at this tick (R56, R391). -/
def State.stampEnd (s : State) (p n : Nat) : State :=
  s.modReplay p n (fun y => if y.over && y.tend.isNone then { y with tend := some s.tick } else y)

/-- A save or a write of a replay's end is over: the last of a suspension fixes tsusp, after which the partition's memory stays as it is
(R399, R400, log 99). -/
def State.stampSave (s : State) (p : Nat) : State :=
  s.modPart p (fun v => if v.suspending.isSome then { v with tsusp := s.tick } else v)

/-- REPLAY_COMPLETE: the end of a replay whose stages have all completed, or of one that was aborted (R56, R391). -/
def State.replayComplete (s : State) (p n : Nat) : State :=
  match s.part? p with
  | none => s
  | some v =>
    match v.replays.find? (fun y => y.num == n) with
    | none => s
    | some y =>
      if v.still then s
      else if y.aborting.isSome || y.over then (s.endReplay p y).stampSave p else s

/-- REPLAY_COMPLETE (R391). -/
def execReplayComplete (p n : Nat) (s : State) : Out := if p < 48 then .next (s.replayComplete p n) else .fault .noSuchUnit

end Sys2Proof.Machine
end

