-- ==== Sys2Proof/Machine/Numbers.lean ====
section
/-!
DEFINITION. The numbers of the grid: formats (R70 to R75), rounding (R76 to R80), exact partials (R83 to R86), fold
registers (R88 to R91) and the four functions of the edge units (R265).
-/
namespace Sys2Proof.Machine

/-! ## Formats -/

/-- What the top exponent of a format encodes (R73, R75). -/
inductive Specials
  | none | nan | ieee
  deriving DecidableEq, Repr

/-- A floating format: exponent and mantissa widths, bias, specials, largest finite encoding, the NaN the device
writes, and whether overflow saturates (R73, R75, R78). -/
structure Fmt where
  e : Nat
  m : Nat
  bias : Nat
  specials : Specials
  largest : Nat
  nan : Nat
  sat : Bool
  deriving DecidableEq, Repr

def fmtFP32 : Fmt := ⟨8, 23, 127, .ieee, 0x7F7FFFFF, 0x7FC00000, false⟩
def fmtBF16 : Fmt := ⟨8, 7, 127, .ieee, 0x7F7F, 0x7FC0, false⟩
def fmtFP16 : Fmt := ⟨5, 10, 15, .ieee, 0x7BFF, 0x7E00, false⟩
def fmtE2M1 : Fmt := ⟨2, 1, 1, .none, 0x7, 0x7, true⟩
def fmtE2M3 : Fmt := ⟨2, 3, 1, .none, 0x1F, 0x1F, true⟩
def fmtE3M2 : Fmt := ⟨3, 2, 3, .none, 0x1F, 0x1F, true⟩
def fmtE4M3 : Fmt := ⟨4, 3, 7, .nan, 0x7E, 0x7F, true⟩
def fmtE5M2 : Fmt := ⟨5, 2, 15, .ieee, 0x7B, 0x7F, true⟩

/-- A decoded number: NaN (signalling or not), an infinity, or a sign with a magnitude of `m` times 2 to `e`. -/
inductive Num
  | nan (signalling : Bool)
  | inf (neg : Bool)
  | fin (neg : Bool) (m : Nat) (e : Int)
  deriving DecidableEq, Repr

/-- The number that an encoding stands for (R73, R75). -/
def Fmt.decode (f : Fmt) (bits : Nat) : Num :=
  let neg := bits.testBit (f.e + f.m)
  let ex := bits / 2 ^ f.m % 2 ^ f.e
  let mant := bits % 2 ^ f.m
  let top := ex = 2 ^ f.e - 1
  if top ∧ f.specials = .ieee ∧ mant = 0 then .inf neg
  else if top ∧ f.specials = .ieee then .nan (!(mant.testBit (f.m - 1)))
  else if top ∧ f.specials = .nan ∧ mant = 2 ^ f.m - 1 then .nan false
  else if ex = 0 then .fin neg mant (1 - f.bias - f.m)
  else .fin neg (2 ^ f.m + mant) (ex - f.bias - f.m)

/-- Whether a number is a signalling NaN. -/
def Num.snan : Num → Bool
  | .nan s => s
  | _ => false
/-- Whether a number is a NaN. -/
def Num.isNan : Num → Bool
  | .nan _ => true
  | _ => false
/-- Whether a number is infinite. -/
def Num.isInf : Num → Bool
  | .inf _ => true
  | _ => false
/-- Whether a number is −0. -/
def Num.isNegZero : Num → Bool
  | .fin true 0 _ => true
  | _ => false
/-- The negative of a number. -/
def Num.neg : Num → Num
  | .nan s => .nan s
  | .inf n => .inf (!n)
  | .fin n m e => .fin (!n) m e
/-- A signed integer as a number. -/
def Num.ofInt (x : Int) : Num := .fin (decide (x < 0)) x.natAbs 0
/-- An MXINT8 element: its integer times 2^-6 (R73). -/
def mxint8 (bits : Nat) : Num :=
  let x := signedOf 8 bits
  .fin (decide (x < 0)) x.natAbs (-6)

/-! ## Rounding (R76, R77) -/

/-- The rounding modes; a stochastic rounding carries the 32 bits of its step (R76, R80). -/
inductive Rm
  | rne | rz | ru | rd
  | sr (step : Nat)
  deriving DecidableEq, Repr

/-- The mode of a code, with the step for code 4 (R76). -/
def rmOf (code step : Nat) : Rm :=
  match code with
  | 0 => .rne
  | 1 => .rz
  | 2 => .ru
  | 3 => .rd
  | _ => .sr step

/-- Whether a magnitude is rounded away from zero: `r` of `2^k` is dropped, and `sticky` says that more lies below. -/
def roundsUp (rm : Rm) (neg odd : Bool) (r k : Nat) (sticky : Bool) : Bool :=
  match rm with
  | .rne => decide (2 ^ k < 2 * r) || (decide (2 * r = 2 ^ k) && (sticky || odd))
  | .rz => false
  | .ru => !neg && (decide (r ≠ 0) || sticky)
  | .rd => neg && (decide (r ≠ 0) || sticky)
  | .sr step => decide (2 ^ 32 ≤ r * 2 ^ 32 / 2 ^ k + step)

/-- A magnitude in units of 2 to `q`, rounded. -/
def roundUnits (rm : Rm) (neg : Bool) (m : Nat) (e q : Int) (sticky : Bool) : Nat :=
  if q ≤ e then m * 2 ^ (e - q).toNat
  else
    let k := (q - e).toNat
    let t := m / 2 ^ k
    if roundsUp rm neg (decide (t % 2 = 1)) (m % 2 ^ k) k sticky then t + 1 else t

/-- The sign bit of a format. -/
def Fmt.signBit (f : Fmt) (neg : Bool) : Nat := if neg then 2 ^ (f.e + f.m) else 0

/-- The encoding that a value beyond the largest finite one takes (R77, R78). -/
def Fmt.overflow (f : Fmt) (rm : Rm) (neg : Bool) : Nat :=
  let inf := match rm with
    | .rne => true
    | .rz => false
    | .ru => !neg
    | .rd => neg
    | .sr _ => false
  f.signBit neg + (if inf && !f.sat then f.largest + 1 else f.largest)

/-- The encoding of an exact magnitude, rounded once, subnormals kept (R76, R77). -/
def Fmt.round (f : Fmt) (rm : Rm) (neg : Bool) (m : Nat) (e : Int) (sticky : Bool := false) : Nat :=
  let least : Int := 1 - f.bias - f.m
  let q := max least (Nat.log2 m + e - f.m)
  let bits := (q - least).toNat * 2 ^ f.m + roundUnits rm neg m e q sticky
  if m = 0 && !sticky then f.signBit neg
  else if f.largest < bits then f.overflow rm neg
  else f.signBit neg + bits

/-- The encoding of a number (R75, R77). -/
def Fmt.encode (f : Fmt) (rm : Rm) : Num → Nat
  | .nan _ => f.nan
  | .inf n => f.signBit n + (if f.specials = .ieee then 2 ^ f.m * (2 ^ f.e - 1) else f.largest)
  | .fin n m e => f.round rm n m e

/-! ## Arithmetic (R75, R77, R86, R248) -/

/-- An exact product. -/
def Num.mul : Num → Num → Num
  | .nan s, _ => .nan s
  | _, .nan s => .nan s
  | .inf a, .inf b => .inf (a != b)
  | .inf a, .fin b m _ => if m = 0 then .nan false else .inf (a != b)
  | .fin a m _, .inf b => if m = 0 then .nan false else .inf (a != b)
  | .fin a m e, .fin b n f => .fin (a != b) (m * n) (e + f)

/-- An exact sum; a zero of opposite signs is −0 in RD and +0 otherwise (R77). -/
def Num.add (rm : Rm) : Num → Num → Num
  | .nan s, _ => .nan s
  | _, .nan s => .nan s
  | .inf a, .inf b => if a = b then .inf a else .nan false
  | .inf a, .fin _ _ _ => .inf a
  | .fin _ _ _, .inf b => .inf b
  | .fin a m e, .fin b n f =>
    let q := min e f
    let sg := fun (s : Bool) (k : Nat) => (if s then -(k : Int) else (k : Int))
    let x := sg a (m * 2 ^ (e - q).toNat) + sg b (n * 2 ^ (f - q).toNat)
    if x = 0 then .fin (if a = b then a else decide (rm = .rd)) 0 0
    else .fin (decide (x < 0)) x.natAbs q

/-- Whether one finite or infinite number is below another; false with a NaN (R248). -/
def Num.lt (x y : Num) : Bool :=
  match x, y with
  | .nan _, _ => false
  | _, .nan _ => false
  | .inf a, .inf b => a && !b
  | .inf a, .fin _ _ _ => a
  | .fin _ _ _, .inf b => !b
  | _, _ => match Num.add .rne x y.neg with
    | .fin n m _ => n && m != 0
    | _ => false

/-- IEEE 754-2019 maximum, with −0 below +0 (R248). -/
def Num.maximum (x y : Num) : Num :=
  if x.isNan || y.isNan then .nan (x.snan || y.snan)
  else if x.lt y || (x.isNegZero && !(y.lt x)) then y else x
/-- IEEE 754-2019 minimum (R248). -/
def Num.minimum (x y : Num) : Num :=
  if x.isNan || y.isNan then .nan (x.snan || y.snan)
  else if y.lt x || (y.isNegZero && !(x.lt y)) then y else x

/-- An integer rounded from a number in a mode: toward the format's limits for infinities, 0 for NaN; the flag says that
it was clamped (R78, R79). -/
def Num.toInteger (rm : Rm) (lo hi : Int) : Num → Int × Bool
  | .nan _ => (0, false)
  | .inf n => (if n then lo else hi, true)
  | .fin n m e =>
    let k := roundUnits rm n m e 0 false
    let x : Int := if n then -(k : Int) else k
    (sat x lo hi, sat x lo hi != x)

/-! ## Stochastic rounding (R80) -/

/-- One step of an LFSR. -/
def lfsrStep (s : BitVec 32) : BitVec 32 :=
  if s.getLsbD 0 then (s >>> 1) ^^^ 0x80200003 else s >>> 1

/-! ## Exact partials (R83 to R85) -/

/-- The exponent of an MX partial's least significant bit (R83). -/
def mxWeight : Int := -32

/-- The signed value of a partial. -/
def Acc.toInt (a : Acc) : Int := a.val.toInt

/-- Adds an exact integer to a partial; a sum that leaves the range saturates and stays there until the next clear, and
the flag says that it was clamped (R84); the tag plays no part (DESIGN CHOICE, log 134). -/
def Acc.addInt (a : Acc) (x : Int) : Acc × Bool :=
  if a.stuck then (a, false)
  else
    let y := a.toInt + x
    let z := sat y (-(2 ^ 79)) (2 ^ 79 - 1)
    ({ a with val := BitVec.ofInt 80 z, stuck := z != y }, z != y)

/-- Adds a product of MX elements to a partial (R84). DESIGN CHOICE (log 134): a finite product leaves the bits of a tagged partial alone,
and a sum that leaves the range, after more than one block without scl, saturates and stays there without an event. -/
def Acc.addNum (a : Acc) (x : Num) : Acc :=
  if a.tag = 3 then a
  else match x with
    | .nan _ => { a with tag := 3 }
    | .inf n =>
      let t : BitVec 2 := if n then 2 else 1
      { a with tag := if a.tag = 0 ∨ a.tag = t then t else 3 }
    | .fin n m e =>
      if a.tag ≠ 0 then a
      else
        let k := m * 2 ^ (e - mxWeight).toNat
        (a.addInt (if n then -(k : Int) else k)).1

/-- FP32 addition, rounded once. -/
def addFP32 (rm : Rm) (a b : BitVec 32) : BitVec 32 :=
  BitVec.ofNat 32 (fmtFP32.encode rm (Num.add rm (fmtFP32.decode a.toNat) (fmtFP32.decode b.toNat)))

/-- A product added to an FP32 bank entry, rounded once (R86). -/
def addProduct (rm : Rm) (bank : BitVec 32) (x y : Num) : BitVec 32 :=
  BitVec.ofNat 32 (fmtFP32.encode rm (Num.add rm (fmtFP32.decode bank.toNat) (x.mul y)))

/-- The scaled value of a partial, as FP32 (R85). -/
def scalePartial (rm : Rm) (p : Acc) (xa xb : Nat) : BitVec 32 :=
  BitVec.ofNat 32 <|
    if xa = 0xFF ∨ xb = 0xFF ∨ p.tag = 3 then fmtFP32.nan
    else if p.tag = 1 then fmtFP32.encode rm (.inf false)
    else if p.tag = 2 then fmtFP32.encode rm (.inf true)
    else
      let x := p.toInt
      fmtFP32.round rm (decide (x < 0)) x.natAbs (mxWeight + (xa - 127) + (xb - 127))

/-! ## Fold registers (R88 to R91) -/

/-- The special state after an infinity or a NaN (R89). -/
def FoldSpecial.join (s : FoldSpecial) : Num → FoldSpecial
  | .nan _ => .nan
  | .inf n =>
    match s, n with
    | .none, false => .posInf
    | .none, true => .negInf
    | .posInf, false => .posInf
    | .negInf, true => .negInf
    | _, _ => .nan
  | .fin _ _ _ => s

/-- A finite number in units of 2^-149. -/
def foldUnits : Num → Int
  | .fin n m e => let k := m * 2 ^ (e + 149).toNat; if n then -(k : Int) else k
  | _ => 0

/-- An exact fold-add; the flag says that the sum saturated. `none` on a fast register (R89, R91). -/
def FoldReg.addExact (f : FoldReg) (x : Num) : Option (FoldReg × Bool) :=
  match f.kind with
  | .fast => Option.none
  | k =>
    let y := f.sum + foldUnits x
    let z := sat y (-(2 ^ 319)) (2 ^ 319 - 1)
    some ({ f with kind := .exact, sum := z, special := f.special.join x,
                   negZero := (k == .clear || f.negZero) && x.isNegZero }, z != y)

/-- A fast fold-add in arrival order; `none` on an exact register (R91). -/
def FoldReg.addFast (f : FoldReg) (x : Num) : Option FoldReg :=
  match f.kind with
  | .exact => Option.none
  | _ => some { f with kind := .fast
                       fp := BitVec.ofNat 32 (fmtFP32.encode .rne (Num.add .rne (fmtFP32.decode f.fp.toNat) x)) }

/-- The value that a fold register holds, to be rounded once (R90, R263). -/
def FoldReg.value (f : FoldReg) : Num :=
  match f.kind with
  | .fast => fmtFP32.decode f.fp.toNat
  | _ =>
    match f.special with
    | .nan => .nan false
    | .posInf => .inf false
    | .negInf => .inf true
    | .none => if f.sum = 0 then .fin f.negZero 0 0 else .fin (decide (f.sum < 0)) f.sum.natAbs (-149)

/-! ## The functions (R265) -/

/-- The integer square root of `n`, by its bits from `2^k` down. -/
def sqrtBits (n : Nat) : Nat → Nat → Nat
  | 0, r => r
  | k + 1, r => if (r + 2 ^ k) * (r + 2 ^ k) ≤ n then sqrtBits n k (r + 2 ^ k) else sqrtBits n k r
/-- The integer square root. -/
def intSqrt (n : Nat) : Nat := sqrtBits n (Nat.log2 n / 2 + 1) 0

/-- The working precision of exp2 and log2, in bits (log 19). -/
def funcBits : Nat := 320

/-- 2 to a fraction of `k` bits, in units of 2^-funcBits, rounded down: `r` is 2 to the weight of the next bit. -/
def exp2Frac : Nat → Nat → Nat → Nat → Nat
  | 0, _, _, y => y
  | k + 1, f, r, y =>
    let r' := intSqrt (r * 2 ^ funcBits)
    exp2Frac k f r' (if f.testBit k then y * r' / 2 ^ funcBits else y)

/-- exp2 of a finite number. -/
def exp2Fin (rm : Rm) (neg : Bool) (m : Nat) (e : Int) : Nat :=
  let k := (-e).toNat
  let x : Int := (if neg then -(m : Int) else m) * 2 ^ e.toNat
  let n := x / 2 ^ k
  let f := (x % 2 ^ k).toNat
  if m = 0 then fmtFP32.round rm false 1 0
  else if 256 ≤ n then fmtFP32.round rm false 1 256
  else if n < -256 then fmtFP32.round rm false (2 ^ funcBits) (-256 - funcBits) true
  else if f = 0 then fmtFP32.round rm false 1 n
  else fmtFP32.round rm false (exp2Frac k f (2 * 2 ^ funcBits) (2 ^ funcBits)) (n - funcBits) true

/-- The first `k` binary digits of log2 of `y` (between 1 and 2, in units of 2^-funcBits). -/
def log2Digits : Nat → Nat → Nat → Nat
  | 0, _, g => g
  | k + 1, y, g =>
    let z := y * y / 2 ^ funcBits
    if 2 ^ (funcBits + 1) ≤ z then log2Digits k (z / 2) (2 * g + 1) else log2Digits k z (2 * g)

/-- log2 of a positive number. -/
def log2Fin (rm : Rm) (m : Nat) (e : Int) : Nat :=
  let l := Nat.log2 m
  let n : Int := e + l
  if m = 2 ^ l then fmtFP32.round rm (decide (n < 0)) n.natAbs 0
  else
    let g := log2Digits 100 (m * 2 ^ funcBits / 2 ^ l) 0
    if 0 ≤ n then fmtFP32.round rm false (n.toNat * 2 ^ 100 + g) (-100) true
    else fmtFP32.round rm true ((-n).toNat * 2 ^ 100 - g - 1) (-100) true

/-- 1/x of a nonzero finite number. -/
def rcpFin (rm : Rm) (neg : Bool) (m : Nat) (e : Int) : Nat :=
  let k := 2 * Nat.log2 m + 64
  fmtFP32.round rm neg (2 ^ k / m) (-(k : Int) - e) (decide (2 ^ k % m ≠ 0))

/-- 1/√x of a positive number. -/
def rsqrtFin (rm : Rm) (m : Nat) (e : Int) : Nat :=
  let odd := e % 2 != 0
  let m' := if odd then 2 * m else m
  let e' := if odd then e - 1 else e
  let k := Nat.log2 m' + 64
  let r := intSqrt (2 ^ (2 * k) / m')
  fmtFP32.round rm false r (-(k : Int) - e' / 2) (decide (r * r * m' ≠ 2 ^ (2 * k)))

/-- exp2, log2, rcp and rsqrt, numbered 0 to 3, on an FP32 lane (R265). -/
def edgeFunction (which : Nat) (rm : Rm) (x : Nat) : Nat :=
  let f := fmtFP32
  let pinf := f.encode rm (.inf false)
  let ninf := f.encode rm (.inf true)
  match which, f.decode x with
  | _, .nan _ => f.nan
  | 0, .inf n => if n then 0 else pinf
  | 1, .inf n => if n then f.nan else pinf
  | 2, .inf n => f.signBit n
  | _, .inf n => if n then f.nan else 0
  | 0, .fin n m e => exp2Fin rm n m e
  | 1, .fin n m e => if m = 0 then ninf else if n then f.nan else log2Fin rm m e
  | 2, .fin n m e => if m = 0 then (if n then ninf else pinf) else rcpFin rm n m e
  | _, .fin n m e => if m = 0 then (if n then ninf else pinf) else if n then f.nan else rsqrtFin rm m e

end Sys2Proof.Machine
end

