-- ==== Sys2Proof/Machine/Grid.lean ====
section
/-!
DEFINITION. What the cells, the edge units and the streams of a region share: the FIFOs at the edge of the grid (R224,
R227, R252, R320), the rounds that hold effects (R350), and the voiding of rounds (R352, R353).
-/
namespace Sys2Proof.Machine

/-! ## FIFOs -/

/-- Edge unit of a row. -/
def Region.edge (r : Region) (y : Nat) : Edge := spGet {} r.edges y
/-- Replaces an edge unit. -/
def Region.setEdge (r : Region) (y : Nat) (e : Edge) : Region := { r with edges := spInsert r.edges y e }
/-- The cell at 16y + x. -/
def Region.cell (r : Region) (c : Nat) : Cell := spGet {} r.cells c
/-- Replaces a cell. -/
def Region.setCell (r : Region) (c : Nat) (v : Cell) : Region := { r with cells := spInsert r.cells c v }

/-- The FIFO of a bind kind and position (R116): north and south inputs, north and south outputs, edge input and
output. -/
def Region.boundFifo (r : Region) (kind pos : Nat) : List QWord :=
  match kind with
  | 0 => spGet [] r.memIn pos
  | 1 => spGet [] r.memIn (16 + pos)
  | 2 => spGet [] r.memOut pos
  | 3 => spGet [] r.memOut (16 + pos)
  | 4 => (r.edge pos).input
  | _ => (r.edge pos).out

/-- Replaces that FIFO. -/
def Region.setBoundFifo (r : Region) (kind pos : Nat) (l : List QWord) : Region :=
  match kind with
  | 0 => { r with memIn := spInsert r.memIn pos l }
  | 1 => { r with memIn := spInsert r.memIn (16 + pos) l }
  | 2 => { r with memOut := spInsert r.memOut pos l }
  | 3 => { r with memOut := spInsert r.memOut (16 + pos) l }
  | 4 => r.setEdge pos { r.edge pos with input := l }
  | _ => r.setEdge pos { r.edge pos with out := l }

/-- Whether a bind kind is an input of the grid. -/
def kindIn (kind : Nat) : Bool := kind == 0 || kind == 1 || kind == 4

/-- The head of a boundary FIFO, unless its tag is blocked in the region (R320). -/
def Region.present (r : Region) (l : List QWord) : Option QWord :=
  match l with
  | [] => none
  | q :: _ => if (r.tag q.w.tag.toNat).b then none else some q

/-! ## Rounds -/

/-- The last round of a block (R347). -/
def Block.lastRound (b : Block) : Nat :=
  let t := b.trip.getD (b.depth - 1) 1
  (t + b.round - 1) / b.round - 1

/-- The hold of a round. -/
def Bank.hold (b : Bank) (k : Nat) : RoundHold := (b.holds.find? (fun h => h.rnd == k)).getD { rnd := k }
/-- Changes the hold of a round. -/
def Bank.modHold (b : Bank) (k : Nat) (f : RoundHold → RoundHold) : Bank :=
  if b.holds.any (fun h => h.rnd == k) then { b with holds := b.holds.map (fun h => if h.rnd = k then f h else h) }
  else { b with holds := b.holds ++ [f { rnd := k }] }

/-- Whether a block runs: state 2 or 3 (R268). -/
def Bank.running (b : Bank) : Bool := b.state == 2 || b.state == 3
/-- Whether a running block waits for the replay of a voided round, or has stopped behind a marker (R353, R359). -/
def Bank.held (b : Bank) : Bool := b.voidTo.isSome || b.stopped

/-- The cells of a block, as 16y + x. -/
def Block.cellKeys (b : Block) : List Nat := b.cells.map (fun c => 16 * c.y + c.x)
/-- The rows with an edge record. -/
def Block.edgeRows (b : Block) : List Nat := b.edges.map EdgeRec.row

/-- The directed links of retiming FIFOs: the emitting cell's number times 4, plus its direction (N, E, S, W). -/
def linkKey (cell dir : Nat) : Nat := 4 * cell + dir

/-- The cell that a directed link leads to, inside the grid. -/
def neighbour (cell dir : Nat) : Option Nat :=
  let x := cell % 16
  let y := cell / 16
  match dir with
  | 0 => if y = 0 then none else some (cell - 16)
  | 1 => if x = 15 then none else some (cell + 1)
  | 2 => if y = 15 then none else some (cell + 16)
  | _ => if x = 0 then none else some (cell - 1)

/-- The island of a block that holds a cell. -/
def Block.islandOf (b : Block) (cell : Nat) : Option Nat :=
  (b.cells.find? (fun c => 16 * c.y + c.x == cell)).map CellRec.island

/-! ## Voiding (R352) -/

/-- The cursor of the first word of a dir-0 stream that the grid of a bank's block has not popped (R349). -/
def Region.inCursor (r : Region) (bank : Bool) (b : Bind) : Cursor :=
  let v := r.stream b.stream
  match (r.boundFifo b.kind b.pos).find? (fun q => q.bank == bank) with
  | some q => { q.cur with lfsr := v.cur.lfsr }
  | none => r.nextCursor b.stream

/-- What a round's checkpoint holds of a block's streams (R349). -/
def Region.streamChecks (r : Region) (bank : Bool) : List (Nat × Cursor) :=
  (r.bank bank).bound.map (fun e => (e.stream, if kindIn e.kind then r.inCursor bank e else (r.stream e.stream).cur))

/-- A stream goes back to a cursor: its read-ahead is discarded, and it runs again (R352). -/
def Stream.rewind (v : Stream) (c : Cursor) (left : List Nat) : Stream :=
  { v with cur := c, ahead := [], elems := [], part := left, wordCur := c, paused := false, need := none, ended := false,
           state := if v.state = 0 then 0 else 2 }

/-- The sources of a stream go back with it; a CSR walk reads the end of its row again (R293, R295, R352). -/
def Region.rewindSources (r : Region) (srcs : List (Nat × Nat × Nat)) : Region :=
  srcs.foldl (fun g e =>
    let v := g.stream e.1
    if v.state = 0 then g else g.setStream e.1 (v.rewind { v.cur with pos := e.2.1, sub := e.2.2, head := 0 } [])) r

/-- A bound stream goes back to the start of round `k` (R349, R352). -/
def Region.rewindBound (r : Region) (bank : Bool) (e : Bind) (chk : Option Cursor) (k : Nat) : Region :=
  let v := r.stream e.stream
  if kindIn e.kind then
    match chk with
    | none => r
    | some c =>
      ((r.setStream e.stream (v.rewind c [])).setBoundFifo e.kind e.pos
        ((r.boundFifo e.kind e.pos).filter (fun q => q.bank != bank))).rewindSources c.srcs
  else
    let keep := (r.boundFifo e.kind e.pos).filter (fun q => decide (q.rnd < k) || q.bank != bank)
    let r1 := r.setBoundFifo e.kind e.pos keep
    let lfsr := (chk.map Cursor.lfsr).getD v.cur.lfsr
    match v.marks.find? (fun m => decide (k ≤ m.1)) with
    | none => r1.setStream e.stream { v with cur := { v.cur with lfsr := lfsr } }
    | some (_, c, left) =>
      ((r1.setStream e.stream { v.rewind { c with lfsr := lfsr } left with marks := v.marks.filter (fun m => decide (m.1 < k)) })).rewindSources c.srcs

/-- The words that voided rounds took from the die mesh go back ahead of every word still queued (R352): keys 0 to 15
are row FIFOs, 16 on injection FIFOs. -/
def Region.putBack (r : Region) (l : List (Nat × QWord)) : Region :=
  l.foldr (fun (e : Nat × QWord) (g : Region) =>
    if e.1 < 16 then { g with rows := spInsert g.rows e.1 (e.2 :: spGet [] g.rows e.1) }
    else { g with inj := spInsert g.inj (e.1 - 16) (e.2 :: spGet [] g.inj (e.1 - 16)) }) r

/-- Discards the words that a block itself placed in the region's router, row and injection FIFOs (R352). -/
def Region.dropOwn (r : Region) (bank : Bool) : Region :=
  let keep := fun (l : List QWord) => l.filter (fun q => !(q.own && q.bank == bank))
  { r with
    rows := r.rows.map (fun e => (e.1, keep e.2))
    inj := r.inj.map (fun e => (e.1, keep e.2))
    hold := keep r.hold
    loc := keep r.loc }

/-- An edge unit goes back to its checkpoint (R255, R352). -/
def Region.restoreEdge (r : Region) (c : EdgeCheck) : Region :=
  r.setEdge c.row { r.edge c.row with f := c.f, q := c.q, quant := c.quant, qc := c.qc, s := c.s }

/-- The words inside the grid that the block of a bank has emitted go: lanes, cell FIFOs and retiming FIFOs (R348, R352). -/
def Region.flushGrid (r : Region) (bank : Bool) : Region :=
  let keep := fun (l : List QWord) => l.filter (fun q => q.bank != bank)
  { r with
    retim := r.retim.map (fun e => (e.1, keep e.2))
    edges := r.edges.map (fun e => (e.1, { e.2 with lane := keep e.2.lane, cell := keep e.2.cell })) }

/-- An island goes back to the start of a round. -/
def Island.rewind (i : Island) (nest : List Nat) : Island :=
  if i.started then { i with counter := 0, nest := nest, complete := false, fence := none, sampled := false } else i

/-- The rounds from `k` on are void: the block returns to the checkpoint of round `k`, and what the rounds held is
discarded; one that had stopped behind a marker runs on to a fence (R352, R363). The holds of strm.bar that are satisfied end before a
stream leaves state 3 (R299). -/
def Region.voidRounds (r0 : Region) (bank : Bool) (k : Nat) : Region :=
  let r := r0.endBars
  let b := r.bank bank
  match b.checks.find? (fun c => c.rnd == k) with
  | some chk =>
    let gone := b.holds.filter (fun h => decide (k ≤ h.rnd))
    let r1 := (((r.flushGrid bank).dropOwn bank).putBack (gone.flatMap RoundHold.consumed))
    let r2 := chk.cells.foldl (fun (g : Region) (e : Nat × Cell) => g.setCell e.1 e.2) r1
    let r3 := chk.edges.foldl (fun g e => g.restoreEdge e) r2
    let r4 := b.bound.foldl (fun g e => g.rewindBound bank e ((chk.streams.find? (fun x => x.1 == e.stream)).map Prod.snd) k) r3
    let seq := (gone.flatMap RoundHold.emits).foldl (fun (q : Seq) (e : Nat × Word) => q.unowe e.1) r4.seq
    { r4 with seq := seq }.setBank bank
      { b with
        state := 2
        islands := (b.islands.zipIdx).map (fun (e : Island × Nat) => e.1.rewind (chk.nests.getD e.2 [0, 0, 0, 0, 0]))
        computing := k
        committing := b.committing.filter (fun c => decide (c < k))
        holds := b.holds.filter (fun h => decide (h.rnd < k))
        checks := b.checks.filter (fun c => decide (c.rnd ≤ k))
        stopped := false }
  | none => r

/-- A cause voids the rounds from `k` on, and the block waits for what its replay needs (R353). A fault of a round that
is void already is dropped by its unit. -/
def Region.void (r : Region) (bank : Bool) (k : Nat) (wait : VoidWait) : Region :=
  let r1 := r.voidRounds bank k
  let b := r1.bank bank
  r1.setBank bank { b with voids := b.voids ++ [wait], voidTo := some (match b.voidTo with | some j => Nat.min j k | none => k) }

/-- The earliest round of a block that has not committed. -/
def Bank.oldest (b : Bank) : Nat := b.committing.getD b.computing

/-- A running block's current round and the later ones are voided until the remap; a block whose last round only commits is left
(R380, R387). -/
def Region.voidCurrent (g : Region) (bank : Bool) : Region :=
  let b := g.bank bank
  match b.img with
  | none => g
  | some img => if b.running ∧ b.computing ≤ img.lastRound then g.void bank b.computing .remap else g

/-- Both blocks. -/
def Region.voidBlocks (g : Region) : Region := (g.voidCurrent false).voidCurrent true

/-- A stage-2 fault or a service that holds an access of a unit of region `r`, if one does (R167, R178, R180). -/
def State.heldFor (s : State) (p r unit : Nat) : VoidWait :=
  match (s.part? p).bind (fun v => v.faults.find? (fun f => f.region == r && f.unit == unit && f.answer == .pending)) with
  | some f => .answer f.num
  | none => .service

/-! ## The end of a block without completion (R277) -/

/-- A stream whose binding ends with its block aborted: state 1, at the position where the last committed round left it
(R314). -/
def Stream.abandon (v : Stream) : Stream :=
  if v.state = 0 then v else { v with state := 1, ahead := [], elems := [], part := [], marks := [], paused := false, need := none, ended := false }

/-- The words of a bank's block leave every FIFO that a stream may be bound to, whether or not one is bound there still (R277). -/
def Region.flushEdges (r : Region) (bank : Bool) : Region :=
  let keep := fun (l : List QWord) => l.filter (fun q => q.bank != bank)
  { r with
    memIn := r.memIn.map (fun e => (e.1, keep e.2))
    memOut := r.memOut.map (fun e => (e.1, keep e.2))
    edges := r.edges.map (fun e => (e.1, { e.2 with input := keep e.2.input, out := keep e.2.out })) }

/-- The block of a bank ends at once, its words in every FIFO go, and its streams and all their sources stand in state 1 (R277, R314). The holds of strm.bar that are satisfied end before a stream
leaves state 3 (R299). -/
def Region.abortBank (r : Region) (bank : Bool) : Region :=
  let b := r.bank bank
  if !b.running then r
  else
    let r1 := (((r.endBars.voidRounds bank b.oldest).flushGrid bank).dropOwn bank).flushEdges bank
    let b1 := r1.bank bank
    let streams := b1.bound.flatMap (fun e => e.stream :: (r1.srcsOf 128 e.stream).map Prod.fst)
    let r2 := streams.foldl (fun g n => g.setStream n (g.stream n).abandon) r1
    let rows := ((b1.img.map Block.edgeRows).getD [])
    let r4 := rows.foldl (fun g y => if (g.edge y).bank = bank then g.setEdge y { g.edge y with stopped := true } else g) r2
    r4.setBank bank { rounds := b1.rounds }

/-- Every running block of the region ends (R277). -/
def Region.abortBlocks (r : Region) : Region := (r.abortBank false).abortBank true

end Sys2Proof.Machine
end

