-- ==== Sys2Proof/Machine/Blocks.lean ====
section
/-!
DEFINITION. Configuration blocks: the checks of cfg.load in their order, and the block that an image gives (R111 to
R118, R221, R228, R238, R256 to R261).
-/
namespace Sys2Proof.Machine

/-- A failed check: the cause, and the offset in the image of what it concerns (R118). -/
abbrev Bad := BitVec 9 × Nat

/-- A check. -/
def need (ok : Bool) (cause : BitVec 9) (off : Nat) : Except Bad Unit := if ok then .ok () else .error (cause, off)

/-- The offset of the first nonzero byte of a list that starts at an offset. -/
def firstNonzero : Nat → List Byte → Option Nat
  | _, [] => none
  | off, b :: bs => if b = 0 then firstNonzero (off + 1) bs else some off

/-- Reserved bytes must be zero (R118). -/
def needZero (off : Nat) (bs : List Byte) : Except Bad Unit :=
  match firstNonzero off bs with
  | none => .ok ()
  | some o => .error (Cause.blockMalformed, o)

/-! ## Fuse entries (R114) -/

/-- The fields of a fuse entry: A half-width, B field, class, mode, accumulate. -/
def fuseA (e : BitVec 16) : Nat := fieldN e 12 4
def fuseB (e : BitVec 16) : Nat := fieldN e 8 4
def fuseClass (e : BitVec 16) : Nat := fieldN e 4 4
def fuseMode (e : BitVec 16) : Nat := fieldN e 2 2
def fuseAccum (e : BitVec 16) : Nat := fieldN e 0 2

/-- The half-width of an MX class (R114). -/
def mxHalf (cls : Nat) : Nat := if cls = 2 then 2 else if cls = 3 ∨ cls = 4 then 3 else 4

/-- Whether a fuse entry is empty or meets the row of its class (R114). -/
def fuseLegal (e : BitVec 16) : Bool :=
  let a := fuseA e
  let b := fuseB e
  let m := fuseMode e
  let acc := fuseAccum e
  let half := fun (x : Nat) => decide (1 ≤ x) && decide (x ≤ 8)
  e == 0 || match fuseClass e with
    | 0 | 1 => acc == 0 && ((half a && half b && m == 0) || (a == 0 && b == 0 && m == 2))
    | 2 | 3 | 4 | 5 | 6 | 7 => a == mxHalf (fuseClass e) && decide (2 ≤ b) && decide (b ≤ 7) && m == 0 && acc != 3
    | 8 | 9 => a == 8 && b == 8 && m == 0 && (acc == 1 || acc == 2)
    | 10 => a == 0 && b == 0 && m == 2 && (acc == 1 || acc == 2)
    | 11 => half a && half b && m == 1 && acc == 0
    | _ => false

/-! ## Words of the rings -/

/-- The fields of a cell op word (R111). -/
def opCode (w : BitVec 24) : Nat := fieldN w 18 6
def opFmt (w : BitVec 24) : Nat := fieldN w 15 3
def opTapA (w : BitVec 24) : Nat := fieldN w 11 4
def opTapB (w : BitVec 24) : Nat := fieldN w 7 4
def opGuard (w : BitVec 24) : Nat := fieldN w 4 3
def opGneg (w : BitVec 24) : Bool := w.getLsbD 3
def opDst (w : BitVec 24) : Nat := fieldN w 0 3

/-- The fields of a route word (R112, R258). -/
def routeA (w : BitVec 16) : Nat := fieldN w 12 4
def routeB (w : BitVec 16) : Nat := fieldN w 8 4
def routeOut (w : BitVec 16) : Nat := fieldN w 4 4
def routeTag (w : BitVec 16) : Nat := fieldN w 0 4
/-- Whether a route word's outmask names a direction: N, E, S, W are bits 7 to 4 (R112). -/
def routeDir (w : BitVec 16) (dir : Nat) : Bool := w.getLsbD (7 - dir)

/-- Whether an op reads no fuse entry (R111). -/
def opNoFuse (o : Nat) : Bool := o ≤ 2 || o == 0x24 || o == 0x26 || o == 0x27 || o == 0x31 || o == 0x32 || o == 0x33

/-- The lane width of R239. -/
def laneWidth (e : BitVec 16) : Nat :=
  match fuseClass e with
  | 8 | 9 => 16
  | 10 => 32
  | _ => if fuseA e = 0 then 32 else 2 * fuseA e

/-- Whether an op suits its fuse entry (R238). -/
def fuseSuits (o : Nat) (e : BitVec 16) : Bool :=
  let c := fuseClass e
  e != 0 &&
    (if o = 0x20 ∨ o = 0x23 then decide (c ≤ 10)
     else if o = 0x22 then c == 11
     else if o = 0x1A ∨ o = 0x1B then decide (c ≤ 1) && [4, 8, 12, 16, 32].contains (laneWidth e)
     else if o = 0x21 ∨ (0x04 ≤ o ∧ o ≤ 0x1F) then decide (c ≤ 1)
     else if 0x28 ≤ o ∧ o ≤ 0x2F then decide (8 ≤ c) && decide (c ≤ 10)
     else if o = 0x30 then decide (2 ≤ c) && decide (c ≤ 7)
     else true)

/-- The fault of a cell op word by itself (R111, R238). -/
def cellOpFault (fuse : List (BitVec 16)) (w : BitVec 24) : Option (BitVec 9) :=
  let o := opCode w
  let e := fuse.getD (opFmt w) 0
  if o = 0x03 ∨ 0x34 ≤ o then some Cause.opIllegal
  else if opGuard w = 0 ∧ opGneg w then some Cause.opIllegal
  else if opNoFuse o then (if opFmt w = 0 then none else some Cause.opIllegal)
  else if !(fuseSuits o e) then some Cause.fuseIllegal
  else if o = 0x30 ∧ ((fuseClass e = 2 ∧ opTapA w = 15) ∨ (fuseB e = 2 ∧ opTapB w = 15)) then some Cause.opIllegal
  else none

/-- Whether the op places a value under R232: nop has none, and the others give dst its meaning in their own rows
(R228). -/
def opPlaces (o : Nat) : Bool := !([0x00, 0x01, 0x20, 0x22, 0x23, 0x24, 0x26, 0x27, 0x30, 0x32, 0x33].contains o)

/-- The fields of an edge op word (R256). -/
def eRm (w : BitVec 24) : Nat := fieldN w 15 3
def eF (w : BitVec 24) : Nat := fieldN w 11 4
def eTy (w : BitVec 24) : Nat := fieldN w 7 4
def eArg (w : BitVec 24) : Nat := fieldN w 3 4

/-- The type codes that cvt accepts (R262). -/
def cvtType (t : Nat) : Bool := decide (t ≤ 2) || decide (9 ≤ t)

/-- Whether an edge op word's fields are allowed for its op (R256, R259, R261, R263, R266, R267). -/
def edgeOpLegal (w : BitVec 24) : Bool :=
  let rm := eRm w
  let f := eF w
  let ty := eTy w
  let arg := eArg w
  let dst := opDst w
  decide (dst ≤ 4) && match opCode w with
    | 0x00 | 0x01 => ty == 0 && rm == 0 && f == 0 && arg == 0
    | 0x02 | 0x08 | 0x09 | 0x0A | 0x0B | 0x14 | 0x15 => ty == 0 && decide (rm ≤ 3) && f == 0 && arg == 0
    | 0x03 | 0x0D => ty == 0 && decide (rm ≤ 3) && decide (f ≤ 3) && decide (arg ≤ 1)
    | 0x04 => decide (ty ≤ 1) && rm == 0 && decide (arg ≤ 1) && dst == 0
    | 0x05 => decide (ty ≤ 1) && decide (rm ≤ 3) && decide (arg ≤ 1)
    | 0x06 => cvtType ty && decide (rm ≤ 4) && f == 0 && cvtType arg
    | 0x07 => decide (3 ≤ ty) && decide (ty ≤ 8) && decide (rm ≤ 4) && f == 0 && arg == 0
    | 0x0C => ty == 0 && rm == 0 && decide (f ≤ 3) && decide (arg ≤ 1)
    | 0x0E | 0x0F | 0x10 | 0x11 => (ty == 11 || ty == 14 || ty == 15) && rm == 0 && arg == 0 && dst == 0
    | 0x12 => ty == 0 && rm == 0 && arg == 0
    | 0x13 => ty == 0 && decide (rm ≤ 3) && arg == 0
    | 0x16 => ty == 0 && rm == 0 && f == 0 && dst == 0
    | _ => false

/-- Whether an edge route word is legal (R258). -/
def edgeRouteLegal (w : BitVec 16) : Bool := decide (routeA w ≤ 1) && decide (routeB w ≤ 3) && routeOut w == 0

/-! ## The image: header and sections (R115, R116) -/

/-- The least common multiple of a list. -/
def lcmList (l : List Nat) : Nat := l.foldl Nat.lcm 1

/-- The header checks of step 2, in image order. DESIGN CHOICE (log 120): an image too small for its header and its bind section offends at
the size field, 0x0C, before the fuse entries (R115). -/
def checkHeader (bs : List Byte) : Except Bad Unit := do
  let mal := Cause.blockMalformed
  need (numAt bs 4 2 == 1) mal 4
  need (decide (1 ≤ numAt bs 6 1) && decide (numAt bs 6 1 ≤ 16)) mal 6
  need (decide (numAt bs 7 1 ≤ 16)) mal 7
  need (decide (1 ≤ numAt bs 8 2) && decide (numAt bs 8 2 ≤ 256)) mal 8
  need (decide (numAt bs 10 2 ≤ 128)) mal 10
  need (aligned 8 (numAt bs 12 4) && decide (numAt bs 12 4 ≤ 131072) && decide (0x118 + 8 * numAt bs 10 2 ≤ numAt bs 12 4)) mal 12
  (List.range 8).forM (fun i => need (fuseLegal (BitVec.ofNat 16 (numAt bs (0x10 + 2 * i) 2))) Cause.fuseIllegal (0x10 + 2 * i))
  need (decide (1 ≤ numAt bs 0x30 4)) mal 0x30
  need (decide (1 ≤ numAt bs 0x34 1) && decide (numAt bs 0x34 1 ≤ 5)) mal 0x34
  need (decide (numAt bs 0x35 1 ≤ 3)) mal 0x35
  need (decide (numAt bs 0x37 1 ≤ 32)) mal 0x37
  needZero 0x38 ((bs.drop 0x38).take 8)

/-- Two bind entries that break the rules of R116. -/
def bindsClash (a b : Bind) : Bool := a.stream == b.stream || (a.kind == b.kind && a.pos == b.pos)

/-- An island entry. -/
def rectAt (bs : List Byte) (i : Nat) : Rect :=
  { x0 := numAt bs (0x58 + 4 * i) 1, y0 := numAt bs (0x59 + 4 * i) 1, x1 := numAt bs (0x5A + 4 * i) 1, y1 := numAt bs (0x5B + 4 * i) 1 }
/-- A carry entry. -/
def carryAt (bs : List Byte) (i : Nat) : Carry :=
  { cell := numAt bs (0x98 + 4 * i) 1, kind := numAt bs (0x99 + 4 * i) 1, first := numAt bs (0x9A + 4 * i) 1, count := numAt bs (0x9B + 4 * i) 1 }
/-- A bind entry. -/
def bindAt (bs : List Byte) (i : Nat) : Bind :=
  { stream := numAt bs (0x118 + 8 * i) 1, kind := numAt bs (0x119 + 8 * i) 1, pos := numAt bs (0x11A + 8 * i) 1, idx := numAt bs (0x11B + 8 * i) 1 }

/-- Whether a rectangle is well formed (R116). -/
def Rect.ok (r : Rect) : Bool := decide (r.x0 ≤ r.x1) && decide (r.x1 ≤ 15) && decide (r.y0 ≤ r.y1) && decide (r.y1 ≤ 15)
/-- Whether a rectangle holds a cell. -/
def Rect.has (r : Rect) (x y : Nat) : Bool := decide (r.x0 ≤ x) && decide (x ≤ r.x1) && decide (r.y0 ≤ y) && decide (y ≤ r.y1)

/-- The section checks of step 2, in image order. -/
def checkSections (bs : List Byte) : Except Bad Unit := do
  let mal := Cause.blockMalformed
  let depth := numAt bs 0x34 1
  (List.range 5).forM (fun i => need ((numAt bs (0x40 + 4 * i) 4 == 0) == decide (depth ≤ i)) mal (0x40 + 4 * i))
  needZero 0x54 ((bs.drop 0x54).take 4)
  (List.range 16).forM (fun i =>
    need (if i < numAt bs 6 1 then (rectAt bs i).ok else numAt bs (0x58 + 4 * i) 4 == 0) mal (0x58 + 4 * i))
  (List.range 32).forM (fun i =>
    need (if i < numAt bs 0x37 1 then decide ((carryAt bs i).kind ≤ 2) else numAt bs (0x98 + 4 * i) 4 == 0) mal (0x98 + 4 * i))
  (List.range (numAt bs 10 2)).forM (fun i => do
    let b := bindAt bs i
    need (decide (b.stream ≤ 127) && decide (b.kind ≤ 5) && decide (b.pos ≤ 15) && decide (b.idx ≤ 15) && numAt bs (0x11C + 8 * i) 4 == 0)
      mal (0x118 + 8 * i)
    need (!((List.range i).any (fun j => bindsClash (bindAt bs j) b))) mal (0x118 + 8 * i))

/-! ## Records (R117) -/

/-- Words of `n` bytes each. -/
def ringWords (n w : Nat) : Nat → List Byte → List (BitVec w)
  | 0, _ => []
  | k + 1, bs => BitVec.ofNat w (ofBytes (bs.take n)) :: ringWords n w k (bs.drop n)

/-- A length padded up to 8. -/
def pad8 (n : Nat) : Nat := (n + 7) / 8 * 8

/-- Reads the cell records: `n` of them from an offset, with the records read so far, newest first; of two records of one cell the later
is named (DEDUCED, log 33). -/
def readCells (islands : List Rect) : Nat → Nat → List Byte → List CellRec → Except Bad (List CellRec × Nat × List Byte)
  | 0, off, bs, acc => .ok (acc.reverse, off, bs)
  | n + 1, off, bs, acc => do
    let mal := Cause.blockMalformed
    need (decide (8 ≤ bs.length)) mal off
    let at' := fun (i : Nat) => numAt bs i 1
    need (decide (at' 0 ≤ 15)) mal off
    need (decide (at' 1 ≤ 15)) mal (off + 1)
    need (!(acc.any (fun c => c.x == at' 0 && c.y == at' 1))) mal off
    need (match islands[at' 2]? with | some r => r.has (at' 0) (at' 1) | none => false) mal (off + 2)
    let lenOk := fun (i : Nat) => need (decide (1 ≤ at' i) && decide (at' i ≤ 32)) mal (off + i)
    lenOk 3
    lenOk 4
    lenOk 5
    need (decide (at' 6 ≤ 2)) mal (off + 6)
    need (at' 6 == 0 || !(acc.any (fun c => c.bank != 0 && c.bank != at' 6))) mal (off + 6)
    need (at' 7 == 0) mal (off + 7)
    let len := 8 + 3 * at' 3 + 2 * at' 4 + 2 * at' 5
    need (decide (pad8 len ≤ bs.length)) mal off
    needZero (off + len) ((bs.drop len).take (pad8 len - len))
    let w := bs.drop 8
    let rec' : CellRec :=
      { x := at' 0, y := at' 1, island := at' 2, bank := at' 6, ops := ringWords 3 24 (at' 3) w
        routes := ringWords 2 16 (at' 4) (w.drop (3 * at' 3)), regs := ringWords 2 16 (at' 5) (w.drop (3 * at' 3 + 2 * at' 4)), off := off }
    readCells islands n (off + pad8 len) (bs.drop (pad8 len)) (rec' :: acc)

/-- Reads the edge records. -/
def readEdges : Nat → Nat → List Byte → List EdgeRec → Except Bad (List EdgeRec × Nat × List Byte)
  | 0, off, bs, acc => .ok (acc.reverse, off, bs)
  | n + 1, off, bs, acc => do
    let mal := Cause.blockMalformed
    need (decide (8 ≤ bs.length)) mal off
    let at' := fun (i : Nat) => numAt bs i 1
    need (decide (at' 0 ≤ 15) && !(acc.any (fun e => e.row == at' 0))) mal off
    need (decide (1 ≤ at' 1) && decide (at' 1 ≤ 32)) mal (off + 1)
    need (decide (1 ≤ at' 2) && decide (at' 2 ≤ 32)) mal (off + 2)
    needZero (off + 3) ((bs.drop 3).take 5)
    let len := 8 + 3 * at' 1 + 2 * at' 2
    need (decide (pad8 len ≤ bs.length)) mal off
    needZero (off + len) ((bs.drop len).take (pad8 len - len))
    let w := bs.drop 8
    readEdges n (off + pad8 len) (bs.drop (pad8 len))
      ({ row := at' 0, ops := ringWords 3 24 (at' 1) w, routes := ringWords 2 16 (at' 2) (w.drop (3 * at' 1)), off := off } :: acc)

/-- The cells of a rectangle, as 16y + x. -/
def Rect.cells (r : Rect) : List Nat := (List.range 256).filter (fun c => r.has (c % 16) (c / 16))

/-- Step 2 from the sections on: the block that the image gives. DESIGN CHOICE (log 104): a cell of an island without a record
offends at its island's entry, and is looked for after the cell records and before the edge records; bytes between the last
record and offset size are reserved bytes, which must be zero. -/
def readBlock (va : Nat) (bs : List Byte) : Except Bad Block := do
  checkSections bs
  let mal := Cause.blockMalformed
  let islands := (List.range (numAt bs 6 1)).map (rectAt bs)
  let binds := (List.range (numAt bs 10 2)).map (bindAt bs)
  let start := 0x118 + 8 * binds.length
  let (cells, off1, rest1) ← readCells islands (numAt bs 8 2) start (bs.drop start) []
  (islands.zipIdx).forM (fun e => need (e.1.cells.all (fun c => cells.any (fun r => 16 * r.y + r.x == c))) mal (0x58 + 4 * e.2))
  let (edges, off2, rest2) ← readEdges (numAt bs 7 1) off1 rest1 []
  needZero off2 rest2
  .ok { va := va, size := numAt bs 12 4, fuse := (List.range 8).map (fun i => BitVec.ofNat 16 (numAt bs (0x10 + 2 * i) 2))
        tagmap := (List.range 16).map (fun i => numAt bs (0x20 + i) 1)
        round := numAt bs 0x30 4, depth := numAt bs 0x34 1, report := numAt bs 0x35 1, done := numAt bs 0x36 1
        trip := (List.range 5).map (fun i => numAt bs (0x40 + 4 * i) 4), islands := islands
        carries := (List.range (numAt bs 0x37 1)).map (carryAt bs), binds := binds, cells := cells, edges := edges }

/-! ## Steps 3 to 5 (R118) -/

/-- Whether two rectangles share a cell. -/
def Rect.meets (a b : Rect) : Bool := decide (a.x0 ≤ b.x1) && decide (b.x0 ≤ a.x1) && decide (a.y0 ≤ b.y1) && decide (b.y0 ≤ a.y1)

/-- Step 3: no island overlaps one before it; the later of two that do is named (DEDUCED, log 33). -/
def Block.checkOverlap (b : Block) : Except Bad Unit :=
  (b.islands.zipIdx).forM (fun e => need (!((b.islands.take e.2).any e.1.meets)) Cause.islandOverlap (0x58 + 4 * e.2))

/-- Whether an op word writes the edge lane through dst edge (R228). -/
def writesLane (w : BitVec 24) : Bool := opDst w == 7 && opPlaces (opCode w)

/-- Whether a record's route ring sets the E bit at column 15 (R228). -/
def CellRec.emitsEast (c : CellRec) : Bool := c.x == 15 && c.routes.any (fun w => routeDir w 1)

/-- The source of a route word that leads to a cell in no island (R224). -/
def Block.routeSrcOk (b : Block) (cell src : Nat) : Bool :=
  if src < 4 then
    match neighbour cell src with
    | none => true
    | some n => (b.islandOf n).isSome
  else decide (src ≤ 8)

/-- The words of a cell record, given the records before it; a word that breaks several rules has OP_ILLEGAL first (R111, R112,
R118, R228, R238). -/
def Block.checkCell (b : Block) (before : List CellRec) (c : CellRec) : Except Bad Unit := do
  let cell := 16 * c.y + c.x
  let row := before.filter (fun d => d.y == c.y)
  let clash := row.any (fun d => d.ops.any writesLane || d.emitsEast)
  (c.ops.zipIdx).forM (fun e => do
    let off := c.off + 8 + 3 * e.2
    need (!(writesLane e.1 && clash)) Cause.opIllegal off
    match cellOpFault b.fuse e.1 with
    | some k => Except.error (k, off)
    | none => .ok ())
  let lane := c.ops.any writesLane || row.any (fun d => d.ops.any writesLane)
  (c.routes.zipIdx).forM (fun e => do
    let off := c.off + 8 + 3 * c.ops.length + 2 * e.2
    need (!(c.x == 15 && routeDir e.1 1 && lane)) Cause.opIllegal off
    need (b.routeSrcOk cell (routeA e.1) && b.routeSrcOk cell (routeB e.1)) Cause.routeSrcIllegal off)

/-- The words of an edge record (R256, R258, R259). -/
def Block.checkEdge (b : Block) (c : EdgeRec) : Except Bad Unit := do
  let out := b.binds.any (fun e => e.kind == 5 && e.pos == c.row)
  (c.ops.zipIdx).forM (fun e =>
    need (edgeOpLegal e.1 && (out || !(opDst e.1 == 2 || opDst e.1 == 3 || eRm e.1 == 4))) Cause.opIllegal (c.off + 8 + 3 * e.2))
  (c.routes.zipIdx).forM (fun e =>
    need (edgeRouteLegal e.1) Cause.routeSrcIllegal (c.off + 8 + 3 * c.ops.length + 2 * e.2))

/-- The period of an island (R220). -/
def Block.period (b : Block) (i : Nat) : Nat :=
  lcmList ((b.cells.filter (fun c => c.island == i)).flatMap (fun c => [c.ops.length, c.routes.length, c.regs.length]))

/-- The rest of step 4 and step 5, then the carries (R118, R221, R271). -/
def Block.checkWords (b : Block) (unavailable : Nat → Bool) : Except Bad Unit := do
  (b.cells.zipIdx).forM (fun e => do
    need (!(unavailable (16 * e.1.y + e.1.x))) Cause.cellUnavailable e.1.off
    b.checkCell (b.cells.take e.2) e.1)
  b.edges.forM b.checkEdge
  (List.range b.islands.length).forM (fun i => need (decide (b.period i ≤ 2048)) Cause.periodTooLong (0x58 + 4 * i))
  (b.carries.zipIdx).forM (fun e =>
    need ((b.islandOf e.1.cell).isSome && decide (e.1.first + e.1.count ≤ (if e.1.kind = 0 then 32 else 256)))
      Cause.blockMalformed (0x98 + 4 * e.2))

/-- The bank that a block's records pin it to, if any do: false for A (R117). -/
def Block.pinned (b : Block) : Option Bool := (b.cells.find? (fun c => c.bank != 0)).map (fun c => c.bank == 2)

end Sys2Proof.Machine
end

