-- ==== Sys2Proof/Machine/Cfg.lean ====
section
/-!
DEFINITION. The cfg instructions (R268 to R278).
-/
namespace Sys2Proof.Machine

/-- The loader of region `r` as a party (R118). -/
def State.loaderWho (s : State) (r : Nat) : Who := { s.seqWho r with unit := 0xFB }

/-- Whether a logical cell is unavailable: its physical cell is isolated and the remap has not completed (R118). -/
def Region.unavailable (r : Region) (cell : Nat) : Bool := r.remapping.contains cell

/-- The bank that cfg.load, cfg.run and cfg.drain act on. -/
def Region.other (r : Region) : Bank := r.bank (!r.cur)
/-- Replaces it. -/
def Region.setOther (r : Region) (b : Bank) : Region := r.setBank (!r.cur) b

/-! ## cfg.load (R271) -/

/-- A refused load leaves the inactive bank holding no block (R118). -/
def State.loadRefused (s : State) (cause : BitVec 9) (fva info : Word) : State :=
  (s.modReg s.cur (fun g => if g.other.state = 1 then g.setOther {} else g)).trap cause fva info

/-- The extents of the open streams that a block binds are patched (R171, R271). -/
def State.patchBound (s : State) (r : Nat) (binds : List Bind) : State :=
  binds.foldl (fun st e =>
    let v := (st.reg r).stream e.stream
    if v.state = 0 then st
    else
      let ext := st.patchExtent ((st.owner r).getD 48) v.extents ((st.reg r).strmVA e.stream)
      st.modReg r (fun g => g.setStream e.stream { v with extents := ext })) s

/-- Steps 2 to 5 of R118 on a whole image: the block and the bank it goes to. -/
def Region.checkImage (r : Region) (va : Nat) (bs : List Byte) : Except Bad (Block × Bool) := do
  let b ← readBlock va bs
  b.checkOverlap
  let t := b.pinned.getD (!r.cur)
  need (!(t == r.cur || (r.bank t).running)) Cause.bankBusy ((b.cells.head?.map CellRec.off).getD 0 + 6)
  b.checkWords r.unavailable
  .ok (b, t)

/-- The load of an image whose header has been read and is good. DESIGN CHOICE (log 121): the whole image is read before any of its sections
is checked, so a fault of a late read comes before a bad section early in the image (R118). -/
def State.loadImage (s : State) (va size : Nat) (header : List Byte) (info : Word) : State :=
  match s.readMany (s.loaderWho s.cur) 8 ((size - 64) / 8) (va + 64) with
  | (s1, .fault c a) => s1.loadRefused c (BitVec.ofNat 64 a) info
  | (s1, .held) => s1.wait
  | (s1, .ok rest) =>
    match (s1.reg s1.cur).checkImage va (header ++ rest) with
    | .error (c, off) => s1.loadRefused c (BitVec.ofNat 64 (va + off)) info
    | .ok (b, t) =>
      ((s1.modReg s1.cur (fun g => g.setBank t { state := 1, img := some b })).patchBound s1.cur b.binds).advance 4

/-- cfg.load (R271). -/
def execCfgLoad (a : BitVec 5) (k : BitVec 3) (s : State) : Out :=
  s.guarded k 4 fun s =>
    let info := leadOf (.cfgLoad a k)
    let v := s.seq.gr a
    if v &&& 63 != 0 then .next (s.trap Cause.misaligned v info)
    else match s.readVA (s.loaderWho s.cur) v.toNat 64 with
      | (s1, .fault c x) => .next (s1.loadRefused c (BitVec.ofNat 64 x) info)
      | (s1, .held) => .next s1.wait
      | (s1, .ok bs) =>
        if numAt bs 0 4 ≠ 0x4B434C42 then .next (s1.loadRefused Cause.blockMagic 0 info)
        else match checkHeader bs with
          | .error (c, off) => .next (s1.loadRefused c (BitVec.ofNat 64 (v.toNat + off)) info)
          | .ok () => .next (s1.loadImage v.toNat (numAt bs 12 4) bs info)

/-! ## cfg.run (R272) -/

/-- The streams that a running block binds, with their sources, which count as bound to it too (R272, R289). -/
def Region.taken (r : Region) : List Nat :=
  (r.bankA.bound ++ r.bankB.bound).flatMap (fun e => e.stream :: (r.srcsOf 128 e.stream).map Prod.fst)

/-- Whether a bind entry's stream or a source of it is still taken by the other block, or the stream is the source of a running stream
(R272, R289). -/
def Region.bindTaken (r : Region) (e : Bind) : Bool :=
  (e.stream :: (r.srcsOf 128 e.stream).map Prod.fst).any (fun n => r.taken.contains n) ||
    r.streams.any (fun x => x.2.usesSource e.stream && x.2.state == 2)

/-- The first bind entry that cfg.run refuses (R272). -/
def Region.runFault (r : Region) (l : List Bind) : Option (BitVec 9 × Nat) :=
  match l with
  | [] => none
  | e :: es =>
    let v := r.stream e.stream
    if v.state = 0 then some (Cause.strmNotOpen, e.stream)
    else if kindIn e.kind == (v.desc.dir == 1) then some (Cause.strmModeIllegal, e.stream)
    else r.runFault es

/-- A bind entry's stream starts, if it is in state 1 or 4; one that runs keeps what it has read ahead (R272, R298, R343). -/
def Region.startBound (r : Region) (e : Bind) : Region := r.startStream e.stream false false 1

/-- The loaded block starts: constants are latched, streams bound and started, and the start of round 0 recorded; words held for an
island that the block before lacked wait for the switch of one (R272, R298, R324, R349). DEDUCED (log 119): a block that starts while an
isolated cell of the region waits for its remap stands still until that is complete, as the voided ones do (R353, R383). -/
def Region.runBank (r : Region) (b : Bank) (img : Block) : Region :=
  let r1 := img.binds.foldl Region.startBound r.keepMissed
  let r2 := img.binds.foldl (fun (g : Region) (e : Machine.Bind) => g.setStream e.stream { g.stream e.stream with marks := [] }) r1
  { r2 with cur := !r.cur }.setBank (!r.cur)
    { b with
      state := 2
      consts := (List.range 32).map (fun i => spGet 0 r.params i)
      islands := img.islands.map (fun _ => {})
      bound := img.binds
      voids := if r.remapping.isEmpty then [] else [.remap]
      voidTo := if r.remapping.isEmpty then none else some 0
      checks := [{ rnd := 0, cells := [], edges := [], nests := img.islands.map (fun _ => [0, 0, 0, 0, 0])
                   streams := img.binds.map (fun (e : Machine.Bind) => (e.stream, if kindIn e.kind then r2.nextCursor e.stream else (r2.stream e.stream).cur)) }] }

/-- cfg.run (R272). -/
def execCfgRun (k : BitVec 3) (s : State) : Out :=
  s.guarded k 4 fun s =>
    let info := leadOf (.cfgRun k)
    let r := s.reg s.cur
    match r.other.state, r.other.img with
    | 1, some img =>
      if img.binds.any r.bindTaken then .next s.wait
      else match r.runFault img.binds with
        | some (c, n) => .next (s.trap c 0 (if c = Cause.strmNotOpen then BitVec.ofNat 64 n else info))
        | none => .next ((s.modReg s.cur (fun g => g.runBank g.other img)).advance 4)
    | _, _ => .next (s.trap Cause.cfgNoBlock 0 info)

/-! ## The others -/

/-- cfg.drain (R273). -/
def execCfgDrain (k : BitVec 3) (s : State) : Out :=
  s.guarded k 4 fun s => .next ((s.modReg s.cur (fun g => if g.other.state = 1 then g.setOther {} else g)).advance 4)

/-- cfg.param (R274). -/
def execCfgParam (a b : BitVec 5) (k : BitVec 3) (s : State) : Out :=
  s.guarded k 4 fun s =>
    let n := (s.seq.gr a).toNat
    if 32 ≤ n then .next (s.trap Cause.cfgOperandRange 0 (leadOf (.cfgParam a b k)))
    else .next ((s.modReg s.cur (fun g => { g with params := spInsert g.params n (s.seq.gr b) })).advance 4)

/-- Whether a bound stream has performed its last element, what it has read ahead included (R275). -/
def Region.exhausted (r : Region) (n : Nat) : Bool :=
  let v := r.stream n
  v.state == 3 && v.ahead.isEmpty && (v.desc.dir == 1 || (v.elems.isEmpty && v.part.isEmpty))

/-- The bindings that cfg.unbind has marked end once their streams have performed (R275). -/
def Bank.endUnbound (b : Bank) (r : Region) : Bank :=
  { b with bound := b.bound.filter (fun (e : Machine.Bind) => !(b.unbinding.contains e.stream && r.exhausted e.stream))
           unbinding := b.unbinding.filter (fun n => !(r.exhausted n)) }

/-- The end of a binding discards the elements of a memory word that is not full (R285). -/
def Region.dropPart (r : Region) (e : Bind) : Region :=
  if kindIn e.kind then r else r.setStream e.stream { r.stream e.stream with part := [] }

/-- Both banks' marked bindings. -/
def Region.endUnbound (r : Region) : Region :=
  let gone := (r.bankA.bound ++ r.bankB.bound).filter (fun (e : Machine.Bind) =>
    (r.bankA.unbinding.contains e.stream || r.bankB.unbinding.contains e.stream) && r.exhausted e.stream)
  gone.foldl Region.dropPart { r with bankA := r.bankA.endUnbound r, bankB := r.bankB.endUnbound r }

/-- cfg.unbind on one bank (R275). -/
def Bank.unbind (b : Bank) (n : Nat) : Bank :=
  if b.state = 1 then { b with img := b.img.map (fun i => { i with binds := i.binds.filter (fun (e : Machine.Bind) => e.stream != n) }) }
  else if b.running ∧ b.bound.any (fun e => e.stream == n) then { b with unbinding := natInsert b.unbinding n }
  else b

/-- cfg.unbind (R275). -/
def execCfgUnbind (a : BitVec 5) (k : BitVec 3) (s : State) : Out :=
  s.guarded k 4 fun s =>
    let n := (s.seq.gr a).toNat
    if 128 ≤ n then .next (s.trap Cause.cfgOperandRange 0 (leadOf (.cfgUnbind a k)))
    else .next ((s.modReg s.cur (fun g =>
      ({ g with bankA := g.bankA.unbind n, bankB := g.bankB.unbind n } : Region).endUnbound)).advance 4)

/-- BANKS (R276). -/
def Region.banksWord (r : Region) : Word :=
  let isl := (r.bank r.cur).islands
  let bit := fun (f : Island → Bool) (i : Nat) => (1, match isl[i]? with | some x => (f x).toNat | none => 0)
  BitVec.ofNat 64 (packNat ([(2, r.bankA.state), (2, r.bankB.state), (1, r.cur.toNat), (3, 0)] ++
    (List.range 16).map (bit Island.started) ++ (List.range 16).map (bit Island.complete)))

/-- STICKY (R276). -/
def Region.stickyWord (r : Region) : Word := BitVec.ofNat 64 (packNat [(1, r.sat.toNat), (1, r.snan.toNat)])

/-- The items of cfg.query (R276). -/
def Region.query (r : Region) (n : Nat) : Option Word :=
  if n = 0 then some r.banksWord
  else if n = 1 ∨ n = 2 then some r.stickyWord
  else if n = 3 then some (BitVec.ofNat 64 (r.bank r.cur).rounds)
  else if 0x20 ≤ n ∧ n ≤ 0x3F then some (spGet 0 r.params (n - 0x20))
  else none

/-- cfg.query (R276). -/
def execCfgQuery (d a : BitVec 5) (k : BitVec 3) (s : State) : Out :=
  s.guarded k 4 fun s =>
    let n := (s.seq.gr a).toNat
    match (s.reg s.cur).query n with
    | none => .next (s.trap Cause.cfgOperandRange 0 (leadOf (.cfgQuery d a k)))
    | some v =>
      let s1 := if n = 2 then s.modReg s.cur (fun g => { g with sat := false, snan := false }) else s
      .next (s1.setG d v 4)

/-- cfg.abort (R277). -/
def execCfgAbort (k : BitVec 3) (s : State) : Out :=
  s.guarded k 4 fun s => .next ((s.modReg s.cur Region.abortBlocks).advance 4)

end Sys2Proof.Machine
end

