-- ==== Sys2Proof/Machine/CellOps.lean ====
section
/-!
DEFINITION. What one cell does in one slot: elements and bricks (R234 to R237), and the cell opcodes (R239 to R250).
-/
namespace Sys2Proof.Machine

/-! ## Elements (R234, R235) -/

/-- The elements of an integer port word: `floor(32 / w)` of them, signed for class 0 (R234, R235). -/
def intElems (cls w v : Nat) : List Int :=
  (List.range (32 / w)).map (fun i => if cls = 0 then signedOf w (v / 2 ^ (w * i)) else ((v / 2 ^ (w * i) % 2 ^ w : Nat) : Int))

/-- The elements of a float or MX port word (R234, R235). -/
def numElems (cls v : Nat) : List Num :=
  let take := fun (n w : Nat) (f : Nat → Num) => (List.range n).map (fun i => f (v / 2 ^ (w * i) % 2 ^ w))
  match cls with
  | 2 => take 16 4 fmtE2M1.decode
  | 3 => take 8 6 fmtE2M3.decode
  | 4 => take 8 6 fmtE3M2.decode
  | 5 => take 8 8 fmtE4M3.decode
  | 6 => take 8 8 fmtE5M2.decode
  | 7 => take 4 8 mxint8
  | 8 => take 4 16 fmtBF16.decode
  | 9 => take 2 16 fmtFP16.decode
  | _ => take 1 32 fmtFP32.decode

/-- The class of B's elements: its own for the MX classes (R114). -/
def fuseClassB (e : BitVec 16) : Nat := if 2 ≤ fuseClass e ∧ fuseClass e ≤ 7 then fuseB e else fuseClass e

/-- The integer elements of the two sides of a class 0 or 1 entry, compound included (R234, R236). -/
def intSides (e : BitVec 16) (a b : Nat) : List Int × List Int :=
  let cls := fuseClass e
  if fuseA e = 0 then (intElems cls 32 a, intElems cls 32 b)
  else (intElems cls (2 * fuseA e) a, intElems cls (2 * fuseB e) b)

/-- The rounding mode of an accumulate field (R85, R86). -/
def accumMode (e : BitVec 16) : Rm := if fuseAccum e = 2 then .rz else .rne

/-- The rate class of a fuse entry, 0 for slotsA to 4 for slotsE (R150). -/
def rateClass (e : BitVec 16) : Nat :=
  let bricks := fun (cls half : Nat) => match cls with
    | 2 => 1
    | 3 | 4 | 5 | 6 => 2
    | 7 | 8 => 4
    | 9 => 6
    | _ => half
  if fuseMode e = 2 then 4
  else if fuseClass e = 11 then 0
  else
    let s := Nat.max (bricks (fuseClass e) (fuseA e)) (bricks (fuseClassB e) (fuseB e))
    if s = 1 then 0 else if s = 2 then 1 else if s ≤ 4 then 2 else 3

/-! ## Lanes (R239, R242 to R244) -/

/-- The lanes of a payload. -/
def lanes (w v : Nat) : List Nat := (List.range (64 / w)).map (fun i => v / 2 ^ (w * i) % 2 ^ w)

/-- A payload from its lanes of width `w`. -/
def ofLanes (w : Nat) (l : List Nat) : Word := BitVec.ofNat 64 (packNat (l.map (fun x => (w, x))))

/-- An integer as an unsigned lane. -/
def toLane (w : Nat) (x : Int) : Nat := (x % (2 ^ w : Nat)).toNat

/-- The range of a class's integers of width `w` (R70). -/
def intLo (cls w : Nat) : Int := if cls = 0 then -(2 ^ (w - 1)) else 0
def intHi (cls w : Nat) : Int := if cls = 0 then 2 ^ (w - 1) - 1 else 2 ^ w - 1

/-- A lane's value per class. -/
def laneVal (cls w v : Nat) : Int := if cls = 0 then signedOf w v else v

/-- The set bits, and the leading zero bits, of a lane. -/
def lanePopc (w v : Nat) : Nat := ((List.range w).filter (fun i => v.testBit i)).length
def laneClz (w v : Nat) : Nat := ((List.range w).reverse.takeWhile (fun i => !(v.testBit i))).length

/-- One lane of the integer lane ops, and whether it was clamped (R242, R243). -/
def laneOp (o cls w a b c : Nat) : Nat × Bool :=
  let m := 2 ^ w
  let ones := m - 1
  let sa := signedOf w a
  let clamp := fun (x : Int) => (toLane w (sat x (intLo cls w) (intHi cls w)), sat x (intLo cls w) (intHi cls w) != x)
  let s := Nat.min c w
  let t := a * m + b
  match o with
  | 0x04 => ((a + b) % m, false)
  | 0x05 => ((a + m - b) % m, false)
  | 0x06 => (a &&& b, false)
  | 0x07 => (a ||| b, false)
  | 0x08 => (a ^^^ b, false)
  | 0x09 => (if b < w then a * 2 ^ b % m else 0, false)
  | 0x0A => (if b < w then a / 2 ^ b else 0, false)
  | 0x0B => (toLane w (sa / (2 ^ Nat.min b w : Nat)), false)
  | 0x0C => (t * 2 ^ s / m % m, false)
  | 0x0D => (t / 2 ^ s % m, false)
  | 0x0E => (if laneVal cls w b < laneVal cls w a then b else a, false)
  | 0x0F => (if laneVal cls w a < laneVal cls w b then b else a, false)
  | 0x10 => (if cls = 0 then toLane w sa.natAbs else a, false)
  | 0x11 => ((m - a) % m, false)
  | 0x12 => (if a = b then ones else 0, false)
  | 0x13 => (if sa < signedOf w b then ones else 0, false)
  | 0x14 => (if a < b then ones else 0, false)
  | 0x15 => (if c ≠ 0 then a else b, false)
  | 0x16 => (lanePopc w a, false)
  | 0x17 => (laneClz w a, false)
  | 0x18 => clamp (laneVal cls w a + laneVal cls w b)
  | 0x19 => clamp (laneVal cls w a - laneVal cls w b)
  | 0x1C => (2 ^ Nat.min a w - 1, false)
  | _ => ((a &&& c) ||| (b &&& (ones - c)), false)

/-- Lane by lane. -/
def mapLanes (f : Nat → Nat → Nat → Nat × Bool) : List Nat → List Nat → List Nat → List Nat × Bool
  | a :: as, b :: bs, c :: cs =>
    let r := f a b c
    let rest := mapLanes f as bs cs
    (r.1 :: rest.1, r.2 || rest.2)
  | _, _, _ => ([], false)

/-- pack: two words of lanes of width `w` into lanes of half the width (R244). -/
def packOp (cls w a b : Nat) : Word × Bool :=
  let h := w / 2
  let all := (lanes w a ++ lanes w b).map (fun v => let x := laneVal cls w v
    (toLane h (sat x (intLo cls h) (intHi cls h)), sat x (intLo cls h) (intHi cls h) != x))
  (ofLanes h (all.map Prod.fst), all.any Prod.snd)

/-- unpack, rmax and rsum (R244). -/
def unpackOp (cls w a : Nat) : Word :=
  ofLanes w (((lanes (w / 2) a).take (64 / w)).map (fun v => toLane w (laneVal cls (w / 2) v)))
def rmaxOp (cls w a : Nat) : Word :=
  let vs := (lanes w a).map (laneVal cls w)
  BitVec.ofInt 64 (vs.foldl max (vs.headD 0))
def rsumOp (cls w a : Nat) : Word := BitVec.ofInt 64 ((lanes w a).map (laneVal cls w)).sum

/-- mul: lanes of double width (R245). -/
def mulOp (e : BitVec 16) (a b : Nat) : Word :=
  let cls := fuseClass e
  let w := laneWidth e
  let xs := intElems cls w a
  let ys := intElems cls w b
  if w = 32 then BitVec.ofInt 64 (xs.headD 0 * ys.headD 0)
  else ofLanes (2 * w) ((xs.zip ys).map (fun p => toLane (2 * w) (p.1 * p.2)))

/-! ## Float lanes (R248) -/

/-- The format of a float class. -/
def classFmt (cls : Nat) : Fmt := if cls = 8 then fmtBF16 else if cls = 9 then fmtFP16 else fmtFP32

/-- One lane of a float op, and whether an operand was a signalling NaN (R248). -/
def floatLane (o : Nat) (f : Fmt) (rm : Rm) (w a b c : Nat) : Nat × Bool :=
  let x := f.decode a
  let y := f.decode b
  let z := f.decode c
  let two := x.snan || y.snan
  match o with
  | 0x28 => (f.encode rm (Num.add rm x y), two)
  | 0x29 => (f.encode rm (Num.add rm x y.neg), two)
  | 0x2A => (f.encode rm (x.mul y), two)
  | 0x2B => (f.encode rm (Num.add rm (x.mul y) z), two || z.snan)
  | 0x2C => (f.encode rm (x.minimum y), two)
  | 0x2D => (f.encode rm (x.maximum y), two)
  | _ => (if x.lt y then 2 ^ w - 1 else 0, two)

/-- fcvt (R248). -/
def fcvtOp (cls : Nat) (rm : Rm) (a : Nat) : Word × Bool :=
  let f := classFmt cls
  let w := if cls = 10 then 32 else 16
  let two := ((lanes w a).take 2).map f.decode
  (if cls = 10 then ofLanes 16 (two.map (fmtBF16.encode rm)) else ofLanes 32 (two.map (fmtFP32.encode rm)), two.any Num.snan)

/-! ## A cell in a slot -/

/-- What a slot gives a cell's op: the fuse entry, the operands, the third operand, the two words of ports for scl, and
the register word's fields (R229, R230). -/
structure OpCtx where
  op : BitVec 24
  fuse : BitVec 16
  reg : BitVec 16
  a : GWord
  b : GWord
  a1 : GWord
  b1 : GWord
  c : Word
  deriving Repr

/-- What an op gives: the cell after it, a value to place, whether it forwards, and the sticky bits (R232, R245, R250). -/
structure OpOut where
  cell : Cell
  value : Option GWord := none
  forwards : Bool := false
  sat : Bool := false
  snan : Bool := false
  deriving Repr

/-- The fields of a register word (R113). -/
def regRd (g : BitVec 16) : Nat := fieldN g 11 5
def regWr (g : BitVec 16) : Nat := fieldN g 6 5
def regRot (g : BitVec 16) : Bool := g.getLsbD 5
def regStep (g : BitVec 16) : Nat := fieldN g 0 5

/-- A rotating register index (R229). -/
def Cell.rotIndex (v : Cell) (g : BitVec 16) (f : Nat) : Nat := if regRot g then (f + v.base) % 32 else f
/-- The accumulator entry of R229. -/
def Cell.entry (v : Cell) (g : BitVec 16) : Nat := if regRot g then (8 * regWr g + v.w) % 256 else 8 * regWr g
/-- Reads of the files. -/
def Cell.rotAt (v : Cell) (i : Nat) : Word := spGet 0 v.rot i
def Cell.accAt (v : Cell) (i : Nat) : Acc := spGet {} v.acc (i % 256)
def Cell.bankAt (v : Cell) (i : Nat) : BitVec 32 := spGet 0 v.bank (i % 256)
def Cell.padAt (v : Cell) (i : Nat) : Word := spGet 0 v.pad (i % 512)
/-- Writes of the files. -/
def Cell.setAcc (v : Cell) (i : Nat) (x : Acc) : Cell := { v with acc := spInsert v.acc (i % 256) x }
def Cell.setBank (v : Cell) (i : Nat) (x : BitVec 32) : Cell := { v with bank := spInsert v.bank (i % 256) x }
def Cell.setPad (v : Cell) (i : Nat) (x : Word) : Cell := { v with pad := spInsert v.pad (i % 512) x }

/-- A value op's data word. -/
def dataWord (v : Word) : GWord := { payload := v }

/-- The pairs of indices below two bounds, rows first. -/
def pairs (n m : Nat) : List (Nat × Nat) := (List.range n).flatMap (fun i => (List.range m).map (fun j => (i, j)))

/-- Whether a running-bank entry holds a signalling NaN (R75, R86). -/
def Cell.bankSnan (v : Cell) (i : Nat) : Bool := (fmtFP32.decode (v.bankAt i).toNat).snan

/-- mac's accumulation (R245). A signalling NaN in an element or in an entry that it reads sets SNAN (R75, R250). -/
def Cell.mac (v : Cell) (x : OpCtx) : OpOut :=
  let e := v.entry x.reg
  let a := x.a.payload.toNat
  let b := x.b.payload.toNat
  if fuseClass x.fuse ≤ 1 then
    let s := intSides x.fuse a b
    (pairs s.1.length s.2.length).foldl (fun o p =>
      let r := (o.cell.accAt (e + p.1 * s.2.length + p.2)).addInt (s.1.getD p.1 0 * s.2.getD p.2 0)
      { o with cell := o.cell.setAcc (e + p.1 * s.2.length + p.2) r.1, sat := o.sat || r.2 }) { cell := v }
  else
    let xs := numElems (fuseClass x.fuse) a
    let ys := numElems (fuseClassB x.fuse) b
    let prod := fun (p : Nat × Nat) => (xs.getD p.1 (.fin false 0 0), ys.getD p.2 (.fin false 0 0))
    let cell := (pairs xs.length ys.length).foldl (fun c p =>
      let i := e + p.1 * ys.length + p.2
      if fuseClass x.fuse ≤ 7 then c.setAcc i ((c.accAt i).addNum ((prod p).1.mul (prod p).2))
      else c.setBank i (addProduct (accumMode x.fuse) (c.bankAt i) (prod p).1 (prod p).2)) v
    { cell := cell
      snan := decide (8 ≤ fuseClass x.fuse) && ((xs ++ ys).any Num.snan ||
        (pairs xs.length ys.length).any (fun p => v.bankSnan (e + p.1 * ys.length + p.2))) }

/-- dot's accumulation (R245), with SNAN as for mac. -/
def Cell.dot (v : Cell) (x : OpCtx) : OpOut :=
  let e := v.entry x.reg
  let a := x.a.payload.toNat
  let b := x.b.payload.toNat
  if fuseClass x.fuse ≤ 1 then
    let s := intSides x.fuse a b
    let r := (v.accAt e).addInt ((s.1.zip s.2).map (fun p => p.1 * p.2)).sum
    { cell := v.setAcc e r.1, sat := r.2 }
  else
    let ps := (numElems (fuseClass x.fuse) a).zip (numElems (fuseClassB x.fuse) b)
    let cell := ps.foldl (fun c p =>
      if fuseClass x.fuse ≤ 7 then c.setAcc e ((c.accAt e).addNum (p.1.mul p.2))
      else c.setBank e (addProduct (accumMode x.fuse) (c.bankAt e) p.1 p.2)) v
    { cell := cell, snan := decide (8 ≤ fuseClass x.fuse) && (ps.any (fun p => p.1.snan || p.2.snan) || v.bankSnan e) }

/-- The digit of an element in a plane: the top digit of a class 11 element is signed (R81, R82). -/
def digit (top : Bool) (slice i : Nat) : Int :=
  let d := slice / 4 ^ i % 4
  if top then signedOf 2 d else d

/-- macp's accumulation of one digit-plane pair (R237). -/
def Cell.macp (v : Cell) (x : OpCtx) : OpOut :=
  let e := v.entry x.reg
  let hA := fuseA x.fuse
  let hB := fuseB x.fuse
  let i := v.z % hA
  let j := v.z / hA
  (pairs 16 16).foldl (fun o p =>
    let d := digit (decide (i + 1 = hA)) (x.a.payload.toNat % 2 ^ 32) p.1 * digit (decide (j + 1 = hB)) (x.b.payload.toNat % 2 ^ 32) p.2
    let r := (o.cell.accAt (e + 16 * p.1 + p.2)).addInt (d * (4 ^ (i + j) : Nat))
    { o with cell := o.cell.setAcc (e + 16 * p.1 + p.2) r.1, sat := o.sat || r.2 }) { cell := v }

/-- The scale byte of element `i`, from the word at a tap and the word one tap older (R246). -/
def scaleByte (n : Nat) (w older : GWord) (i : Nat) : Nat :=
  let byte := fun (x : GWord) (k : Nat) => x.payload.toNat / 2 ^ (8 * k) % 256
  if n = 16 then (if i < 8 then byte older i else byte w (i - 8)) else byte w i

/-- scl (R246). -/
def Cell.scl (v : Cell) (x : OpCtx) : OpOut :=
  let e := v.entry x.reg
  let nA := (numElems (fuseClass x.fuse) 0).length
  let nB := (numElems (fuseClassB x.fuse) 0).length
  let rm := accumMode x.fuse
  { cell := (pairs nA nB).foldl (fun c p =>
      let i := e + p.1 * nB + p.2
      let s := scalePartial rm (c.accAt i) (scaleByte nA x.a x.a1 p.1) (scaleByte nB x.b x.b1 p.2)
      (c.setBank i (addFP32 rm (c.bankAt i) s)).setAcc i {}) v }

/-- acc.emit: the value of two entries, and whether it was clamped (R247); an integer one is taken from the bits whatever the tag
(DESIGN CHOICE, log 134). -/
def Cell.accEmit (v : Cell) (x : OpCtx) : Word × Bool :=
  let e := v.entry x.reg
  let cls := fuseClass x.fuse
  if cls ≤ 1 ∨ cls = 11 then
    let c := if cls = 1 then 1 else 0
    let one := fun (i : Nat) => let p := (v.accAt i).toInt
      (toLane 32 (sat p (intLo c 32) (intHi c 32)), sat p (intLo c 32) (intHi c 32) != p)
    (ofLanes 32 [(one e).1, (one (e + 1)).1], (one e).2 || (one (e + 1)).2)
  else (ofLanes 32 [(v.bankAt e).toNat, (v.bankAt (e + 1)).toNat], false)

/-- acc.clr (R247). -/
def Cell.accClr (v : Cell) (e : Nat) : Cell :=
  (List.range 16).foldl (fun c i => (c.setAcc (e + i) {}).setBank (e + i) 0) v

/-- acc.ld (R247). -/
def Cell.accLd (v : Cell) (e : Nat) : Cell :=
  let w0 := v.padAt v.w
  let w1 := v.padAt (v.w + 1)
  (v.setAcc e { val := BitVec.ofNat 80 (w0.toNat + 2 ^ 64 * fieldN w1 0 16), tag := field w1 16 2 }).setBank e (field w1 32 32)

/-- acc.st (R247). -/
def Cell.accSt (v : Cell) (e : Nat) : Cell :=
  let a := v.accAt e
  (v.setPad v.w (field a.val 0 64)).setPad (v.w + 1)
    (BitVec.ofNat 64 (packNat [(16, fieldN a.val 64 16), (2, a.tag.toNat), (14, 0), (32, (v.bankAt e).toNat)]))

/-- The value ops on lanes (R242 to R244, R248). -/
def laneValue (x : OpCtx) : Word × Bool × Bool :=
  let o := opCode x.op
  let cls := fuseClass x.fuse
  let w := laneWidth x.fuse
  let a := x.a.payload.toNat
  let b := x.b.payload.toNat
  let rm := accumMode x.fuse
  if o = 0x1A then let r := packOp cls w a b; (r.1, r.2, false)
  else if o = 0x1B then (unpackOp cls w a, false, false)
  else if o = 0x1D then (rmaxOp cls w a, false, false)
  else if o = 0x1E then (rsumOp cls w a, false, false)
  else if o = 0x21 then (mulOp x.fuse a b, false, false)
  else if o = 0x2F then let r := fcvtOp cls rm a; (r.1, false, r.2)
  else if 0x28 ≤ o ∧ o ≤ 0x2E then
    let r := mapLanes (floatLane o (classFmt cls) rm w) (lanes w a) (lanes w b) (lanes w x.c.toNat)
    (ofLanes w r.1, false, r.2)
  else
    let r := mapLanes (laneOp o cls w) (lanes w a) (lanes w b) (lanes w x.c.toNat)
    (ofLanes w r.1, r.2, false)

/-- Whether mac, macp and dot accumulate and forward, by dst (R245). -/
def accumulates (dst : Nat) : Bool := dst != 0 && dst != 3
def forwardsDst (dst : Nat) : Bool := dst == 3 || dst == 4

/-- The effect of an op whose guard holds, before its value is placed (R241 to R249). DESIGN CHOICE (log 124): a mac, macp or dot that does
not accumulate (dst 0 or 3) sets no SNAN, as it takes part in no sum (R250). -/
def Cell.execute (v : Cell) (x : OpCtx) : OpOut :=
  let dst := opDst x.op
  let e := v.entry x.reg
  let multiply := fun (o : OpOut) =>
    let o' := if accumulates dst then o else { cell := v }
    { o' with forwards := forwardsDst dst }
  match opCode x.op with
  | 0x00 => { cell := v }
  | 0x01 => { cell := v, forwards := true }
  | 0x02 => { cell := v, value := some x.a }
  | 0x20 => multiply (v.mac x)
  | 0x22 => multiply (v.macp x)
  | 0x23 => multiply (v.dot x)
  | 0x24 => { cell := v.accClr e }
  | 0x25 => let r := v.accEmit x; { cell := v, value := some (dataWord r.1), sat := r.2 }
  | 0x26 => { cell := v.accLd e }
  | 0x27 => { cell := v.accSt e }
  | 0x30 => v.scl x
  | 0x31 => { cell := v, value := some (dataWord (v.padAt v.w)) }
  | 0x32 => { cell := v.setPad v.w x.a.payload }
  | 0x33 => { cell := { v with base := (v.base + 1) % 32 } }
  | _ => let r := laneValue x; { cell := v, value := some (dataWord r.1), sat := r.2.1, snan := r.2.2 }

/-- Places a value (R232); the emissions and the edge lane are the island's. -/
def Cell.place (v : Cell) (dst : Nat) (reg : BitVec 16) (x : GWord) : Cell :=
  let e := v.entry reg
  let banks := fun (c : Cell) => (c.setBank e (field x.payload 0 32)).setBank (e + 1) (field x.payload 32 32)
  match dst with
  | 1 => banks v
  | 2 => { v with rot := spInsert v.rot (v.rotIndex reg (regWr reg)) x.payload }
  | 3 => { v with out := x }
  | 4 => { banks v with out := x }
  | 5 => v.setPad v.w x.payload
  | 6 =>
    let n := regWr reg % 8
    if 1 ≤ n ∧ n ≤ 5 then
      { v with flags := if x.payload ≠ 0 then v.flags ||| ((1 : BitVec 8) <<< n) else v.flags &&& ~~~((1 : BitVec 8) <<< n) }
    else v
  | _ => v

/-- The words that an op reads at the taps it uses (R233). DESIGN CHOICE (log 123): a multiply op that neither accumulates nor forwards (dst
0) uses none, one that forwards (dst 3, 4) uses both taps whatever directions its outmask names, and pass uses the tap of a direction that is
set. -/
def usedWords (x : OpCtx) (outEW outNS : Bool) : List GWord :=
  let o := opCode x.op
  if o = 0x00 ∨ (0x24 ≤ o ∧ o ≤ 0x27) ∨ o = 0x31 ∨ o = 0x33 then []
  else if o = 0x01 then (if outEW then [x.a] else []) ++ (if outNS then [x.b] else [])
  else if [0x02, 0x10, 0x11, 0x16, 0x17, 0x1B, 0x1C, 0x1D, 0x1E, 0x2F, 0x32].contains o then [x.a]
  else if o = 0x30 then
    [x.a, x.b] ++ (if fuseClass x.fuse = 2 then [x.a1] else []) ++ (if fuseClassB x.fuse = 2 then [x.b1] else [])
  else if (o = 0x20 ∨ o = 0x22 ∨ o = 0x23) ∧ opDst x.op = 0 then []
  else [x.a, x.b]

end Sys2Proof.Machine
end

