-- ==== Sys2Proof/Machine/Cells.lean ====
section
/-!
DEFINITION. Timing islands: the slot of an island with its sources, stalls and emissions (R219 to R233, R368 to R370),
and the switch of an island to its block's bank (R221, R269).
-/
namespace Sys2Proof.Machine

/-! ## Sources and destinations (R224, R227) -/

/-- A FIFO that backs a source. -/
inductive SrcFifo
  | link (key : Nat)
  | mem (n : Nat)
  | edge (y : Nat)
  | row (y : Nat)
  | inj (i : Nat)
  deriving DecidableEq, Repr

/-- A source: a register's word, or the head of a FIFO. -/
inductive Src
  | word (w : GWord)
  | fifo (f : SrcFifo)
  deriving DecidableEq, Repr

/-- The opposite direction. -/
def opposite (dir : Nat) : Nat := (dir + 2) % 4

/-- The source that a code names for a cell of island `isl` of the block in a bank (R224, R225). -/
def Region.source (r : Region) (bank : Bool) (img : Block) (isl cell code : Nat) (reg : BitVec 16) : Src :=
  let v := r.cell cell
  if code < 4 then
    match neighbour cell code with
    | some n =>
      if img.islandOf n = some isl then .word ((r.cell n).links.getD (opposite code) {})
      else .fifo (.link (linkKey n (opposite code)))
    | none =>
      match code with
      | 0 => .fifo (.mem (cell % 16))
      | 1 => .fifo (.edge (cell / 16))
      | 2 => .fifo (.mem (16 + cell % 16))
      | _ => .fifo (.row (cell / 16))
  else match code with
    | 4 => .word v.out
    | 5 => .word (dataWord (v.rotAt (v.rotIndex reg (regRd reg))))
    | 6 => .word (dataWord (v.padAt v.w))
    | 7 => .word (dataWord ((r.bank bank).consts.getD (regRd reg) 0))
    | _ => .fifo (.inj (injKey bank isl))

/-- What a FIFO presents: boundary FIFOs hide a head whose tag is blocked (R320). -/
def Region.head (r : Region) : SrcFifo → Option QWord
  | .link k => (spGet [] r.retim k).head?
  | .mem n => r.present (spGet [] r.memIn n)
  | .edge y => (r.edge y).cell.head?
  | .row y => r.present (spGet [] r.rows y)
  | .inj i => r.present (spGet [] r.inj i)

/-- The FIFO without its head. -/
def Region.pop (r : Region) : SrcFifo → Region
  | .link k => { r with retim := spInsert r.retim k ((spGet [] r.retim k).drop 1) }
  | .mem n => { r with memIn := spInsert r.memIn n ((spGet [] r.memIn n).drop 1) }
  | .edge y => r.setEdge y { r.edge y with cell := (r.edge y).cell.drop 1 }
  | .row y => { r with rows := spInsert r.rows y ((spGet [] r.rows y).drop 1) }
  | .inj i => { r with inj := spInsert r.inj i ((spGet [] r.inj i).drop 1) }

/-- Where an emission goes (R227). -/
inductive Dest
  | link
  | retim (key : Nat)
  | gone
  | mem (n : Nat)
  | lane (y : Nat)
  | router (y : Nat)
  deriving DecidableEq, Repr

/-- Where a word goes that is pushed out of the grid north or south of a column: into the memory tile's output FIFO, or away
if the block binds no output stream there (R344). -/
def tileOut (img : Block) (n : Nat) : Dest :=
  if img.binds.any (fun e => e.kind == 2 + n / 16 && e.pos == n % 16) then .mem n else .gone

/-- The destination of a direction (R227). -/
def destOf (img : Block) (isl cell dir : Nat) : Dest :=
  match neighbour cell dir with
  | some n =>
    match img.islandOf n with
    | some i => if i = isl then .link else .retim (linkKey cell dir)
    | none => .gone
  | none =>
    match dir with
    | 0 => tileOut img (cell % 16)
    | 1 => .lane (cell / 16)
    | 2 => tileOut img (16 + cell % 16)
    | _ => .router (cell / 16)

/-! ## The edges of two blocks (R268, R269) -/

/-- Whether an edge unit has performed its last step for a bank's block (R268): it works on that record and finds
nothing more to do, or it has gone on to the record of the bank that cfg.run took later. -/
def Region.edgeDone (r : Region) (bank : Bool) (y : Nat) : Bool :=
  let b := r.bank bank
  let e := r.edge y
  if e.stopped then false
  else if e.bank != bank then bank != r.cur
  else b.islands.all Island.complete && e.lane.isEmpty &&
    (match b.bound.find? (fun x => x.kind == 4 && x.pos == y) with
     | some x => (r.stream x.stream).state == 3 && (r.stream x.stream).ahead.isEmpty && e.input.isEmpty
     | none => true)

/-- Whether a row's edge unit has switched to the record of a bank's block, so that its lane takes that block's words (R269,
R401). -/
def Region.laneOpen (r : Region) (bank : Bool) (y : Nat) : Bool := !(r.edge y).stopped && (r.edge y).bank == bank

/-- Whether the last round of a bank's block has committed (R268). -/
def Bank.lastCommitted (b : Bank) : Bool :=
  match b.img with
  | some img => decide (img.lastRound < b.computing) && b.committing.isNone
  | none => true

/-- Whether an island of the block before, which reads FIFOs at a cell, has not completed (R269). -/
def Region.readerOld (r : Region) (bank : Bool) (cell : Nat) : Bool :=
  let o := r.bank (!bank)
  bank == r.cur && o.running && match o.img.bind (fun i => i.islandOf cell) with
    | some i => !((o.islands.getD i {}).complete)
    | none => false

/-- Whether a directed link of the older block leads to an island that the newer block has started: what it carries is
discarded, like the words left at that island's switch (R269, log 94). -/
def Region.linkGone (r : Region) (bank : Bool) (k : Nat) : Bool :=
  let n := r.bank r.cur
  bank != r.cur && n.running && match neighbour (k / 4) (k % 4), n.img with
    | some c, some img => match img.islandOf c with
      | some i => (n.islands.getD i {}).started
      | none => false
    | _, _ => false

/-- Whether the block of a bank binds an output stream at a memory tile now: one whose binding cfg.unbind has ended is bound no more (R275,
R344). -/
def Region.tileBound (r : Region) (bank : Bool) (n : Nat) : Bool := (r.bank bank).bound.any (fun e => e.kind == 2 + n / 16 && e.pos == n % 16)

/-- Whether a destination can take one word; a tile where the block binds no output stream any more discards what it is given, and a
lane takes only words of the block whose record its unit works on (R49, R231, R269, R344, R401), and so none of a block without a record
for the row (DEDUCED, log 135). -/
def Region.destRoom (r : Region) (bank : Bool) : Dest → Bool
  | .link => true
  | .gone => true
  | .retim k => r.linkGone bank k || decide ((spGet [] r.retim k).length < 8) &&
      !(match neighbour (k / 4) (k % 4) with | some n => r.readerOld bank n | none => false)
  | .mem n => decide ((spGet [] r.memOut n).length < 8) || !(r.tileBound bank n)
  | .lane y => decide ((r.edge y).lane.length < 8) && r.laneOpen bank y
  | .router y => decide ((r.loc.filter (fun q => q.src == y)).length < 8)

/-! ## A cell's part of a slot -/

/-- What a cell is about to do in a slot. -/
structure CellPlan where
  cell : Nat
  op : BitVec 24
  route : BitVec 16
  reg : BitVec 16
  srcA : Src
  srcB : Src
  run : Bool
  deriving Repr

/-- The flag of a guard (R223). -/
def flagOf (v : Cell) (nest trip : List Nat) (g : Nat) : Bool :=
  let n0 := nest.getD 0 0
  match g with
  | 0 => true
  | 6 => decide (n0 + 1 = trip.getD 0 1)
  | 7 => decide (n0 = 0)
  | _ => v.flags.getLsbD g

/-- A ring's entry at a counter (R220). -/
def ringAt {w : Nat} (l : List (BitVec w)) (c : Nat) : BitVec w := l.getD (c % l.length) 0

/-- The plan of a cell record in the slot at the island's counter (R230). -/
def Region.plan (r : Region) (bank : Bool) (img : Block) (isl : Nat) (i : Island) (c : CellRec) : CellPlan :=
  let cell := 16 * c.y + c.x
  let op := ringAt c.ops i.counter
  let route := ringAt c.routes i.counter
  let reg := ringAt c.regs i.counter
  { cell := cell, op := op, route := route, reg := reg
    srcA := r.source bank img isl cell (routeA route) reg, srcB := r.source bank img isl cell (routeB route) reg
    run := opGuard op = 0 || (flagOf (r.cell cell) i.nest img.trip (opGuard op) != opGneg op) }

/-- Whether the op emits, apart from dst edge (R227, R245). -/
def opEmits (op : BitVec 24) : Bool :=
  let o := opCode op
  if o = 0x01 then true
  else if o = 0x20 ∨ o = 0x22 ∨ o = 0x23 then forwardsDst (opDst op)
  else opPlaces o && forwardsDst (opDst op)

/-- The directions in which a plan emits, with dst edge as 4. -/
def CellPlan.emits (p : CellPlan) : List Nat :=
  if p.run then
    (if opEmits p.op then (List.range 4).filter (routeDir p.route) else []) ++
      (if writesLane p.op then [4] else [])
  else []

/-- The destination of an emission. -/
def CellPlan.dest (p : CellPlan) (img : Block) (isl dir : Nat) : Dest :=
  if dir = 4 then .lane (p.cell / 16) else destOf img isl p.cell dir

/-- The FIFOs that a plan reads. -/
def CellPlan.fifos (p : CellPlan) : List SrcFifo :=
  (match p.srcA with | .fifo f => [f] | _ => []) ++ (match p.srcB with | .fifo f => [f] | _ => [])

/-- Whether an island with a bound task waits for its injection FIFO (R225). -/
def Region.taskHolds (r : Region) (bank : Bool) (isl : Nat) (i : Island) : Bool :=
  i.counter == 0 && r.tags.any (fun t => t.2.task == some isl) && (r.head (.inj (injKey bank isl))).isNone

/-- Whether the island stalls (R231). -/
def Region.stalls (r : Region) (bank : Bool) (img : Block) (isl : Nat) (i : Island) (ps : List CellPlan) : Bool :=
  r.taskHolds bank isl i || (ps.flatMap CellPlan.fifos).any (fun f => (r.head f).isNone) ||
    ps.any (fun p => p.emits.any (fun d => !(r.destRoom bank (p.dest img isl d))))

/-- The word of a source. -/
def Region.srcWord (r : Region) : Src → GWord
  | .word w => w
  | .fifo f => match r.head f with | some q => q.w | none => {}

/-- A word on its way out of a cell. -/
structure Emission where
  cell : Nat
  dir : Nat
  dest : Dest
  w : GWord
  deriving Repr

/-- What a cell's slot gives: the cell, its emissions, the sticky bits, and whether it read poison. -/
structure CellDone where
  key : Nat
  cell : Cell
  out : List Emission
  sat : Bool
  snan : Bool
  poison : Bool
  deriving Repr

/-- The context of an op after the ports have shifted (R226, R230). -/
def Region.opCtx (v : Cell) (fuse : List (BitVec 16)) (p : CellPlan) : OpCtx :=
  { op := p.op, fuse := fuse.getD (opFmt p.op) 0, reg := p.reg
    a := v.portA.getD (opTapA p.op) {}, b := v.portB.getD (opTapB p.op) {}
    a1 := v.portA.getD (opTapA p.op + 1) {}, b1 := v.portB.getD (opTapB p.op + 1) {}
    c := v.rotAt (v.rotIndex p.reg (regRd p.reg)) }

/-- One cell's slot: shift, execute, place, emit, and step its pointers (R229, R230, R233). -/
def Region.cellSlot (r : Region) (img : Block) (isl : Nat) (p : CellPlan) : CellDone :=
  let v0 := r.cell p.cell
  let v := { v0 with portA := r.srcWord p.srcA :: v0.portA.take 15, portB := r.srcWord p.srcB :: v0.portB.take 15 }
  let x := Region.opCtx v img.fuse p
  let outEW := routeDir p.route 1 || routeDir p.route 3
  let outNS := routeDir p.route 0 || routeDir p.route 2
  let poison := p.run && (usedWords x outEW outNS).any (fun w => w.kind == 3)
  let o := if p.run then v.execute x else { cell := v }
  let placed := match o.value with | some w => o.cell.place (opDst p.op) p.reg w | none => o.cell
  let c1 := if poison then v else placed
  let word := fun (d : Nat) => match o.value with
    | some w => w
    | none => if d = 1 ∨ d = 3 then x.a else x.b
  let mk := fun (d : Nat) => ({ cell := p.cell, dir := d, dest := p.dest img isl d, w := if poison then { word d with kind := 3 } else word d } : Emission)
  let w' := (c1.w + regStep p.reg) % 512
  let z' := if opCode p.op = 0x22 then (c1.z + 1) % (fuseA x.fuse * fuseB x.fuse) else c1.z
  { key := p.cell, cell := { c1 with w := w', z := z' }, out := p.emits.map mk, sat := o.sat && !poison, snan := o.snan && !poison,
    poison := poison }

/-! ## Emissions -/

/-- The word as it leaves the island: kind 0, unless it is a bubble or poison (R227, R233); a forwarded scale word too (DEDUCED,
log 136). -/
def leaving (img : Block) (route : BitVec 16) (w : GWord) : GWord :=
  { w with tag := BitVec.ofNat 8 (img.tagmap.getD (routeTag route) 0), mark := 3, kind := if w.kind = 2 ∨ w.kind = 3 then w.kind else 0 }

/-- Delivers an emission; a word for the die mesh is held for its round (R227, R350, log 7). -/
def Region.deliver (r : Region) (bank : Bool) (img : Block) (rnd : Nat) (route : BitVec 16) (e : Emission) : Region :=
  let w := leaving img route e.w
  let q : QWord := { w := w, rnd := rnd, own := true, bank := bank }
  match e.dest with
  | .link => let v := r.cell e.cell; r.setCell e.cell { v with links := v.links.set e.dir e.w }
  | .gone => r
  | .retim k => if r.linkGone bank k then r else { r with retim := spInsert r.retim k (spGet [] r.retim k ++ [q]) }
  | .mem n => if r.tileBound bank n then { r with memOut := spInsert r.memOut n (spGet [] r.memOut n ++ [q]) } else r
  | .lane y => r.setEdge y { r.edge y with lane := (r.edge y).lane ++ [q] }
  | .router y =>
    match spFind r.route w.tag.toNat with
    | none => { r with loc := r.loc ++ [{ q with src := y }] }
    | some _ => r.setBank bank ((r.bank bank).modHold rnd (fun h => { h with outbound := h.outbound ++ [w] }))

/-- The key of a FIFO whose words may come from the die mesh (R352). -/
def SrcFifo.meshKey : SrcFifo → Option Nat
  | .row y => some y
  | .inj i => some (16 + i)
  | _ => none

/-- Pops a FIFO for a round, remembering a word that the block has not placed itself (R352). -/
def Region.consume (r : Region) (bank : Bool) (rnd : Nat) (f : SrcFifo) : Region :=
  let r1 := r.pop f
  match f.meshKey, r.head f with
  | some k, some q =>
    if q.own && q.bank == bank then r1
    else r1.setBank bank ((r1.bank bank).modHold rnd (fun h => { h with consumed := h.consumed ++ [(k, q)] }))
  | _, _ => r1

/-! ## The schedule (R219, R347, R348, R368) -/

/-- The nest after one more iteration; the flag says that the outermost counter has reached its trip. -/
def nestStep : List Nat → List Nat → List Nat × Bool
  | [n], [t] => ([n + 1], decide (t ≤ n + 1))
  | n :: ns, t :: ts => if n + 1 < t then ((n + 1) :: ns, false) else let r := nestStep ns ts; (0 :: r.1, r.2)
  | ns, _ => (ns, true)

/-- The nest of a block's depth, padded. -/
def nestNext (img : Block) (nest : List Nat) : List Nat × Bool :=
  let r := nestStep (nest.take img.depth) (img.trip.take img.depth)
  (r.1 ++ List.replicate (5 - img.depth) 0, r.2)

/-- The counter's step after a slot; a bubble iteration moves neither the nest nor the rounds (R219, R347). -/
def Island.step (i : Island) (img : Block) (period computing : Nat) : Island :=
  if i.counter + 1 < period then { i with counter := i.counter + 1 }
  else
    let j := { i with counter := 0, iter := i.iter + 1, sampled := false }
    if i.bubble then j
    else
      let n := nestNext img i.nest
      let k := n.1.getD (img.depth - 1) 0 / img.round
      { j with nest := n.1, complete := n.2, fence := if !n.2 && decide (computing < k) then some computing else none }

/-- Samples the throttle level at the start of an iteration (R368). -/
def Island.sample (i : Island) (level : Nat) : Island :=
  if i.sampled then i
  else { i with sampled := true, bubble := decide (i.iter * level / 64 < (i.iter + 1) * level / 64) }

/-- The rotating base steps at the end of every iteration that is no bubble (R229). -/
def Region.rotateBases (r : Region) (cells : List Nat) : Region :=
  cells.foldl (fun g c => let v := g.cell c; g.setCell c { v with base := (v.base + 1) % 32 }) r

/-- Puts an island back into its bank; the bank is complete when all its islands are (R268). -/
def Region.setIsland (r : Region) (bank : Bool) (isl : Nat) (i : Island) : Region :=
  let b := r.bank bank
  let l := b.islands.set isl i
  r.setBank bank { b with islands := l, state := if l.all Island.complete then 3 else b.state }

/-! ## Counting (R150) -/

/-- Where a cell slot is counted: slotsA to slotsE, slotsO, or nowhere for nop. -/
def slotClass (fuse : List (BitVec 16)) (op : BitVec 24) : Option Nat :=
  let o := opCode op
  if o = 0 then none else if opNoFuse o then some 5 else some (rateClass (fuse.getD (opFmt op) 0))

/-- Adds one to a slots counter. -/
def Counters.slot (c : Counters) (i : Nat) : Counters :=
  if h : i < 6 then { c with slots := c.slots.set i (c.slots[i] + 1) h } else c

/-! ## ISLAND_SLOT -/

/-- A bubble slot: the emissions that leave the island for lanes and memory tiles go as words of kind 2; those into FIFOs
that cells read are discarded on arrival (R369). -/
def Region.bubbleSlot (r : Region) (bank : Bool) (img : Block) (isl : Nat) (ps : List CellPlan) : Region :=
  let w : GWord := { kind := 2 }
  let put := fun (g : Region) (e : Dest × BitVec 16) =>
    let q : QWord := { w := leaving img e.2 w, own := true, bank := bank, rnd := (g.bank bank).computing }
    match e.1 with
    | .mem n => if g.destRoom bank (.mem n) && g.tileBound bank n then { g with memOut := spInsert g.memOut n (spGet [] g.memOut n ++ [q]) } else g
    | .lane y => if g.destRoom bank (.lane y) then g.setEdge y { g.edge y with lane := (g.edge y).lane ++ [q] } else g
    | _ => g
  (ps.flatMap (fun p => p.emits.map (fun d => (p.dest img isl d, p.route)))).foldl put r

/-- What a slot gives the region: the region, whether a cell read poison, and whether a round's outbound hold overflowed
(R233, R350). -/
structure SlotDone where
  region : Region
  poison : Bool := false
  full : Bool := false
  deriving Repr

/-- A slot that is no bubble and does not stall (R230). -/
def Region.realSlot (r : Region) (bank : Bool) (img : Block) (isl : Nat) (ps : List CellPlan) : SlotDone :=
  let k := (r.bank bank).computing
  let dones := ps.map (r.cellSlot img isl)
  let r1 := (ps.flatMap CellPlan.fifos).eraseDups.foldl (fun g f => g.consume bank k f) r
  let r2 := dones.foldl (fun g d => g.setCell d.key d.cell) r1
  let routeOf := fun (c : Nat) => match ps.find? (fun p => p.cell == c) with | some p => p.route | none => 0
  let r3 := (dones.flatMap CellDone.out).foldl (fun g e => g.deliver bank img k (routeOf e.cell) e) r2
  let sat := dones.any CellDone.sat
  let snan := dones.any CellDone.snan
  let r4 := (r3.sticky sat snan).setBank bank ((r3.bank bank).modHold k (fun h => { h with sat := h.sat || sat, snan := h.snan || snan }))
  { region := r4, poison := dones.any CellDone.poison, full := decide (1024 < ((r4.bank bank).hold k).outbound.length) }

/-- The end of a slot: the counter, and at an iteration's end the bases (R219, R229). -/
def Region.slotEnd (r : Region) (bank : Bool) (img : Block) (isl : Nat) (i : Island) : Region :=
  let j := i.step img (img.period isl) (r.bank bank).computing
  let r1 := if j.counter = 0 ∧ !i.bubble then
      r.rotateBases ((img.cells.filter (fun c => c.island == isl)).map (fun c => 16 * c.y + c.x)) else r
  r1.setIsland bank isl j

/-- The throttle level of a region's column (R28, R368). -/
def State.level (s : State) (r : Nat) : Nat := spGet 0 s.pkg.throttle (10 * dieOf r + r % 8)

/-- A cause that voids the rounds of a block is queued, and the block waits (R352, R353). -/
def State.voidCause (s : State) (r : Nat) (bank : Bool) (k : Nat) (c : Pend) (wait : VoidWait) : State :=
  (s.modReg r (fun g => g.void bank k wait)).queueCause r c

/-- ISLAND_SLOT: one slot of one island (R230). -/
def State.islandSlot (s : State) (r : Nat) (bank : Bool) (isl : Nat) : State :=
  let g := s.reg r
  let b := g.bank bank
  match b.img, b.islands[isl]? with
  | some img, some i0 =>
    if b.state ≠ 2 ∨ b.held ∨ !i0.started ∨ i0.complete ∨ i0.fence.isSome then s
    else
      let i := i0.sample (s.level r)
      let cells := img.cells.filter (fun c => c.island == isl)
      let ps := cells.map (g.plan bank img isl i)
      let p := (s.owner r).getD 48
      if i.bubble then
        (s.setReg r ((g.bubbleSlot bank img isl ps).slotEnd bank img isl i)).meter p (dieOf r)
          (fun c => { c with void := c.void + BitVec.ofNat 64 ps.length })
      else if g.stalls bank img isl i ps then s.setReg r (g.setIsland bank isl i)
      else
        let d := g.realSlot bank img isl ps
        let s1 := (s.setReg r (d.region.slotEnd bank img isl i)).meter p (dieOf r)
          (fun c => (ps.filterMap (fun q => slotClass img.fuse q.op)).foldl Counters.slot c)
        if d.poison then s1.voidCause r bank b.computing { cause := Cause.poisonReceived } .remap
        else if d.full then
          (s1.modReg r (fun x => x.abortBank bank)).queueCause r { cause := Cause.roundOutboundFull, finfo := BitVec.ofNat 64 img.va }
        else s1
  | _, _ => s

/-- ISLAND_SLOT (R230). -/
def execIslandSlot (r : Nat) (bank : Bool) (isl : Nat) (s : State) : Out :=
  if r < 192 then .next (s.islandSlot r bank isl) else .fault .noSuchUnit

/-! ## ISLAND_SWITCH (R221, R269) -/

/-- Whether an island of a bank's block has drained: completed, with the last round committed and its words in retiming FIFOs
popped (R268, R269). DESIGN CHOICE (log 125): R268 says this of a bank; of one island the model asks its own completion, its block's last commit
and its own words. -/
def Region.islandDrained (r : Region) (bank : Bool) (img : Block) (isl : Nat) : Bool :=
  let b := r.bank bank
  (b.islands.getD isl {}).complete && b.lastCommitted &&
    r.retim.all (fun e => e.2.all (fun q => q.bank != bank) || img.islandOf (e.1 / 4) != some isl)

/-- Whether an island may switch: every island of the other bank's block that shares a cell with it has drained
(R269). -/
def Region.mayswitch (r : Region) (bank : Bool) (img : Block) (isl : Nat) : Bool :=
  let o := r.bank (!bank)
  match o.img with
  | none => true
  | some old =>
    !o.running || (old.islands.zipIdx).all (fun e =>
      !((img.islands.getD isl ⟨0, 0, 0, 0⟩).meets e.1) || r.islandDrained (!bank) old e.2)

/-- A cell whose rotating registers, accumulator and running-bank entries are zero but for those that carries name (R221). -/
def Cell.carried (v : Cell) (cell : Nat) (carries : List Carry) : Cell :=
  let keep := fun (kind n : Nat) =>
    carries.any (fun c => c.cell == cell && c.kind == kind && decide (c.first ≤ n) && decide (n < c.first + c.count))
  { v with rot := v.rot.filter (fun e => keep 0 e.1), acc := v.acc.filter (fun e => keep 1 e.1), bank := v.bank.filter (fun e => keep 2 e.1) }

/-- The state of a cell as its island starts (R221). -/
def Cell.started (v : Cell) (cell : Nat) (carries : List Carry) : Cell :=
  let k := v.carried cell carries
  { rot := k.rot, acc := k.acc, bank := k.bank, pad := v.pad }

/-- Whether a directed link leads to an island of the other bank's block that shares a cell with a new island (R269). -/
def Region.leadsOld (r : Region) (bank : Bool) (img : Block) (isl k : Nat) : Bool :=
  match neighbour (k / 4) (k % 4), (r.bank (!bank)).img with
  | some n, some old => match old.islandOf n with
    | some i => (img.islands.getD isl ⟨0, 0, 0, 0⟩).meets (old.islands.getD i ⟨0, 0, 0, 0⟩)
    | none => false
  | _, _ => false

/-- The island starts: its cells take their starting state, which is also the checkpoint of round 0; words left in the
retiming FIFOs that the old islands there read are discarded (R221, R269, R349). -/
def Region.switchIsland (r : Region) (bank : Bool) (img : Block) (isl : Nat) : Region :=
  let cells := (img.cells.filter (fun c => c.island == isl)).map (fun c => 16 * c.y + c.x)
  let news := cells.map (fun c => (c, (r.cell c).started c img.carries))
  let r1 := news.foldl (fun (g : Region) (e : Nat × Cell) => g.setCell e.1 e.2) { r with
    retim := r.retim.map (fun e => if r.leadsOld bank img isl e.1 then (e.1, e.2.filter (fun q => q.bank == bank)) else e)
    mirrors := news.foldl (fun (m : Sparse Cell) (e : Nat × Cell) => spInsert m e.1 { e.2 with pad := [] }) r.mirrors }
  let b := r1.bank bank
  r1.setBank bank { b with
    islands := b.islands.set isl { started := true }
    checks := b.checks.map (fun c => if c.rnd = 0 then { c with cells := news.foldl (fun (m : Sparse Cell) (e : Nat × Cell) => spInsert m e.1 e.2) c.cells } else c) }

/-- ISLAND_SWITCH, on the bank that cfg.run last took (R269). -/
def Region.islandSwitch (r : Region) (isl : Nat) : Region :=
  let b := r.bank r.cur
  match b.img, b.islands[isl]? with
  | some img, some i =>
    if b.running ∧ !b.held ∧ !i.started ∧ r.mayswitch r.cur img isl then r.switchIsland r.cur img isl else r
  | _, _ => r

/-- ISLAND_SWITCH (R269). -/
def execIslandSwitch (r isl : Nat) (s : State) : Out :=
  if r < 192 then .next (s.modReg r (fun g => g.islandSwitch isl)) else .fault .noSuchUnit

end Sys2Proof.Machine
end

