-- ==== Sys2Proof/Machine/EdgeOps.lean ====
section
/-!
DEFINITION. The edge opcodes (R256 to R267).
-/
namespace Sys2Proof.Machine

/-! ## Types (R257) -/

/-- The width of a type code. -/
def typeWidth (t : Nat) : Nat :=
  match t with
  | 0 | 11 | 14 => 32
  | 1 | 2 | 10 | 13 => 16
  | 3 => 4
  | 4 | 5 => 6
  | 15 => 64
  | _ => 8

/-- The format of a float type code. -/
def typeFmt (t : Nat) : Fmt :=
  match t with
  | 0 => fmtFP32
  | 1 => fmtBF16
  | 2 => fmtFP16
  | 3 => fmtE2M1
  | 4 => fmtE2M3
  | 5 => fmtE3M2
  | 6 => fmtE4M3
  | _ => fmtE5M2

/-- Whether a type code is an integer. -/
def typeInt (t : Nat) : Bool := decide (9 ≤ t)
/-- Whether an integer type code is signed. -/
def typeSigned (t : Nat) : Bool := (decide (9 ≤ t) && decide (t ≤ 11)) || t == 15

/-- One lane of cvt: the bits, whether it was clamped, whether the source was a signalling NaN (R262). DESIGN CHOICE (log 105): a
lane that passes unchanged between equal types is no operand of an arithmetic operation, and a signalling NaN there sets no SNAN. -/
def cvtLane (src dst : Nat) (rm : Rm) (v : Nat) : Nat × Bool × Bool :=
  let wd := typeWidth dst
  let cls := if typeSigned dst then 0 else 1
  let lo := intLo cls wd
  let hi := intHi cls wd
  let x : Int := if typeSigned src then signedOf (typeWidth src) v else v
  if src = dst then (v, false, false)
  else if typeInt src then
    if typeInt dst then (toLane wd (sat x lo hi), sat x lo hi != x, false)
    else ((typeFmt dst).encode rm (Num.ofInt x), false, false)
  else
    let n := (typeFmt src).decode v
    if typeInt dst then let r := n.toInteger rm lo hi; (toLane wd r.1, r.2, n.snan)
    else ((typeFmt dst).encode rm n, false, n.snan)

/-- The lanes of a cvt, each with its own step of the LFSR under rm 4 (R262). -/
def cvtLanes (src dst code : Nat) : BitVec 32 → List Nat → List (Nat × Bool × Bool) × BitVec 32
  | l, [] => ([], l)
  | l, v :: vs =>
    let l' := if code = 4 then lfsrStep l else l
    let r := cvtLanes src dst code l' vs
    (cvtLane src dst (rmOf code l'.toNat) v :: r.1, r.2)

/-! ## quant.mx (R264) -/

/-- The largest exponent of an MX type code (R74). -/
def typeEmax (t : Nat) : Int :=
  match t with
  | 3 | 4 => 2
  | 5 => 4
  | 6 => 8
  | 7 => 15
  | _ => 0

/-- The floor of log2 of a finite nonzero magnitude; −2^10 for zero. -/
def numLog2 : Num → Int
  | .fin _ m e => if m = 0 then -1024 else Nat.log2 m + e
  | _ => -1024

/-- One element of a block (R78, R79). -/
def quantElem (t : Nat) (rm : Rm) (x : Num) : Nat :=
  if t = 8 then
    let v := match x with
      | .fin n m e => ((Num.fin n m (e + 6)).toInteger rm (-127) 127).1
      | y => (y.toInteger rm (-127) 127).1
    (v % 256).toNat
  else (typeFmt t).encode rm x

/-- The elements of a block, each with its own step of the LFSR under rm 4. -/
def quantElems (t code : Nat) (shift : Int) : BitVec 32 → List Num → List Nat × BitVec 32
  | l, [] => ([], l)
  | l, x :: xs =>
    let l' := if code = 4 then lfsrStep l else l
    let y := match x with | .fin n m e => Num.fin n m (e + shift) | z => z
    let r := quantElems t code shift l' xs
    (quantElem t (rmOf code l'.toNat) y :: r.1, r.2)

/-- The scale and elements of 32 values (R264). -/
def quantBlock (t code : Nat) (lfsr : BitVec 32) (buf : List (BitVec 32)) : Nat × List Nat × BitVec 32 :=
  let xs := buf.map (fun b => fmtFP32.decode b.toNat)
  if xs.any Num.isNan || (t != 7 && xs.any Num.isInf) then (0xFF, List.replicate 32 0, lfsr)
  else
    let top := (xs.map numLog2).foldl max (-1024)
    let x := if top = -1024 then 0x7F else (sat (top - typeEmax t + 127) 0 254).toNat
    let r := quantElems t code (127 - x) lfsr xs
    (x, r.1, r.2)

/-- The words of an MX block: the first element word, the scale word, the others (R264). -/
def quantWords (t x : Nat) (es : List Nat) : List GWord :=
  let w := typeWidth t
  let per := if t = 3 then 16 else 8
  let n := 32 / per
  let word := fun (i : Nat) => BitVec.ofNat 64 (packNat (((es.drop (per * i)).take per).map (fun e => (w, e))))
  [{ payload := word 0, mark := 1 }, { payload := BitVec.ofNat 64 x, kind := 1 }] ++
    (List.range (n - 1)).map (fun i => { payload := word (i + 1), mark := if i + 2 = n then 2 else 0 })

/-! ## A step -/

/-- What an op reads: the op word, the operands, the block constant, the LFSR of the edge-output stream. -/
structure EdgeCtx where
  op : BitVec 24
  a : GWord
  b : GWord
  k : Word
  lfsr : BitVec 32
  deriving Repr

/-- What an op gives: the edge unit, the words to emit (their tags to be set), the held effects, the LFSR, the sticky
bits, and whether an add was refused (R91, R263). -/
structure EdgeOut where
  edge : Edge
  words : List GWord := []
  rmw : Option HeldRmw := none
  seqSlot : Option (Nat × Word) := none
  lfsr : BitVec 32
  sat : Bool := false
  snan : Bool := false
  refused : Bool := false
  deriving Repr

/-- The two FP32 lanes of a payload. -/
def lane0 (v : Word) : Nat := fieldN v 0 32
def lane1 (v : Word) : Nat := fieldN v 32 32
/-- Two lanes as a payload. -/
def twoLanes (x y : Nat) : Word := BitVec.ofNat 64 (packNat [(32, x), (32, y)])

/-- A value op. -/
def edgeValue (e : Edge) (x : EdgeCtx) (v : Word) (snan : Bool) : EdgeOut :=
  { edge := e, words := [{ payload := v, mark := 3 }], lfsr := x.lfsr, snan := snan }

/-- A value op on two lanes of one operand. -/
def edgeLanes1 (e : Edge) (x : EdgeCtx) (f : Num → Nat) : EdgeOut :=
  let p := fmtFP32.decode (lane0 x.a.payload)
  let q := fmtFP32.decode (lane1 x.a.payload)
  edgeValue e x (twoLanes (f p) (f q)) (p.snan || q.snan)

/-- A value op on two lanes of three operands. -/
def edgeLanes3 (e : Edge) (x : EdgeCtx) (b c : Word) (useB useC : Bool) (f : Num → Num → Num → Num) (rm : Rm) : EdgeOut :=
  let d := fun (g : Word → Nat) (v : Word) => fmtFP32.decode (g v)
  let one := fun (g : Word → Nat) => fmtFP32.encode rm (f (d g x.a.payload) (d g b) (d g c))
  let s := fun (use : Bool) (v : Word) => use && ((d lane0 v).snan || (d lane1 v).snan)
  edgeValue e x (twoLanes (one lane0) (one lane1)) (s true x.a.payload || s useB b || s useC c)

/-- A running register. -/
def Edge.qAt (e : Edge) (i : Nat) : Word := spGet 0 e.q i
/-- Sets a running register, whose value the op places. -/
def edgeRunning (e : Edge) (x : EdgeCtx) (v : Word) (snan : Bool) : EdgeOut :=
  edgeValue { e with q := spInsert e.q (eF x.op) v } x v snan

/-- The addends of fold.x (R263). -/
def foldAddends (ty : Nat) (v : Word) : List Num :=
  if ty = 0 then [fmtFP32.decode (lane0 v), fmtFP32.decode (lane1 v)]
  else (List.range 4).map (fun i => fmtBF16.decode (fieldN v (16 * i) 16))

/-- Exact adds, one after another: `none` on a kind mismatch. -/
def foldAddAll (fast : Bool) : FoldReg → List Num → Option (FoldReg × Bool)
  | f, [] => some (f, false)
  | f, x :: xs =>
    match (if fast then (f.addFast x).map (fun g => (g, false)) else f.addExact x) with
    | none => none
    | some (g, b) => (foldAddAll fast g xs).map (fun r => (r.1, b || r.2))

/-- The effect of an op on data (R261 to R267). DESIGN CHOICE (log 126): neither the Sat of quant.mx's scale X to 0 to 254 nor an element
that its MX format saturates sets SAT: R278 does not list R264. -/
def edgeExec (e : Edge) (x : EdgeCtx) : EdgeOut :=
  let o := opCode x.op
  let rm := rmOf (eRm x.op) 0
  let a := x.a.payload
  let same : EdgeOut := { edge := e, lfsr := x.lfsr }
  let q := e.qAt (eF x.op)
  let restart := eArg x.op % 2 == 1
  let dec := fun (v : Nat) => fmtFP32.decode v
  let sn := fun (v : Word) => (dec (lane0 v)).snan || (dec (lane1 v)).snan
  match o with
  | 0x00 => same
  | 0x01 => { same with words := [x.a] }
  | 0x02 =>
    let s := x.b.payload.toNat % 256
    if s = 0xFF then edgeLanes1 e x (fun _ => fmtFP32.nan)
    else edgeLanes1 e x (fun n => fmtFP32.encode rm (match n with | .fin g m k => .fin g m (k + (s - 127)) | y => y))
  | 0x03 =>
    let q0 := if restart then 0 else q
    let r1 := fmtFP32.encode rm (Num.add rm (dec (lane0 q0)) (dec (lane0 a)))
    let r2 := fmtFP32.encode rm (Num.add rm (dec r1) (dec (lane1 a)))
    edgeRunning e x (twoLanes r2 (lane1 q0)) (sn a || (dec (lane0 q0)).snan)
  | 0x04 =>
    let xs := foldAddends (eTy x.op) a
    match foldAddAll (eArg x.op % 2 == 1) (spGet {} e.f (eF x.op)) xs with
    | none => { same with refused := true }
    | some (f, s) => { same with edge := { e with f := spInsert e.f (eF x.op) f }, sat := s, snan := xs.any Num.snan }
  | 0x05 =>
    let f : FoldReg := spGet {} e.f (eF x.op)
    let v := BitVec.ofNat 64 ((typeFmt (eTy x.op)).encode rm f.value)
    edgeValue (if eArg x.op % 2 = 1 then e else { e with f := spErase e.f (eF x.op) }) x v false
  | 0x06 =>
    let ws := typeWidth (eArg x.op)
    let wd := typeWidth (eTy x.op)
    let n := 64 / Nat.max ws wd
    let vs := (List.range n).map (fun i => fieldN a (ws * i) ws)
    let r := cvtLanes (eArg x.op) (eTy x.op) (eRm x.op) x.lfsr vs
    { edge := e, words := [{ payload := BitVec.ofNat 64 (packNat (r.1.map (fun l => (wd, l.1)))), mark := 3 }], lfsr := r.2
      sat := r.1.any (fun l => l.2.1), snan := r.1.any (fun l => l.2.2) }
  | 0x07 =>
    let buf := e.quant.take (2 * e.qc) ++ [field a 0 32, field a 32 32] ++ e.quant.drop (2 * e.qc + 2)
    if e.qc + 1 < 16 then { same with edge := { e with quant := buf, qc := e.qc + 1 }, snan := sn a }
    else
      let r := quantBlock (eTy x.op) (eRm x.op) x.lfsr buf
      { edge := { e with quant := buf, qc := 0 }, words := quantWords (eTy x.op) r.1 r.2.1, lfsr := r.2.2, snan := sn a }
  | 0x08 | 0x09 | 0x0A | 0x0B =>
    edgeValue e x (twoLanes (edgeFunction (o - 8) rm (lane0 a)) (edgeFunction (o - 8) rm (lane1 a))) (sn a)
  | 0x0C =>
    let q0 := if restart then twoLanes 0xFF800000 0xFF800000 else q
    let m := fun (g : Word → Nat) => fmtFP32.encode .rne ((dec (g q0)).maximum (dec (g a)))
    edgeRunning e x (twoLanes (m lane0) (m lane1)) (sn a || sn q0)
  | 0x0D =>
    let q0 := if restart then 0 else q
    let m := fun (g : Word → Nat) => fmtFP32.encode rm (Num.add rm (dec (g q0)) (dec (g a)))
    edgeRunning e x (twoLanes (m lane0) (m lane1)) (sn a || sn q0)
  | 0x0E | 0x0F | 0x10 | 0x11 =>
    let z := if eTy x.op = 15 then 8 else 4
    { same with rmw := some { op := o - 0x0E, addr := x.k.toNat + lane0 a * z, z := z, signed := eTy x.op != 14
                              val := BitVec.ofNat 64 (x.b.payload.toNat % 2 ^ (8 * z)), word := x.op } }
  | 0x12 => edgeLanes3 e x 0 x.k false true (fun p _ r => p.maximum r) .rne
  | 0x13 => edgeLanes3 e x x.b.payload x.k true true (fun p b r => Num.add rm (p.mul b) r) rm
  | 0x14 => edgeLanes3 e x x.b.payload 0 true false (fun p b _ => p.mul b) rm
  | 0x15 => edgeLanes3 e x x.b.payload 0 true false (fun p b _ => Num.add rm p b) rm
  | _ => { same with seqSlot := some (eArg x.op, a) }

/-- How many words the op would emit on data (R253, R254): none without a destination. -/
def edgeEmits (e : Edge) (op : BitVec 24) : Nat :=
  let o := opCode op
  if opDst op = 0 ∨ o = 0x00 ∨ o = 0x04 ∨ (0x0E ≤ o ∧ o ≤ 0x11) ∨ o = 0x16 then 0
  else if o = 0x07 then (if e.qc = 15 then (if eTy op = 3 then 3 else 5) else 0)
  else 1

end Sys2Proof.Machine
end

