-- ==== Sys2Proof/Machine/Edges.lean ====
section
/-!
DEFINITION. Edge units: the switch to a block's record and the step (R252 to R255, R260, R269).
-/
namespace Sys2Proof.Machine

/-- The edge record of a row. -/
def Block.edgeRec (b : Block) (y : Nat) : Option EdgeRec := b.edges.find? (fun e => e.row == y)

/-- Whether the running block of a bank has a record for a row. -/
def Region.edgeHas (r : Region) (bank : Bool) (y : Nat) : Bool :=
  (r.bank bank).running && ((r.bank bank).img.bind (fun i => i.edgeRec y)).isSome

/-- Whether that block, not held by a void, lets the row's edge unit switch to its record. -/
def Region.edgeWants (r : Region) (bank : Bool) (y : Nat) : Bool := r.edgeHas bank y && !(r.bank bank).held

/-- The bank that the edge unit switches to, if it does: the earlier block's record first, also while a void holds that block, and none
while the record in use has a step left, or its block's last round could still be voided (R253, R269, R352, R401, log 95). -/
def Region.edgeNext (r : Region) (y : Nat) : Option Bool :=
  let e := r.edge y
  if e.stopped then
    if r.edgeHas (!r.cur) y then (if r.edgeWants (!r.cur) y then some (!r.cur) else none)
    else if r.edgeWants r.cur y then some r.cur else none
  else if e.bank != r.cur && r.edgeWants r.cur y && (r.edgeDone e.bank y && (r.bank e.bank).lastCommitted || !(r.bank e.bank).running) then some r.cur
  else none

/-- The edge unit switches to a record: the step counter, the quantisation counter and its buffer are reset, and this is
its start of round 0 (R252, R255, R269). -/
def Region.edgeSwitch (r : Region) (bank : Bool) (y : Nat) : Region :=
  let e := { r.edge y with bank := bank, stopped := false, s := 0, qc := 0, quant := [] }
  let c : EdgeCheck := { row := y, f := e.f, q := e.q, quant := [], qc := 0, s := 0 }
  let b := r.bank bank
  (r.setEdge y e).setBank bank { b with
    checks := b.checks.map (fun k => if k.rnd = 0 then { k with edges := k.edges.filter (fun x => x.row != y) ++ [c] } else k) }

/-- The FIFO that a source code names, as it presents its head (R258, R320). -/
def Region.edgeHead (r : Region) (y code : Nat) : Option QWord :=
  match code with
  | 0 => (r.edge y).lane.head?
  | _ => r.present (r.edge y).input

/-- Whether the destinations of a dst code have room for `n` words (R253). -/
def Region.edgeRoom (r : Region) (y dst n : Nat) : Bool :=
  let e := r.edge y
  let cell := decide (e.cell.length + n ≤ 8)
  let out := decide (e.out.length + n ≤ 8)
  match dst with
  | 1 => cell
  | 2 => out
  | 3 => cell && out
  | 4 => decide ((r.loc.filter (fun q => q.src == 16 + y)).length + n ≤ 8)
  | _ => true

/-- The stream bound as edge output at a row, for its LFSR (R262). -/
def Bank.edgeOut (b : Bank) (y : Nat) : Option Nat := (b.bound.find? (fun e => e.kind == 5 && e.pos == y)).map Bind.stream

/-- Puts the words that a step emits where dst sends them (R256, R260, R350, log 7); bubbles into the cell FIFO are
discarded on arrival (R369). -/
def Region.edgePut (r : Region) (bank : Bool) (y dst rnd : Nat) (ws : List GWord) : Region :=
  let q := fun (w : GWord) => ({ w := w, rnd := rnd, own := true, bank := bank } : QWord)
  let e := r.edge y
  let cells := (ws.filter (fun w => w.kind != 2)).map q
  let r1 := match dst with
    | 1 => r.setEdge y { e with cell := e.cell ++ cells }
    | 2 => r.setEdge y { e with out := e.out ++ ws.map q }
    | 3 => r.setEdge y { e with cell := e.cell ++ cells, out := e.out ++ ws.map q }
    | _ => r
  if dst = 4 then
    (ws.filter (fun w => w.kind != 2)).foldl (fun g w =>
      match spFind g.route w.tag.toNat with
      | none => { g with loc := g.loc ++ [{ q w with src := 16 + y }] }
      | some _ => g.setBank bank ((g.bank bank).modHold rnd (fun h => { h with outbound := h.outbound ++ [w] }))) r1
  else r1

/-- Pops the FIFOs that a step read; the same FIFO once (R253). -/
def Region.edgePop (r : Region) (y a b : Nat) : Region :=
  let drop := fun (g : Region) (c : Nat) =>
    let e := g.edge y
    if c = 0 then g.setEdge y { e with lane := e.lane.drop 1 } else g.setEdge y { e with input := e.input.drop 1 }
  let r1 := drop r a
  if b ≤ 1 ∧ b ≠ a then drop r1 b else r1

/-- Whether the op's own condition holds: emit.seq waits while its slot is full or owed (R267). -/
def Region.edgeReady (r : Region) (op : BitVec 24) : Bool :=
  opCode op != 0x16 || r.seq.slot (BitVec.ofNat 4 (eArg op)) == .empty

/-- What a step makes of the region, and what it raises (R254). -/
structure EdgeDone where
  region : Region
  poison : Bool := false
  refused : Bool := false
  full : Bool := false
  counted : Bool := false
  deriving Repr

/-- The step counter after a step: it counts modulo the least common multiple of the rings' lengths (R252). -/
def EdgeRec.after (c : EdgeRec) (s : Nat) : Nat := (s + 1) % Nat.lcm c.ops.length c.routes.length

/-- A step on data (R254). DESIGN CHOICE (log 96): where cfg.unbind has taken the row's edge-output stream away, the LFSR that
stochastic rounding reads is 0. -/
def Region.edgeData (r : Region) (bank : Bool) (y : Nat) (img : Block) (c : EdgeRec) (a b : GWord) : EdgeDone :=
  let op := ringAt c.ops (r.edge y).s
  let route := ringAt c.routes (r.edge y).s
  let k := (r.bank bank).computing
  let out := (r.bank bank).edgeOut y
  let lfsr := match out with | some n => (r.stream n).cur.lfsr | none => 0
  let e := r.edge y
  let x : EdgeCtx := { op := op, a := a, b := b, k := (r.bank bank).consts.getD (eF op) 0, lfsr := lfsr }
  let o := edgeExec e x
  let tag := BitVec.ofNat 8 (img.tagmap.getD (routeTag route) 0)
  let words := if opCode op = 0x01 then o.words else o.words.map (fun w => { w with tag := tag })
  let r1 := (r.setEdge y { o.edge with s := c.after e.s }).edgePop y (routeA route) (routeB route)
  let r2 := match out with
    | some n => let v := r1.stream n; r1.setStream n { v with cur := { v.cur with lfsr := o.lfsr } }
    | none => r1
  let r3 := (r2.edgePut bank y (opDst op) k words).sticky o.sat o.snan
  let hold := fun (h : RoundHold) =>
    { h with sat := h.sat || o.sat, snan := h.snan || o.snan, rmws := h.rmws ++ o.rmw.toList, emits := h.emits ++ o.seqSlot.toList }
  let r4 := r3.setBank bank ((r3.bank bank).modHold k hold)
  let r5 := match o.seqSlot with
    | some (n, _) => { r4 with seq := r4.seq.setSlot (BitVec.ofNat 4 n) .owed }
    | none => r4
  { region := r5, refused := o.refused, full := decide (1024 < ((r5.bank bank).hold k).outbound.length), counted := opCode op != 0 }

/-- The words that a step of a kind emits: an op that emits on its own state's condition gives none on a bubble or poison (R253,
R254). -/
def stepEmits (e : Edge) (op : BitVec 24) (kind : BitVec 3) : Nat :=
  if opCode op = 0x07 ∧ (kind = 2 ∨ kind = 3) then 0 else edgeEmits e op

/-- A bubble or poison step: the counter steps, the FIFOs pop, and the words it would emit go as that kind (R254); a poison
step is counted (R150). -/
def Region.edgeVoidStep (r : Region) (bank : Bool) (y : Nat) (img : Block) (c : EdgeRec) (kind : BitVec 3) : EdgeDone :=
  let e := r.edge y
  let op := ringAt c.ops e.s
  let route := ringAt c.routes e.s
  let n := stepEmits e op kind
  let w : GWord := { kind := kind, tag := BitVec.ofNat 8 (img.tagmap.getD (routeTag route) 0), mark := 3 }
  let r1 := (r.setEdge y { e with s := c.after e.s }).edgePop y (routeA route) (routeB route)
  { region := r1.edgePut bank y (opDst op) (r.bank bank).computing (List.replicate n w), poison := kind == 3
    counted := kind == 3 && opCode op != 0 }

/-- A step of the record, if its conditions hold (R253). -/
def Region.edgeTry (r : Region) (bank : Bool) (y : Nat) (img : Block) (c : EdgeRec) : Option EdgeDone :=
  let e := r.edge y
  let op := ringAt c.ops e.s
  let route := ringAt c.routes e.s
  let headB := if routeB route ≤ 1 then r.edgeHead y (routeB route)
    else if routeB route = 2 then some { w := dataWord ((r.bank bank).consts.getD (eF op) 0) } else some {}
  match r.edgeHead y (routeA route), headB with
  | some a, some b =>
    let kind := if b.w.kind = 3 then 3 else a.w.kind
    if !(r.edgeRoom y (opDst op) (stepEmits e op kind)) || !(r.edgeReady op) then none
    else if kind = 2 ∨ kind = 3 then some (r.edgeVoidStep bank y img c kind)
    else some (r.edgeData bank y img c a.w b.w)
  | _, _ => none

/-- Whether the row's lane presents the marker of a stopped island (R359, R360). -/
def Region.laneMarker (r : Region) (y : Nat) : Bool := match (r.edge y).lane with | q :: _ => q.w.kind == 4 | [] => false

/-- EDGE_STEP: a marker is consumed, or a switch to a new record, or a step of the one in use (R253, R269, R360). -/
def State.edgeStep (s : State) (r y : Nat) : State :=
  let g := s.reg r
  if g.laneMarker y then s.setReg r (g.setEdge y { g.edge y with lane := (g.edge y).lane.drop 1 })
  else match g.edgeNext y with
  | some bank => s.setReg r (g.edgeSwitch bank y)
  | none =>
    let bank := (g.edge y).bank
    let b := g.bank bank
    match b.img.bind (fun i => (i.edgeRec y).map (fun c => (i, c))) with
    | some (img, c) =>
      if !b.running || b.held || (g.edge y).stopped then s
      else match g.edgeTry bank y img c with
        | none => s
        | some d =>
          let s1 := s.setReg r d.region
          let s2 := if d.counted then s1.meter ((s.owner r).getD 48) (dieOf r) (fun k => k.slot 5) else s1
          if d.poison then s2.voidCause r bank b.computing { cause := Cause.poisonReceived } .remap
          else if d.full then
            (s2.modReg r (fun x => x.abortBank bank)).queueCause r { cause := Cause.roundOutboundFull, finfo := BitVec.ofNat 64 img.va }
          else if d.refused then
            s2.queueCause r { cause := Cause.fnIllegal, finfo := BitVec.ofNat 64 (ringAt c.ops (g.edge y).s).toNat }
          else s2
    | none => s

/-- EDGE_STEP (R253). -/
def execEdgeStep (r row : Nat) (s : State) : Out :=
  if r < 192 ∧ row < 16 then .next (s.edgeStep r row) else .fault .noSuchUnit

end Sys2Proof.Machine
end

