-- ==== Sys2Proof/Machine/StreamRun.lean ====
section
/-!
DEFINITION. The accesses of the address generators: reading ahead, packing and delivering (R284 to R291), unpacking and
holding stores (R291 to R293), channel streams (R313), faults of an access (R295, R352), and extent misses (R172).
-/
namespace Sys2Proof.Machine

/-! ## An access of a stream (R170, R172, R295) -/

/-- A stream as a party (R168). -/
def State.strmWho (s : State) (r n : Nat) : Who := { part := (s.owner r).getD 48, region := some r, unit := n }

/-- The outcome of a stream's access: done, a miss of its extents, a cause with its address, or held (R172, R295). -/
inductive SGot (α : Type)
  | ok (a : α)
  | miss (va : Nat) (write : Bool)
  | fault (cause : BitVec 9) (va : Nat)
  | held
  deriving DecidableEq, Repr

/-- Changes a stream. -/
def State.modStream (s : State) (r n : Nat) (f : Stream → Stream) : State :=
  s.modReg r (fun g => g.setStream n (f (g.stream n)))

/-- The physical address of a stream's access: tier addresses by the window, others through the stream's extents, the one
used last kept longest (R170, R172). A read that waits for a replica stalls its stream alone, as a miss does, until the extent
leads to the replica (R177). -/
def State.strmReach (s : State) (r n va : Nat) (kind : AKind) : State × SGot Nat :=
  if inTierWindow va then
    match s.reach (s.strmWho r n) va kind with
    | (s1, .ok pa) => (s1, .ok pa)
    | (s1, .fault c a) => (s1, .fault c a)
    | (s1, .held) => (s1, .held)
  else
    let v := (s.reg r).stream n
    match findXlate v.extents (s.strmWho r n).part va with
    | none => (s, .miss va (kind == .write))
    | some x =>
      let s0 := s.modStream r n (fun w => { w with extents := cacheXlate w.extents x 4 })
      match s0.useXlate (s.strmWho r n) x va kind with
      | (s1, .ok pa) => (s1, .ok pa)
      | (s1, .fault c a) => (s1, .fault c a)
      | (s1, .held) =>
        (s1, if (s.faultAt (s.strmWho r n) va).isNone && s.wantsReplica (s.strmWho r n) x va kind then .miss va false else .held)

/-- Reads bytes within one page. -/
def State.strmReadPage (s : State) (r n va len : Nat) : State × SGot (List Byte) :=
  match s.strmReach r n va .read with
  | (s1, .ok pa) =>
    match s1.physFault pa len .read with
    | some c => (s1, .fault c va)
    | none => (s1.countBytes (s.strmWho r n).part pa len, .ok (s1.mem.readN len pa))
  | (s1, .miss a w) => (s1, .miss a w)
  | (s1, .fault c a) => (s1, .fault c a)
  | (s1, .held) => (s1, .held)

/-- Reads bytes that may cross one page boundary. -/
def State.strmRead (s : State) (r n va len : Nat) : State × SGot (List Byte) :=
  let m := firstPage va len
  match s.strmReadPage r n va m with
  | (s1, .ok bs) =>
    if m = len then (s1, .ok bs)
    else match s1.strmReadPage r n (va + m) (len - m) with
      | (s2, .ok cs) => (s2, .ok (bs ++ cs))
      | x => x
  | x => x

/-- Reads the number in a container, which must be aligned (R285). -/
def State.strmNum (s : State) (r n va len : Nat) : State × SGot Nat :=
  if !(aligned len va) then (s, .fault Cause.misaligned va)
  else match s.strmRead r n va len with
    | (s1, .ok bs) => (s1, .ok (ofBytes bs))
    | (s1, .miss a w) => (s1, .miss a w)
    | (s1, .fault c a) => (s1, .fault c a)
    | (s1, .held) => (s1, .held)

/-! ## Sources (R289) -/

/-- What a consumer gets of a source: an element, the source's end, nothing yet, or its fault. -/
inductive Took
  | got (v : Nat) (r : Region)
  | ended
  | wait
  | faulted

/-- Takes the next element of a source (R289). -/
def Region.takeSource (r : Region) (m : Nat) : Took :=
  let v := r.stream m
  match v.elems with
  | (x, _) :: xs => .got x (r.setStream m { v with elems := xs })
  | [] => if v.state = 3 then .ended else if v.state = 2 then .wait else .faulted

/-- Takes an element of a source if the stream has one to take now. -/
def Region.takeIf (r : Region) (use : Bool) (m dflt : Nat) : Took := if use then r.takeSource m else .got dflt r

/-! ## A step of a dir-0 stream (R285 to R290) -/

/-- What a step gives: its elements that are still to be taken, the cursor within the step, the cursor after it, and its
address. -/
structure StepOut where
  vals : List Nat
  mid : Cursor
  next : Cursor
  addr : Nat
  deriving DecidableEq, Repr

/-- How a step ends. -/
inductive StepRes
  | step (o : StepOut)
  | ends
  | wait
  | faulted
  deriving DecidableEq, Repr

/-- The elements of `n` fields of `w` bits. -/
def unpackN (w v : Nat) : Nat → List Nat
  | 0 => []
  | n + 1 => v % 2 ^ w :: unpackN w (v / 2 ^ w) n

/-- The elements of a container or of a memory word (R285). -/
def Desc.split (d : Desc) (v : Nat) : List Nat := if d.small then unpackN d.width v d.perMem else [v % 2 ^ d.width]

/-- Turns the outcome of one access into a step. -/
def stepWith (y : State × SGot (List Nat)) (mid next : Cursor) (addr : Nat) : State × SGot StepRes :=
  match y with
  | (s1, .ok l) => (s1, .ok (.step { vals := l, mid := mid, next := next, addr := addr }))
  | (s1, .miss a w) => (s1, .miss a w)
  | (s1, .fault c a) => (s1, .fault c a)
  | (s1, .held) => (s1, .held)

/-- The elements at an address, from the step's element `sub` on. -/
def State.stepRead (s : State) (r n va : Nat) (d : Desc) (sub : Nat) : State × SGot (List Nat) :=
  match s.strmNum r n va d.container with
  | (s1, .ok v) => (s1, .ok ((d.split v).drop sub))
  | (s1, .miss a w) => (s1, .miss a w)
  | (s1, .fault c a) => (s1, .fault c a)
  | (s1, .held) => (s1, .held)

/-- The next step after a whole one. -/
def Cursor.after (c : Cursor) : Cursor := { c with pos := c.pos + 1, sub := 0 }

/-- A step of affine mode, and of gather and filter after their sources (R286, R287, R289). -/
def State.plainStep (s : State) (r n : Nat) (d : Desc) (c : Cursor) (pass : Bool) : State × SGot StepRes :=
  let va := d.addr c.pos c.chan
  match stepWith (s.stepRead r n va d c.sub) c c.after va with
  | (s1, .ok (.step o)) => (s1, .ok (.step (if pass then o else { o with vals := [] })))
  | x => x

/-- A step of gather: an index element begins each combination of the outer counters (R287). -/
def State.gatherStep (s : State) (r n : Nat) (d : Desc) (c : Cursor) : State × SGot StepRes :=
  match (s.reg r).takeIf (c.sub == 0 && c.pos % d.trip.getD 0 1 == 0) d.index c.chan with
  | .got x g => (s.setReg r g).plainStep r n d { c with chan := x, srcs := g.srcsOf 128 n } true
  | .ended => (s, .ok .ends)
  | .wait => (s, .ok .wait)
  | .faulted => (s, .ok .faulted)

/-- A step of filter mode: a dropped element is read and not passed on (R289). -/
def State.filterStep (s : State) (r n : Nat) (d : Desc) (c : Cursor) : State × SGot StepRes :=
  match (s.reg r).takeIf (c.sub == 0) d.filter 1 with
  | .got x g => (s.setReg r g).plainStep r n d { c with srcs := g.srcsOf 128 n } (x != 0)
  | .ended => (s, .ok .ends)
  | .wait => (s, .ok .wait)
  | .faulted => (s, .ok .faulted)

/-- A step of coord mode: COO reads one coordinate; CSR reads its row's bounds when it enters the row, then one column
(R288); the position of a CSR stream counts rows (DEDUCED, log 138). -/
def State.coordStep (s : State) (r n : Nat) (d : Desc) (c : Cursor) : State × SGot StepRes :=
  let w := d.container
  let row := fun (i : Nat) => wrap64 (d.base + i * d.stride.getD 0 0)
  let col := fun (k : Nat) => wrap64 (d.base + d.stride.getD 1 0 + k * d.stride.getD 2 0)
  let emit := fun (st : State) (i k : Nat) (next : Cursor) =>
    if d.scale = 1 then stepWith (st.stepRead r n (col k) d 0) c next (col k)
    else stepWith (st, .ok [i % 2 ^ 32]) c next (row i)
  if !d.bmask then
    if d.scale = 1 then stepWith (s.stepRead r n (col c.pos) d 0) c c.after (col c.pos)
    else stepWith (s.stepRead r n (row c.pos) d 0) c c.after (row c.pos)
  else
    let go := fun (st : State) (k hi : Nat) =>
      if hi ≤ k then (st, .ok (.step { vals := [], mid := c, next := { c.after with head := 0 }, addr := row c.pos }))
      else emit st c.pos k (if k + 1 < hi then { c with sub := k + 2, head := hi } else { c.after with head := 0 })
    if c.sub ≠ 0 ∧ c.head ≠ 0 then go s (c.sub - 1) c.head
    else match s.strmNum r n (row c.pos) w with
      | (s1, .ok lo) =>
        match s1.strmNum r n (row (c.pos + 1)) w with
        | (s2, .ok hi) => go s2 (if c.sub = 0 then lo % 2 ^ d.width else c.sub - 1) (hi % 2 ^ d.width)
        | (s2, .miss a x) => (s2, .miss a x)
        | (s2, .fault k a) => (s2, .fault k a)
        | (s2, .held) => (s2, .held)
      | (s1, .miss a x) => (s1, .miss a x)
      | (s1, .fault k a) => (s1, .fault k a)
      | (s1, .held) => (s1, .held)

/-- A step of plane mode, one slice at a time (R290). -/
def State.planeStep (s : State) (r n : Nat) (d : Desc) (c : Cursor) : State × SGot StepRes :=
  let va := d.addr c.pos 0 + 4 * c.sub
  let next := if c.sub < d.planes then { c with sub := c.sub + 1 } else c.after
  match s.strmRead r n va 4 with
  | (s1, .ok bs) => (s1, .ok (.step { vals := [ofBytes bs], mid := c, next := next, addr := va }))
  | (s1, .miss a w) => (s1, .miss a w)
  | (s1, .fault k a) => (s1, .fault k a)
  | (s1, .held) => (s1, .held)

/-- A step of a channel stream on a corrupt channel: CHN_CORRUPT is queued, and the stream stops at the step; it voids no
round, since its delivery is Q (R312, R346). -/
def State.chanStop (s : State) (r n : Nat) (e : ChanEnd) : State :=
  (s.modStream r n (fun v => { v with state := 4, paused := false, need := none })).queueCause r
    { cause := Cause.chnCorrupt, fva := BitVec.ofNat 64 e.header, finfo := BitVec.ofNat 64 e.num }

/-- Whether an end has turned out to be corrupt. -/
def State.chanBad (s : State) (r : Nat) (e : ChanEnd) : Bool := ((s.reg r).chan? e.num).any ChanEnd.corrupt

/-- A channel end with room or data for a slot, after it has read the header if it had to (R312, R313). -/
def State.chanSlot (s : State) (r : Nat) (e : ChanEnd) (ready : ChanEnd → Bool) : State × Got (Option ChanEnd) :=
  if ready e then (s, .ok (some e))
  else match s.chanRead r e with
    | (s1, .ok (some e1)) => (s1, .ok (if ready e1 || (!e1.producer && e1.ended) then some e1 else none))
    | x => x

/-- A step of channel-in: it waits while the channel is empty, and performs when the producer has ended (R313). -/
def State.chanInStep (s : State) (r n : Nat) (d : Desc) (c : Cursor) (e : ChanEnd) : State × SGot StepRes :=
  let off := d.container * c.pos
  let has := fun (x : ChanEnd) => decide (c.chan + off / 64 < x.other)
  if e.corrupt then (s.chanStop r n e, .ok .faulted)
  else match s.chanSlot r e has with
  | (s1, .ok (some x)) =>
    if has x then
      let va := x.byteVA c.chan off
      stepWith (s1.stepRead r n va d c.sub) c c.after va
    else (s1, .ok .ends)
  | (s1, .ok none) => (s1, .ok (if s1.chanBad r e then .faulted else .wait))
  | (s1, .fault k a) => (s1, .fault k a)
  | (s1, .held) => (s1, .held)

/-- The next step of a dir-0 stream (R286 to R290, R313). -/
def State.nextStep (s : State) (r n : Nat) : State × SGot StepRes :=
  let v := (s.reg r).stream n
  let d := v.desc
  let c := (s.reg r).curOf n
  if d.total ≤ c.pos then (s, .ok .ends)
  else match d.mode with
    | 1 => s.gatherStep r n d c
    | 3 => s.coordStep r n d c
    | 4 => s.filterStep r n d c
    | 5 => s.planeStep r n d c
    | 6 => match v.chan.bind (s.reg r).chan? with
      | some e => s.chanInStep r n d c e
      | none => (s, .ok .wait)
    | _ => s.plainStep r n d c true

/-! ## Packing (R71, R285, R291) -/

/-- The elements of a word of a stream: one slice in plane mode (R285, R290). -/
def Desc.fill (d : Desc) : Nat := if d.mode = 5 then 1 else d.perWord

/-- Whether a stream may end before its last step, so that a full word waits for the next element, or for the end, before it
is marked (R287, R288, R289, R291, R313). -/
def Desc.holdsBack (d : Desc) : Bool := d.mode == 1 || d.mode == 4 || d.mode == 6 || (d.mode == 3 && d.bmask)

/-- The number of scale words that follow a burst's head (R291). -/
def Desc.scaleWords (d : Desc) : Nat := if d.scale = 0 ∨ d.mode = 3 then 0 else (d.perWord + 7) / 8

/-- Widens an element to its delivered width (R71, R285). -/
def Desc.widen (d : Desc) (signed : Bool) (v : Nat) : Nat :=
  if d.mode = 3 ∨ d.mode = 5 ∨ !signed then v else (signedOf d.width v % ((2 ^ d.dw : Nat) : Int)).toNat

/-- A word as a block takes it: its elements widened as the block's class asks (R71, R285). -/
def Desc.widenWord (d : Desc) (signed : Bool) (w : GWord) : GWord :=
  if w.kind = 0 ∧ d.mode ≠ 3 ∧ d.mode ≠ 5 then
    { w with payload := BitVec.ofNat 64 (packNat ((unpackN d.dw w.payload.toNat d.perWord).map (fun e => (d.dw, d.widen signed e)))) }
  else w

/-- The burst mark of word `i` of a burst (R291). -/
def Desc.markOf (d : Desc) (i : Nat) (last : Bool) : BitVec 2 :=
  let tail := last || decide (i + 1 = d.burst)
  if i = 0 then (if tail then 3 else 1) else if tail then 2 else 0

/-- The scale words of a burst, read as they are delivered (R291). -/
def State.readScales (s : State) (r n : Nat) (d : Desc) (head k : Nat) : Nat → Nat → State × SGot (List GWord)
  | 0, _ => (s, .ok [])
  | c + 1, m =>
    match s.strmRead r n (wrap64 (head + d.scale + 8 * m)) (Nat.min 8 (k - 8 * m)) with
    | (s1, .ok bs) =>
      match s1.readScales r n d head k c (m + 1) with
      | (s2, .ok ws) => (s2, .ok ({ payload := BitVec.ofNat 64 (ofBytes bs), tag := d.tag, kind := 1 } :: ws))
      | x => x
    | (s1, .miss a w) => (s1, .miss a w)
    | (s1, .fault k a) => (s1, .fault k a)
    | (s1, .held) => (s1, .held)

/-- The words that leave with the word being packed: itself, then the scale words of a head; those already delivered
before a void are left out (R291, R352). -/
def State.flushWords (s : State) (r n : Nat) (d : Desc) (part : List Nat) (wc : Cursor) (last : Bool) : State × SGot (List QWord) :=
  let w : GWord :=
    { payload := BitVec.ofNat 64 (packNat (part.map (fun e => ((if d.mode = 5 then 32 else d.dw), e)))), tag := d.tag, kind := 0
      mark := d.markOf wc.burst last }
  match s.readScales r n d wc.head d.perWord (if wc.burst = 0 then d.scaleWords else 0) 0 with
  | (s1, .ok ws) =>
    (s1, .ok (((w :: ws).zipIdx.map (fun (e : GWord × Nat) => ({ w := e.1, cur := { wc with skip := e.2 } } : QWord))).drop wc.skip))
  | (s1, .miss a x) => (s1, .miss a x)
  | (s1, .fault k a) => (s1, .fault k a)
  | (s1, .held) => (s1, .held)

/-- A cursor in the next word of the burst. -/
def Cursor.nextWord (c : Cursor) (d : Desc) : Cursor := { c with burst := (c.burst + 1) % d.burst, skip := 0 }

/-- What a stream has packed: the word being packed, the cursor before its first element, the stream's cursor, and the
words that left. -/
structure Packed where
  part : List Nat
  wordCur : Cursor
  cur : Cursor
  out : List QWord
  deriving DecidableEq, Repr

/-- Sends off the word being packed. -/
def State.flush (s : State) (r n : Nat) (d : Desc) (p : Packed) (last : Bool) : State × SGot Packed :=
  match s.flushWords r n d p.part p.wordCur last with
  | (s1, .ok ws) => (s1, .ok { part := [], wordCur := p.wordCur, cur := p.cur.nextWord d, out := p.out ++ ws })
  | (s1, .miss a x) => (s1, .miss a x)
  | (s1, .fault k a) => (s1, .fault k a)
  | (s1, .held) => (s1, .held)

/-- Adds the elements of a step to the word being packed, up to the end of the word, and sends the word off when it is full
(R285, R291). `p` is the packing before the step, its cursor the one before the step's first element. The elements are widened
when a block takes the word. -/
def State.pack (s : State) (r n : Nat) (d : Desc) (p : Packed) (o : StepOut) : State × SGot Packed :=
  if o.vals.isEmpty then (s, .ok { p with cur := { o.next with burst := p.cur.burst, skip := p.cur.skip } })
  else
    let put := fun (st : State) (q : Packed) =>
      let take := o.vals.take (d.fill - q.part.length)
      let c0 := { q.cur with head := if q.cur.burst = 0 ∧ q.part.isEmpty ∧ d.mode ≠ 3 then o.addr else q.cur.head }
      let whole := decide (take.length = o.vals.length)
      let c1 := if whole then o.next else { o.mid with sub := o.mid.sub + take.length }
      let q1 : Packed :=
        { part := q.part ++ take, wordCur := if q.part.isEmpty then c0 else q.wordCur
          cur := { c1 with burst := c0.burst, skip := c0.skip, head := if d.mode = 3 then c1.head else c0.head }, out := q.out }
      let last := whole && decide (d.total ≤ o.next.pos)
      if q1.part.length = d.fill ∧ (!d.holdsBack ∨ q1.wordCur.burst + 1 = d.burst) then st.flush r n d q1 (last && !d.holdsBack)
      else (st, .ok q1)
    if p.part.length = d.fill then
      match s.flush r n d p false with
      | (s1, .ok q) => put s1 q
      | x => x
    else put s p

/-! ## The address of a dir-1 step (R286, R287) -/

/-- The address of the next step of a dir-1 stream, with the region after an index has been taken (R286, R287, R313). -/
inductive OutAddr
  | store (va : Nat) (c : Cursor) (r : Region)
  | ended
  | wait
  deriving DecidableEq, Repr

/-- Where the next step stores (R286, R287). -/
def Region.outAddr (r : Region) (n : Nat) : OutAddr :=
  let v := r.stream n
  let d := v.desc
  let c := v.cur
  if d.mode = 7 then
    match v.chan.bind r.chan? with
    | some e => .store (e.byteVA c.chan (d.container * c.pos)) c r
    | none => .wait
  else if d.mode = 2 then
    match r.takeIf (c.pos % d.trip.getD 0 1 == 0) d.index c.chan with
    | .got x g => .store (d.addr c.pos x) { c with chan := x } g
    | .ended => .ended
    | _ => .wait
  else .store (d.addr c.pos 0) c r

/-! ## Faults and holds (R295, R352) -/

/-- The stream bound to a running block for which a stream works, itself or as a source, with its bank and entry. -/
def Region.boundVia (r : Region) : Nat → Nat → Option (Bool × Machine.Bind)
  | 0, n => r.binding n
  | f + 1, n =>
    match r.binding n with
    | some b => some b
    | none => (r.consumer n).bind (fun m => r.boundVia f m)

/-- Whether the block of a bank waits for a word at an input position: an island that stalls there, or an edge unit that
cannot step for want of it (R50, R231, R253). -/
def Region.wanted (r : Region) (bank : Bool) (e : Machine.Bind) : Bool :=
  let b := r.bank bank
  (r.boundFifo e.kind e.pos).isEmpty && (r.stream e.stream).ahead.isEmpty && b.running && !b.held &&
    match b.img with
    | none => false
    | some img =>
      if e.kind = 4 then
        match img.edgeRec e.pos with
        | none => false
        | some c =>
          let u := r.edge e.pos
          let route := ringAt c.routes u.s
          u.bank == bank && !u.stopped && (routeA route == 1 || routeB route == 1)
      else
        let cell := if e.kind = 0 then e.pos else 240 + e.pos
        match img.cells.find? (fun c => 16 * c.y + c.x == cell) with
        | none => false
        | some c =>
          let i := b.islands.getD c.island {}
          i.started && !i.complete && i.fence.isNone &&
            (r.plan bank img c.island i c).fifos.contains (.mem (if e.kind = 0 then e.pos else 16 + e.pos))

/-- The elements of the word that a dir-1 stream needs for a step (R285, R292). -/
def Desc.stepElems (d : Desc) : Nat := if d.small then d.perMem else 1

/-- Whether the elements of a dir-1 stream's next step are there. -/
def Stream.hasStep (v : Stream) : Bool := decide (v.cur.pos < v.desc.total) && decide (v.desc.stepElems ≤ v.part.length)

/-- Whether a dir-1 stream takes no more words: it has no step left, and no scale word of its last burst is still to come (R291). -/
def Stream.sated (v : Stream) : Bool :=
  v.ended || (decide (v.desc.total ≤ v.cur.pos) && !(decide (v.desc.scale ≠ 0) && v.cur.burst == 1))

/-- Whether a stream stands at an element that a source of its own has not given yet (R289). -/
def State.awaits (s : State) (r n : Nat) : Bool :=
  let g := s.reg r
  let v := g.stream n
  if v.desc.dir = 1 then
    v.hasStep && match g.outAddr n with
      | .wait => true
      | .ended => false
      | .store _ _ x => match x.takeIf (decide (v.desc.filter < 128)) v.desc.filter 1 with | .wait => true | _ => false
  else v.elems.isEmpty && match (s.nextStep r n).2 with
    | .ok .wait => true
    | _ => false

/-- Whether the next element of a source is what its consumers wait for, up to stream `m`. -/
def State.neededBy (s : State) (r m : Nat) : Nat → Nat → Bool
  | 0, _ => false
  | f + 1, n =>
    n == m || (((s.reg r).stream n).elems.isEmpty && match (s.reg r).consumer n with
      | some c => s.awaits r c && s.neededBy r m f c
      | none => false)

/-- The round that the next access of a bound stream, or of a source of one, concerns, if that element is needed now
(R295, R352). -/
def State.roundNow (s : State) (r n : Nat) (bank : Bool) (e : Machine.Bind) : Option Nat :=
  let g := s.reg r
  let v := g.stream e.stream
  let mine := s.neededBy r e.stream 128 n
  if kindIn e.kind then (if mine && g.wanted bank e then some (g.bank bank).computing else none)
  else if mine && v.hasStep then some v.wordRnd else none

/-- An access of a stream faults: for a bound stream the round that needs the element is voided, and nothing happens before
it does; an unbound stream stops at the step (R295, R352). -/
def State.faultNow (s : State) (r n : Nat) (c : BitVec 9) (va : Nat) : State :=
  let p : Pend := { cause := c, fva := BitVec.ofNat 64 va, finfo := BitVec.ofNat 64 n }
  match (s.reg r).boundVia 128 n with
  | some (bank, e) =>
    match s.roundNow r n bank e with
    | some k => s.voidCause r bank k { p with voids := some bank } (.eret c false)
    | none => s
  | none => (s.modStream r n (fun v => { v with state := 4, paused := false, need := none })).queueCause r p

/-- An access is held by a stage-2 fault or a service: the stream pauses, and a bound stream's round is voided once the
element is needed (R167, R295, R353). -/
def State.heldNow (s : State) (r n : Nat) : State :=
  let s1 := s.modStream r n (fun v => { v with paused := true })
  match (s1.reg r).boundVia 128 n with
  | some (bank, e) =>
    match s1.roundNow r n bank e with
    | some k => s1.modReg r (fun g => g.void bank k (s1.heldFor ((s1.owner r).getD 48) r n))
    | none => s1
  | none => s1

/-- A stream's request joins the queue of its region's translation unit, and with it no request that has ended (R172). -/
def Region.ask (r : Region) (n : Nat) : Region :=
  let l := r.walks.filter (fun m => (r.stream m).need.isSome)
  { r with walks := if l.contains n then l else l ++ [n] }

/-- A stream pauses at an access outside its extents and asks for the extent (R172). A read that goes to a replica which does not stand yet
asks for that as well (R177). -/
def State.missNow (s : State) (r n va : Nat) (w : Bool) : State :=
  let who := s.strmWho r n
  let s1 := match findXlate ((s.reg r).stream n).extents who.part va with
    | some x =>
      if !w && (s.faultAt who va).isNone && s.wantsReplica who x va .read then
        s.invQueue who.part (.replica (frameOf (x.pa + (va - x.va))) (dieOf r) r n)
      else s
    | none => s
  (s1.modStream r n (fun v => { v with paused := true, need := some (va, w) })).modReg r (fun g => g.ask n)

/-- What becomes of an access that did not perform: `s1` is the state it left, from which the streams are put back. -/
def State.failNow {α : Type} (s s1 : State) (r n : Nat) : SGot α → State
  | .ok _ => s
  | .miss va w => s.missNow r n va w
  | .fault c va =>
    let g := s.reg r
    match g.boundVia 128 n with
    | some (bank, e) =>
      if (s.roundNow r n bank e).isSome then (s1.modReg r (fun x => { x with streams := g.streams })).faultNow r n c va else s
    | none => (s1.modReg r (fun x => { x with streams := g.streams })).faultNow r n c va
  | .held => (s1.modReg r (fun x => { x with streams := (s.reg r).streams })).heldNow r n

/-- Whether a stream that may end early is certain to deliver a further element: its index, its nonzero filter element, its row's bounds
or its slot is there, and only the element's own access is still to be made (R287, R288, R289, R313). -/
def State.moreSure (s : State) (r n : Nat) : Bool :=
  let g := s.reg r
  let v := g.stream n
  let d := v.desc
  let c := g.curOf n
  decide (c.pos < d.total) && match d.mode with
    | 1 => match g.takeIf (c.sub == 0 && c.pos % d.trip.getD 0 1 == 0) d.index c.chan with | .got _ _ => true | _ => false
    | 3 =>
      if c.sub ≠ 0 ∧ c.head ≠ 0 then decide (c.sub ≤ c.head)
      else
        let row := fun (i : Nat) => (s.strmNum r n (wrap64 (d.base + i * d.stride.getD 0 0)) d.container).2
        match row c.pos, row (c.pos + 1) with
        | .ok lo, .ok hi => decide (lo % 2 ^ d.width < hi % 2 ^ d.width)
        | _, _ => false
    | 4 => match g.takeIf (c.sub == 0) d.filter 1 with | .got x _ => x != 0 | _ => false
    | 6 => match v.chan.bind g.chan? with | some e => decide (c.chan + d.container * c.pos / 64 < e.other) | none => false
    | _ => false

/-- The bound stream whose full word waits for its mark while its block wants it and the access of a further element that is certain to
come does not perform: the word is not its burst's last by the stream's end, and goes first, since that access concerns a later element
(R291, R352). Where the stream may still end, the word waits with the access (log 38). -/
def State.owesWord (s : State) (r n : Nat) : Option Nat :=
  match (s.reg r).boundVia 128 n with
  | some (bank, e) =>
    let v := (s.reg r).stream e.stream
    if v.desc.dir = 0 ∧ v.desc.holdsBack ∧ v.part.length = v.desc.fill ∧ n = e.stream ∧ s.moreSure r n ∧ (s.roundNow r n bank e).isSome
    then some e.stream else none
  | none => none

/-- Sends that word off. -/
def State.releaseWord (s : State) (r n : Nat) : State :=
  let v := (s.reg r).stream n
  match s.flush r n v.desc { part := v.part, wordCur := v.wordCur, cur := v.cur, out := [] } false with
  | (s1, .ok q) => s1.modStream r n (fun w => { w with part := [], cur := q.cur, ahead := w.ahead ++ q.out })
  | (s1, x) => s.failNow s1 r n x

/-- An access of a stream faults. -/
def State.strmFault (s : State) (r n : Nat) (c : BitVec 9) (va : Nat) : State :=
  match s.owesWord r n with
  | some m => s.releaseWord r m
  | none => s.faultNow r n c va

/-- An access of a stream is held. -/
def State.strmHeld (s : State) (r n : Nat) : State :=
  match s.owesWord r n with
  | some m => s.releaseWord r m
  | none => s.heldNow r n

/-- What becomes of an access that did not perform, once the word before it is on its way. -/
def State.strmFail {α : Type} (s s1 : State) (r n : Nat) (x : SGot α) : State :=
  match x, s.owesWord r n with
  | .fault _ _, some m => s.releaseWord r m
  | .held, some m => s.releaseWord r m
  | _, _ => s.failNow s1 r n x

/-! ## Dir 0: an event (R284, R343) -/

/-- Whether the fuse class of the block sign-extends (R285). -/
def Region.widensSigned (r : Region) (n : Nat) : Bool :=
  match r.binding n with
  | some (bank, _) =>
    match (r.bank bank).img with
    | some img => let c := fuseClass (img.fuse.getD 0 0); c == 0 || c == 11
    | none => false
  | none => false

/-- A stream performs (R283). -/
def Stream.perform (v : Stream) : Stream := { v with state := 3, paused := false, need := none }

/-- A stream of a region performs: what is left of its sources is discarded, those read and those not read yet (R283, R287). DESIGN CHOICE
(log 117): a source that still runs then performs, at the position that it has read to. -/
def Region.performStream (r : Region) (n : Nat) : Region :=
  (r.srcsOf 128 n).foldl (fun g e =>
    let w := g.stream e.1
    if w.state = 2 then g.setStream e.1 { w.perform with elems := [] } else g.setStream e.1 { w with elems := [] })
    (r.setStream n (r.stream n).perform)

/-- The index that an unbound channel-in stream has still to write for the slots that it has read, with its end (R313). -/
def Region.indexOwed (r : Region) (n : Nat) : Option (ChanEnd × Nat) :=
  let v := r.stream n
  match v.chan.bind r.chan?, r.boundVia 128 n with
  | some e, none =>
    let cons := v.cur.chan + v.desc.container * v.cur.pos / 64
    if v.desc.mode = 6 ∧ !e.corrupt ∧ e.own < cons then some (e, cons) else none
  | _, _ => none

/-- An unbound channel-in stream takes whole slots as it reads them (R313). -/
def State.chanTake (s : State) (r n : Nat) : State :=
  match (s.reg r).indexOwed n with
  | some (e, cons) =>
    match s.chanWrite r e 8 8 cons with
    | (s1, .ok ()) => s1.modReg r (fun x => x.setChan { e with own := cons })
    | (s1, _) => s1
  | none => s

/-- The next step of a dir-0 stream that works for no consumer: an element that it has read as a source comes first (R343). -/
def State.ownStep (s : State) (r n : Nat) : State × SGot StepRes :=
  let v := (s.reg r).stream n
  match v.elems with
  | [] => s.nextStep r n
  | (x, c) :: xs =>
    (s.modStream r n (fun w => { w with elems := xs }), .ok (.step
      { vals := [x], mid := c, next := match xs with | (_, c1) :: _ => c1 | [] => v.cur, addr := v.desc.addr c.pos c.chan }))

/-- The cursor before an element, with the burst as it has been packed so far. -/
def Cursor.inBurst (c v : Cursor) (d : Desc) : Cursor :=
  { c with burst := v.burst, skip := v.skip, lfsr := v.lfsr, head := if d.mode = 3 then c.head else v.head }

/-- One read step of a dir-0 stream that is no source (R284). A channel stream performs once its last index write has (R312, R313). -/
def State.readStep (s : State) (r n : Nat) : State :=
  let g := s.reg r
  let v := g.stream n
  let d := v.desc
  let p : Packed :=
    { part := v.part, wordCur := v.wordCur, out := []
      cur := match v.elems with | (_, c) :: _ => c.inBurst v.cur d | [] => g.curOf n }
  let done := fun (st : State) (q : Packed) (fin : Bool) =>
    let s1 := st.modStream r n (fun w =>
      { w with part := q.part, wordCur := q.wordCur, ahead := w.ahead ++ q.out, paused := false, need := none
               cur := if w.elems.isEmpty then { q.cur with lfsr := v.cur.lfsr } else v.cur.inBurst { q.cur with lfsr := v.cur.lfsr } d })
    (s1.chanTake r n).modReg r (fun x => if fin && (x.indexOwed n).isNone then x.performStream n else x)
  if 8 < v.ahead.length + (if d.holdsBack then 2 else 1) + d.scaleWords then s
  else match s.ownStep r n with
    | (s1, .ok (.step o)) =>
      match s1.pack r n d p o with
      | (s2, .ok q) => done s2 q false
      | (s2, x) => s.strmFail s2 r n x
    | (s1, .ok .ends) =>
      if p.part.isEmpty then done s1 p true
      else match s1.flush r n d p true with
        | (s2, .ok q) => done s2 q true
        | (s2, x) => s.strmFail s2 r n x
    | (s1, .ok .wait) => s1
    | (s1, .ok .faulted) => s1.modStream r n (fun w => { w with state := 4 })
    | (s1, x) => s.strmFail s1 r n x

/-- Whether a dir-0 stream reads for a consumer and not for a binding: its consumer runs, or is open and has left elements untaken (R289,
R343). -/
def Region.feeds (r : Region) (n : Nat) : Bool :=
  (r.binding n).isNone && match r.consumer n with
    | some m => !((r.stream n).elems.isEmpty) || (r.stream m).state == 2
    | none => false

/-- Whether a stream that is bound to no block keeps what it reads as elements, for a consumer or a binding to come: one in a mode that a
source may have (R289, R343). -/
def Region.keeps (r : Region) (n : Nat) : Bool :=
  let m := (r.stream n).desc.mode
  (r.binding n).isNone && (m == 0 || m == 3 || m == 4)

/-- One read step of a stream that keeps its elements: they wait for its consumer, or, up to 8 words of them, for a binding (R289,
R343). -/
def State.sourceStep (s : State) (r n : Nat) : State :=
  let g := s.reg r
  let v := g.stream n
  let c := g.curOf n
  if (if g.feeds n then 8 else 8 * v.desc.fill) ≤ v.elems.length then s
  else match s.nextStep r n with
    | (s1, .ok (.step o)) =>
      let here := fun (i : Nat) => if i = 0 then c else { o.mid with sub := o.mid.sub + i }
      let new := o.vals.zipIdx.map (fun (e : Nat × Nat) => (e.1, here e.2))
      s1.modStream r n (fun w => { w with elems := w.elems ++ new, cur := { o.next with lfsr := c.lfsr }, paused := false, need := none })
    | (s1, .ok .ends) => s1.modReg r (fun x => x.performStream n)
    | (s1, .ok .wait) => s1
    | (s1, .ok .faulted) => s1.modStream r n (fun w => { w with state := 4 })
    | (s1, x) => s.strmFail s1 r n x

/-- Whether a block's input position is still taken by the binding of the block before (R269). -/
def Region.posTaken (r : Region) (bank : Bool) (e : Machine.Bind) : Bool :=
  bank == r.cur && (r.bank (!bank)).running && (r.bank (!bank)).bound.any (fun x => x.kind == e.kind && x.pos == e.pos)

/-- Delivers a word read ahead to the FIFO of its binding, widened for its block (R71, R284, R285, R343). -/
def Region.deliverAhead (r : Region) (n : Nat) (bank : Bool) (e : Machine.Bind) : Option Region :=
  let v := r.stream n
  let l := r.boundFifo e.kind e.pos
  match v.ahead with
  | [] => none
  | q :: qs =>
    if l.length < 8 ∧ !(r.posTaken bank e) then
      some ((r.setStream n { v with ahead := qs }).setBoundFifo e.kind e.pos (l ++ [{ q with w := v.desc.widenWord (r.widensSigned n) q.w, bank := bank }]))
    else none

/-- Whether the block that a stream works for holds it back: voided rounds, or a stop behind a marker (R352, R359). A bound dir-1 stream
goes on, and a source of one while it has elements to store: a void leaves in its FIFO only the words of the round that is still
committing. -/
def Region.strmParked (r : Region) (n : Nat) : Bool :=
  match r.boundVia 128 n with
  | some (bank, e) =>
    let b := r.bank bank
    let v := r.stream e.stream
    if kindIn e.kind then b.voidTo.isSome || b.stopped
    else b.voidTo.isSome && n != e.stream &&
      !((r.boundFifo e.kind e.pos).any (fun q => q.bank == bank) || v.hasStep)
  | none => false

/-! ## Dir 1 (R291 to R293) -/

/-- The bytes that a step stores (R71, R285, R292). -/
def Desc.storeBytes (d : Desc) (va : Nat) (es : List Nat) : List (Nat × Byte) :=
  if d.masked then
    let x := es.getD 0 0
    ((List.range 7).filter (fun i => x.testBit (56 + i))).map (fun (i : Nat) => (wrap64 (va + i), BitVec.ofNat 8 (x / 2 ^ (8 * i))))
  else
    let x := if d.small then packNat (es.map (fun e => (d.width, e))) else es.getD 0 0 % 2 ^ d.width
    (toBytes d.container x).zipIdx.map (fun (e : Byte × Nat) => (va + e.2, e.1))

/-- Holds a store for its round (R293, R350). -/
def Region.holdStore (r : Region) (bank : Bool) (k : Nat) (h : HeldStore) : Region :=
  r.setBank bank ((r.bank bank).modHold k (fun x => { x with stores := x.stores ++ [h] }))

/-- One step of a dir-1 stream: the store of its elements is held for the round, unless the filter suppresses it (R289,
R293). -/
def Region.outStep (r : Region) (n : Nat) (bank : Bool) : Region :=
  let v := r.stream n
  let d := v.desc
  let stop := r.setStream n { v with ended := true, part := [] }
  match r.outAddr n with
  | .wait => r
  | .ended => stop
  | .store va c g =>
    match g.takeIf (decide (d.filter < 128)) d.filter 1 with
    | .ended => stop
    | .got f g1 =>
      let es := v.part.take d.stepElems
      let bytes := if f = 0 then [] else d.storeBytes va es
      let chunk := if d.bitmap = 0 ∨ va < d.base ∨ bytes.isEmpty then none else some ((va - d.base) / 512)
      let g2 := g1.setStream n { g1.stream n with part := v.part.drop d.stepElems, cur := c.after, paused := false, need := none }
      if bytes.isEmpty then g2 else g2.holdStore bank v.wordRnd { stream := n, step := c.pos, bytes := bytes, chunk := chunk }
    | _ => r

/-- The head address of a burst that begins with the stream's next step (R291). -/
def Region.headVA (r : Region) (n : Nat) : Option Nat := match r.outAddr n with | .store va _ _ => some va | _ => none

/-- A word reaches a dir-1 stream: a scale word is stored by its byte 0, a data word is unpacked (R285, R291, R293). -/
def Region.takeWord (r : Region) (n : Nat) (bank : Bool) (q : QWord) : Region :=
  let v := r.stream n
  let d := v.desc
  let k := if q.bank = bank then q.rnd else (r.bank bank).computing
  let scaled := decide (d.scale ≠ 0)
  let marks := if v.marks.any (fun m => m.1 == k) then v.marks else v.marks ++ [(k, r.curOf n, v.part)]
  let i := v.cur.burst
  let burst := (i + 1) % (if scaled then d.burst + 1 else d.burst)
  let v1 := { v with marks := marks, cur := { v.cur with burst := burst }, wordRnd := k }
  if scaled && i == 1 then
    (r.setStream n v1).holdStore bank k
      { stream := n, step := v.cur.pos, bytes := [(wrap64 (v.cur.head + d.scale), BitVec.ofNat 8 q.w.payload.toNat)], chunk := none }
  else
    let head := if scaled && i == 0 then (r.headVA n).getD 0 else v.cur.head
    r.setStream n { v1 with part := v.part ++ unpackN d.dw q.w.payload.toNat d.perWord, cur := { v1.cur with head := head } }

/-- Room for the slot that the next step of a channel-out stream fills; on a corrupt channel the stream stops (R312, R313). -/
def State.chanRoom (s : State) (r n : Nat) : State × Got Bool :=
  let g := s.reg r
  let v := g.stream n
  match v.desc.mode, v.chan.bind g.chan? with
  | 7, some e =>
    if e.corrupt then (s.chanStop r n e, .ok false)
    else match s.chanSlot r e (fun x => decide (v.cur.chan + v.desc.container * v.cur.pos / 64 < x.other + ringSlots x.size)) with
    | (s1, .ok (some _)) => (s1, .ok true)
    | (s1, .ok none) => (if s1.chanBad r e then s1.modStream r n (fun w => { w with state := 4 }) else s1, .ok false)
    | (s1, .fault c a) => (s1, .fault c a)
    | (s1, .held) => (s1, .held)
  | _, _ => (s, .ok true)

/-- Whether a source of a dir-1 stream has performed, so that the stream has no further step (R287, R289). -/
def Region.outEnded (r : Region) (n : Nat) : Bool :=
  let v := r.stream n
  v.ended || (decide (v.cur.pos < v.desc.total) && match r.outAddr n with
    | .ended => true
    | .wait => false
    | .store _ _ g => match g.takeIf (decide (v.desc.filter < 128)) v.desc.filter 1 with | .ended => true | _ => false)

/-- A dir-1 stream whose source has performed takes nothing more, and performs once no store of its own is held (R287, R289, R293). -/
def Region.endOut (r : Region) (n : Nat) (bank : Bool) : Region :=
  let r1 := r.setStream n { r.stream n with ended := true, part := [] }
  if (r.bank bank).holds.any (fun h => h.stores.any (fun x => x.stream == n)) then r1 else r1.performStream n

/-- An event of a bound dir-1 stream: it consumes the marker of a stopped island, or ends with its source, or performs a step if its
elements are there, or takes a word of its FIFO (R289, R293, R360). -/
def State.outEvent (s : State) (r n : Nat) (bank : Bool) (e : Machine.Bind) : State :=
  let g := s.reg r
  let v := g.stream n
  if ((g.boundFifo e.kind e.pos).head?).any (fun q => q.w.kind == 4) then
    s.setReg r (g.setBoundFifo e.kind e.pos ((g.boundFifo e.kind e.pos).drop 1))
  else if v.state ≠ 2 then s
  else if g.outEnded n then s.setReg r (g.endOut n bank)
  else if v.sated then s
  else if v.hasStep then
    if g.barred n then s
    else match s.chanRoom r n with
    | (s1, .ok true) => s1.modReg r (fun x => x.outStep n bank)
    | (s1, .ok false) => s1
    | (s1, .fault c a) => s1.strmFault r n c a
    | (s1, .held) => s1.strmHeld r n
  else match g.boundFifo e.kind e.pos with
    | [] => s
    | q :: qs =>
      let g1 := g.setBoundFifo e.kind e.pos qs
      if q.bank != bank && (g.bank (!bank)).running then s
      else if q.w.kind = 2 then s.setReg r g1
      else if q.w.kind = 3 then (s.setReg r g1).voidCause r bank q.rnd { cause := Cause.poisonReceived } .remap
      else if decide (v.desc.scale ≠ 0) && (v.cur.burst == 0 && (g.headVA n).isNone || v.cur.burst == 1 && g.barred n) then s
      else s.setReg r (g1.takeWord n bank q)

/-! ## STREAM_ACCESS -/

/-- STREAM_ACCESS: a dir-0 stream delivers a word it has read or reads further; a dir-1 stream takes a word or holds a
store. A strm.bar hold holds the accesses only (R284, R293, R299). A dir-1 stream that has no step left performs (R302), and a performed stream
hands what it still holds to a binding (R343, log 131). -/
def State.streamAccess (s : State) (r n : Nat) : State :=
  let g := s.reg r
  let v := g.stream n
  if g.strmParked n then s
  else if v.desc.dir = 1 then
    match g.binding n with
    | some (bank, e) => s.outEvent r n bank e
    | none => if v.state = 2 ∧ (v.sated ∨ g.outEnded n) then s.setReg r (g.performStream n) else s
  else
    match (g.binding n).bind (fun b => g.deliverAhead n b.1 b.2) with
    | some g1 => s.setReg r g1.endUnbound
    | none =>
      let left := decide (v.state = 3) && !(v.elems.isEmpty && v.part.isEmpty) && (g.binding n).isSome
      if !(decide (v.state = 2) || left) || g.barred n then s
      else if g.feeds n ∨ g.keeps n ∧ v.state = 2 then s.sourceStep r n
      else (s.readStep r n).modReg r Region.endUnbound

/-- STREAM_ACCESS (R284). -/
def execStreamAccess (r n : Nat) (s : State) : Out :=
  if r < 192 ∧ n < 128 then .next (s.streamAccess r n) else .fault .noSuchUnit

/-! ## EXTENT_MISS (R172) -/

/-- A held store faults at its commit: the committing round is voided (R352). -/
def State.storeFault (s : State) (r n : Nat) (c : BitVec 9) (va : Nat) : State :=
  match (s.reg r).binding n with
  | some (bank, _) =>
    s.voidCause r bank ((s.reg r).bank bank).oldest
      { cause := c, fva := BitVec.ofNat 64 va, finfo := BitVec.ofNat 64 n, voids := some bank } (.eret c false)
  | none => s

/-- A held store is held at its commit by a stage-2 fault or a service (R167, R353). -/
def State.storeHeld (s : State) (r n : Nat) : State :=
  match (s.reg r).binding n with
  | some (bank, _) => s.modReg r (fun g => g.void bank (g.bank bank).oldest (s.heldFor ((s.owner r).getD 48) r n))
  | none => s

/-- Whether a stream's request is one of the up to 4 that the translation unit walks for: the requests are taken in the order of their
arrival (R172). -/
def Region.walking (r : Region) (n : Nat) : Bool := ((r.walks.filter (fun m => (r.stream m).need.isSome)).take 4).contains n

/-- A request whose walk has ended without a translation is made anew behind the others. DEDUCED (log 129): it holds none of the 4 walks. -/
def Region.askAgain (r : Region) (n : Nat) : Region :=
  { r with walks := r.walks.filter (fun m => m != n) ++ if (r.stream n).need.isSome then [n] else [] }

/-- EXTENT_MISS: the translation unit answers a stream's request; a fault is the access's own, and is met again where no round needs the
element yet (R167, R172). -/
def State.extentMiss (s : State) (r n : Nat) : State :=
  match ((s.reg r).stream n).need, (s.reg r).walking n with
  | none, _ => s
  | some _, false => s
  | some (va, w), true =>
    match s.xlateFor (s.strmWho r n) va (if w then .write else .read) with
    | (s1, .ok x) =>
      let e := match s1.part? x.part with | some v => s1.extentOf v x | none => x
      s1.modStream r n (fun v => { v with extents := cacheXlate v.extents e 4, paused := false, need := none })
    | (s1, .fault c a) =>
      (if w then s1.storeFault r n c a else s.strmFail s1 r n (SGot.fault c a : SGot Unit)).modReg r (fun g => g.askAgain n)
    | (s1, .held) => (if w then s1.storeHeld r n else s1.strmHeld r n).modReg r (fun g => g.askAgain n)

/-- EXTENT_MISS (R172). -/
def execExtentMiss (r n : Nat) (s : State) : Out :=
  if r < 192 ∧ n < 128 then .next (s.extentMiss r n) else .fault .noSuchUnit

end Sys2Proof.Machine
end

