-- ==== Sys2Proof/Machine/Rounds.lean ====
section
/-!
DEFINITION. Fences, commits and replays of rounds, and the draining of a bank (R268, R347 to R353).
-/
namespace Sys2Proof.Machine

/-! ## ROUND_FENCE (R348, R349) -/

/-- A cell's state after a fence (R349). -/
def Cell.fenced (v : Cell) (cell : Nat) (carries : List Carry) : Cell :=
  let k := v.started cell carries
  { k with base := v.base, w := v.w, z := v.z, flags := v.flags }

/-- Whether an edge unit with a record in the block waits, with its lane and cell FIFOs empty (R348). -/
def Region.edgeQuiet (r : Region) (bank : Bool) (img : Block) (y : Nat) : Bool :=
  let e := r.edge y
  e.bank == bank && !e.stopped && e.lane.isEmpty && e.cell.isEmpty &&
    (match img.edgeRec y with | some c => (r.edgeTry bank y img c).isNone | none => true)

/-- Whether the fence of a round that is not the last passes (R348). -/
def Region.fencePasses (r : Region) (bank : Bool) (img : Block) : Bool :=
  let b := r.bank bank
  b.islands.all (fun i => i.fence == some b.computing) &&
    r.retim.all (fun e => e.2.all (fun q => q.bank != bank)) &&
    img.edgeRows.all (r.edgeQuiet bank img) && b.committing.isNone

/-- Whether the last round of a block has been computed: its islands have completed and its edge units have performed their
last step (R268, R351). -/
def Region.lastComputed (r : Region) (bank : Bool) (img : Block) : Bool :=
  let b := r.bank bank
  decide (b.computing = img.lastRound) && b.islands.all Island.complete && b.committing.isNone && img.edgeRows.all (r.edgeDone bank)

/-- What the round after a fence starts from (R349). -/
def Region.checkpoint (r : Region) (bank : Bool) (img : Block) (k : Nat) : Checkpoint :=
  { rnd := k
    cells := img.cellKeys.map (fun c => (c, r.cell c))
    edges := img.edgeRows.map (fun y => let e := r.edge y; { row := y, f := e.f, q := e.q, quant := e.quant, qc := e.qc, s := e.s })
    nests := (r.bank bank).islands.map Island.nest
    streams := r.streamChecks bank }

/-- The destinations outside the grid that the cells of a block's islands feed, by island (R227, R228, R359). -/
def Block.feeds (img : Block) : List (Nat × Dest) :=
  (img.cells.flatMap (fun c =>
    let cell := 16 * c.y + c.x
    let out := ((List.range 4).filter (fun d => c.routes.any (fun w => routeDir w d))).map (fun d => destOf img c.island cell d)
    (out ++ (if c.ops.any writesLane then [Dest.lane c.y] else [])).map (fun d => (c.island, d)))).eraseDups

/-- At a stop each island emits a marker into every memory-tile output FIFO, edge lane and router input and the outbound hold
that it feeds, behind its last word there (R359). A marker needs no room (log 97). -/
def Region.putMarkers (r : Region) (bank : Bool) (img : Block) (k : Nat) : Region :=
  let w : GWord := { kind := 4 }
  let q : QWord := { w := w, rnd := k, own := true, bank := bank }
  img.feeds.foldl (fun (g : Region) (e : Nat × Dest) =>
    match e.2 with
    | .mem n =>
      if g.tileBound bank n then
        { g with memOut := spInsert g.memOut n (spGet [] g.memOut n ++ [q]) }
      else g
    | .lane y => if g.laneOpen bank y then g.setEdge y { g.edge y with lane := (g.edge y).lane ++ [q] } else g
    | .router y =>
      ({ g with loc := g.loc ++ [{ q with src := y }] } : Region).setBank bank
        ((g.bank bank).modHold k (fun h => { h with outbound := h.outbound ++ [w] }))
    | _ => g) r

/-- A fence passes: the cells take their kept state, which their neighbours mirror, and the next round starts, unless a
marker has arrived (R348, R349, R359, R383). -/
def Region.passFence (r : Region) (bank : Bool) (img : Block) : Region :=
  let k := (r.bank bank).computing
  let r1 := img.cellKeys.foldl (fun (g : Region) (c : Nat) =>
    let v := (g.cell c).fenced c img.carries
    { g.setCell c v with mirrors := spInsert g.mirrors c { v with pad := [] } }) r
  let b := r1.bank bank
  let r2 := r1.setBank bank { b with
    committing := some k, computing := k + 1, checks := b.checks ++ [r1.checkpoint bank img (k + 1)]
    islands := b.islands.map (fun (i : Island) => { i with fence := none }), stopped := b.stopped || r1.marker }
  if r1.marker && !b.stopped then r2.putMarkers bank img k else r2

/-- The last round has been computed: what is left to keep is where its streams stand, for a block that is ended before its
bank drains (R268, R277, R314). -/
def Region.passLast (r : Region) (bank : Bool) : Region :=
  let b := r.bank bank
  r.setBank bank { b with
    committing := some b.computing, computing := b.computing + 1
    checks := b.checks ++ [{ rnd := b.computing + 1, cells := [], edges := [], nests := b.islands.map Island.nest, streams := r.streamChecks bank }] }

/-- ROUND_FENCE (R348). -/
def Region.roundFence (r : Region) (bank : Bool) : Region :=
  let b := r.bank bank
  match b.img with
  | none => r
  | some img =>
    if !b.running ∨ b.voidTo.isSome then r
    else if r.fencePasses bank img then r.passFence bank img
    else if r.lastComputed bank img then r.passLast bank
    else r

/-- ROUND_FENCE (R348). -/
def execRoundFence (r : Nat) (bank : Bool) (s : State) : Out :=
  if r < 192 then .next (s.modReg r (fun g => g.roundFence bank)) else .fault .noSuchUnit

/-! ## ROUND_COMMIT (R351) -/

/-- Whether a bound dir-1 stream has taken every word of the rounds up to `k` and held their stores. -/
def Region.streamSettled (r : Region) (bank : Bool) (k : Nat) (e : Machine.Bind) : Bool :=
  let v := r.stream e.stream
  kindIn e.kind || v.sated || v.state != 2 ||
    ((r.boundFifo e.kind e.pos).all (fun q => q.bank != bank || decide (k < q.rnd)) &&
      (!v.hasStep || decide (k < v.wordRnd)))

/-- The bytes of a held store go to memory, one access at a byte address where the store is masked, otherwise one access of
the container, aligned (R285, R292). -/
def State.storeBytes (s : State) (r n : Nat) : List (Nat × Byte) → List (Nat × Byte) → State × SGot Unit
  | [], places => (s.modMem (fun m => m.writeAt places), .ok ())
  | (va, b) :: rest, places =>
    match s.strmReach r n va .write with
    | (s1, .ok pa) =>
      match s1.physFault pa 1 .write with
      | some c => (s1, .fault c va)
      | none => (s1.countBytes (s1.strmWho r n).part pa 1).storeBytes r n rest (places ++ [(pa, b)])
    | (s1, .miss a w) => (s1, .miss a w)
    | (s1, .fault c a) => (s1, .fault c a)
    | (s1, .held) => (s1, .held)

/-- One held store performs (R285, R292, R293, R330). -/
def State.performStore (s : State) (r : Nat) (h : HeldStore) : State × SGot Unit :=
  let d := ((s.reg r).stream h.stream).desc
  let va := (h.bytes.head?.map Prod.fst).getD 0
  let foreign := match s.part? ((s.owner r).getD 48) with
    | some v => h.bytes.any (fun x => inWindow v x.1 1)
    | none => false
  if !d.masked && decide (1 < h.bytes.length) && !(aligned h.bytes.length va) then (s, .fault Cause.misaligned va)
  else if foreign then (s, .fault Cause.foldForeignWrite va)
  else s.storeBytes r h.stream h.bytes []

/-- Changes the hold of the committing round. -/
def State.modHold (s : State) (r : Nat) (bank : Bool) (k : Nat) (f : RoundHold → RoundHold) : State :=
  s.modReg r (fun g => g.setBank bank ((g.bank bank).modHold k f))

/-- Whether a stream stores into a channel that its end holds as corrupt (R312). -/
def Region.chanDead (r : Region) (n : Nat) : Bool := ((r.stream n).chan.bind r.chan?).any ChanEnd.corrupt

/-- Step 1, stores: the round's next held store performs; its chunk's bit is then to be set (R293, R294). One into the slots of a
corrupt channel does not (R312). -/
def State.commitStore (s : State) (r : Nat) (bank : Bool) (k : Nat) (h : HeldStore) : State :=
  if (s.reg r).chanDead h.stream then s.modHold r bank k (fun x => { x with stores := x.stores.drop 1 })
  else match s.performStore r h with
  | (s1, .ok ()) =>
    s1.modHold r bank k (fun x =>
      { x with stores := x.stores.drop 1
               stored := match h.chunk with
                 | some c => if x.stored.contains (h.stream, c) then x.stored else x.stored ++ [(h.stream, c)]
                 | none => x.stored })
  | (s1, .miss va w) => s1.missNow r h.stream va w
  | (s1, .fault c va) => s1.storeFault r h.stream c va
  | (s1, .held) => s1.storeHeld r h.stream

/-- The address of a stream's completion bitmap (R294). -/
def Desc.bitmapVA (d : Desc) : Nat := wrap64 (d.va + d.bitmap)

/-- Step 1, bits: the region's copy engine sets the bit of a chunk; a fault leaves it clear and voids nothing (R294). -/
def State.commitBit (s : State) (r : Nat) (bank : Bool) (k n c : Nat) : State :=
  let d := ((s.reg r).stream n).desc
  let va := d.bitmapVA + 8 * (c / 64)
  let drop := fun (st : State) => st.modHold r bank k (fun x => { x with stored := x.stored.drop 1 })
  let bad := fun (st : State) (cause : BitVec 9) =>
    (drop st).queueCause r { cause := cause, fva := BitVec.ofNat 64 va, finfo := BitVec.ofNat 64 (0x40000000 + n) }
  if !(aligned 8 va) then bad s Cause.misaligned
  else match s.setBit (s.strmWho r n) r d.bitmapVA c with
    | (s1, .ok ()) => drop s1
    | (s1, .fault cause _) => bad s1 cause
    | (s1, .held) => s1

/-- The index that a bound channel stream has reached at the end of round `k`: the slots fully consumed or filled (R313). -/
def Region.chanIndex (r : Region) (bank : Bool) (k : Nat) (e : Machine.Bind) : Nat :=
  let v := r.stream e.stream
  let b := r.bank bank
  let pos := if kindIn e.kind then
      match (b.checks.find? (fun c => decide (c.rnd = k + 1))).bind (fun c => c.streams.find? (fun x => x.1 == e.stream)) with
      | some (_, c) => c.pos
      | none => (r.inCursor bank e).pos
    else match v.marks.find? (fun m => decide (k < m.1)) with
      | some (_, c, _) => c.pos
      | none => v.cur.pos
  v.cur.chan + v.desc.container * pos / 64

/-- The first bound channel stream whose index is still to be written for round `k`, with the index (R313). -/
def Region.chanDue (r : Region) (bank : Bool) (k : Nat) : List Machine.Bind → Option (ChanEnd × Nat)
  | [] => none
  | e :: es =>
    match (r.stream e.stream).chan.bind r.chan? with
    | none => r.chanDue bank k es
    | some c =>
      let i := r.chanIndex bank k e
      if !c.corrupt && decide (c.own < i) then some (c, i) else r.chanDue bank k es

/-- Step 1, channel indices: one index is written (R312, R313). -/
def State.commitIndex (s : State) (r : Nat) (c : ChanEnd) (i : Nat) : State :=
  match s.chanWrite r c (if c.producer then 0 else 8) 8 i with
  | (s1, .ok ()) => s1.modReg r (fun g => g.setChan { c with own := i })
  | (s1, _) => s1

/-- The fold operation of an rmw op (R266, R334). -/
def HeldRmw.foldOp (h : HeldRmw) : Nat :=
  match h.op with
  | 0 => 0
  | 1 => 1
  | 2 => if h.signed then 4 else 6
  | _ => if h.signed then 5 else 7

/-- Step 2, rmw: an operation of the block of a bank, with its image at `va`, is checked and sent to its window's owner; one on a window
that has no owner left is queued with the cause alone (R266, R382). -/
def State.sendRmw (s : State) (r : Nat) (bank : Bool) (va : Nat) (h : HeldRmw) : State :=
  let p := (s.owner r).getD 48
  let bad := fun (c : BitVec 9) => s.queueCause r { cause := c, fva := BitVec.ofNat 64 h.addr, finfo := h.word.setWidth 64 }
  if !(aligned h.z h.addr) then bad Cause.misaligned
  else match ((s.part? p).bind (fun v => findWindow v h.addr h.z)).map Window.owner with
    | none => bad Cause.foldNoWindow
    | some none => s.queueCause r { cause := Cause.foldNoWindow }
    | some (some o) =>
      let n := s.pkg.msgCount
      let m : FoldMsg :=
        { num := n, part := p, issuer := r, owner := o, op := h.foldOp, addr := h.addr, z := h.z, b := h.val, c := 0, r := false
          slot := 0, rel := false, scope := 0, info := h.word.setWidth 64, rmw := true, signed := h.signed
          replay := ((s.reg r).place.map Placement.replay).getD 0, block := some (bank, va) }
      s.modPkg (fun k => { k with msgCount := n + 1, folds := k.folds ++ [m] })

/-- Whether a region holds a lane of the die graph that a placement belongs to. -/
def State.sameGraph (s : State) (d : Nat) (pl : Placement) : Bool :=
  (s.reg d).place.any (fun x => x.part == pl.part && x.replay == pl.replay && x.dg == pl.dg)

/-- Holds a word for a region of a die graph that is saved or about to be restored (R360). -/
def Part.holdWord (v : Part) (pl : Placement) (d : Nat) (w : GWord) : Part :=
  { v with replays := v.replays.map (fun y => if y.num = pl.replay then
      { y with dgs := y.dgs.zipIdx.map (fun (e : DieGraph × Nat) =>
          if e.2 = pl.dg ∧ e.1.savedOn d then { e.1 with heldWords := e.1.heldWords ++ [(d, w)] } else e.1) }
    else y) }

/-- Step 2, outbound: a word goes to the region that its tag's route names (log 7). For a region of the die graph that is saved it
is held (R360); at a region that no link reaches any more it is discarded, as a marker is at the end of the hold (R359, R381). -/
def State.sendWord (s : State) (r : Nat) (w : GWord) : State :=
  match spFind (s.reg r).route w.tag.toNat, (s.reg r).place with
  | some d, some pl =>
    if w.kind = 4 then s
    else if s.sameGraph d pl then
      if s.unreachable d then s else s.modReg d (fun g => { g with mesh := g.mesh ++ [{ w := w }] })
    else s.modPart pl.part (fun v => v.holdWord pl d w)
  | _, _ => s

/-- Step 2: the rmw operations in issue order, the landing placements, then the outbound words (R351). -/
def State.commitSends (s : State) (r : Nat) (bank : Bool) (va : Nat) (h : RoundHold) : State :=
  let s1 := h.rmws.foldl (fun (st : State) (x : HeldRmw) => st.sendRmw r bank va x) s
  let s2 := h.emits.foldl (fun (st : State) (x : Nat × Word) => st.land r x.1 (.full x.2)) s1
  h.outbound.foldl (fun (st : State) (w : GWord) => st.sendWord r w) s2

/-- A dir-1 stream that has taken its last element performs when the round of that element commits (R283, R293). -/
def Region.performBound (r : Region) (b : Bank) : Region :=
  b.bound.foldl (fun (g : Region) (e : Machine.Bind) =>
    let v := g.stream e.stream
    if v.desc.dir = 1 ∧ v.state = 2 ∧ v.sated ∧ !(b.holds.any (fun h => h.stores.any (fun x => x.stream == e.stream))) then
      g.performStream e.stream
    else g) r

/-- Step 3: the round is over (R276, R351). -/
def Region.endRound (r : Region) (bank : Bool) (img : Block) (k : Nat) : Region :=
  let b := r.bank bank
  let h := b.hold k
  let b1 := { b with
    committing := none, rounds := b.rounds + 1, holds := b.holds.filter (fun x => decide (k < x.rnd))
    checks := b.checks.filter (fun c => decide (k < c.rnd))
    satSent := b.satSent || (h.sat && img.report.testBit 0), snanSent := b.snanSent || (h.snan && img.report.testBit 1)
    tokenSent := b.tokenSent || decide (img.lastRound ≤ k) }
  let r1 := (r.setBank bank b1).performBound b1
  let r2 := b1.bound.foldl (fun (g : Region) (e : Machine.Bind) =>
    let v := g.stream e.stream
    if kindIn e.kind then g else g.setStream e.stream { v with marks := v.marks.filter (fun m => decide (k < m.1)) }) r1
  ({ r2 with tokens := if img.lastRound ≤ k then r2.tokens ++ [img.done] else r2.tokens } : Region).endUnbound

/-- Step 3: the sticky causes are queued once per run, and the round is over (R278, R351). -/
def State.commitEnd (s : State) (r : Nat) (bank : Bool) (img : Block) (k : Nat) (h : RoundHold) : State :=
  let b := (s.reg r).bank bank
  let tell := fun (st : State) (c : BitVec 9) => st.queueCause r { cause := c, finfo := BitVec.ofNat 64 img.va }
  let s1 := if h.sat && img.report.testBit 0 && !b.satSent then tell s Cause.satSticky else s
  let s2 := if h.snan && img.report.testBit 1 && !b.snanSent then tell s1 Cause.snan else s1
  s2.modReg r (fun g => g.endRound bank img k)

/-- ROUND_COMMIT: the committing round does its next piece of work: a store, a bit, an index, and then everything that must
happen once (R351). -/
def State.roundCommit (s : State) (r : Nat) (bank : Bool) : State :=
  let g := s.reg r
  let b := g.bank bank
  match b.img, b.committing with
  | some img, some k =>
    let h := b.hold k
    if !(b.bound.all (g.streamSettled bank k)) then s
    else match h.stores, h.stored, g.chanDue bank k b.bound with
      | x :: _, _, _ => s.commitStore r bank k x
      | [], (n, c) :: _, _ => s.commitBit r bank k n c
      | [], [], some (c, i) => s.commitIndex r c i
      | [], [], none => (s.commitSends r bank img.va h).commitEnd r bank img k h
  | _, _ => s

/-- ROUND_COMMIT (R351). -/
def execRoundCommit (r : Nat) (bank : Bool) (s : State) : Out :=
  if r < 192 then .next (s.roundCommit r bank) else .fault .noSuchUnit

/-! ## ROUND_REPLAY (R353) -/

/-- Whether what a voided round waits for has come: the eret of its handler takes its entry away, an answered fault is no
longer held, what the access had asked of the invalidation sequencer has ended, a remap is complete (R353). -/
def State.waitOver (s : State) (r : Nat) : VoidWait → Bool
  | .eret _ _ => false
  | .answer f => !((((s.owner r).bind s.part?).map Part.faults).getD []).any (fun x => x.num == f)
  | .service => ((s.owner r).bind s.part?).all (fun v => v.invq.all (fun o => v.backPull.contains o))
  | .remap => (s.reg r).remapping.isEmpty && s.pkg.rehoming.all (fun x => some x.1 != s.owner r)

/-- What the sources of a block's dir-1 streams have read ahead is read again: a replayed round reads memory as it stands at the replay
(R293). -/
def Region.rereadSources (r : Region) (l : List Machine.Bind) : Region :=
  ((l.filter (fun e => !(kindIn e.kind))).flatMap (fun e => r.srcsOf 128 e.stream)).foldl (fun g m =>
    if (g.stream m.1).state = 2 then g.unread m.1 else g) r

/-- ROUND_REPLAY: when every cause that voided a round has met its condition, the block runs again (R353). -/
def State.roundReplay (s : State) (r : Nat) (bank : Bool) : State :=
  let b := (s.reg r).bank bank
  if b.voidTo.isSome ∧ b.voids.all (s.waitOver r) then
    s.modReg r (fun g => (g.rereadSources b.bound).setBank bank { b with voidTo := none, voids := [] })
  else s

/-- ROUND_REPLAY (R353). -/
def execRoundReplay (r : Nat) (bank : Bool) (s : State) : Out :=
  if r < 192 then .next (s.roundReplay r bank) else .fault .noSuchUnit

/-! ## BANK_DRAIN (R268) -/

/-- Whether a bank has drained (R268). -/
def Region.drained (r : Region) (bank : Bool) (img : Block) : Bool :=
  let b := r.bank bank
  b.islands.all Island.complete && decide (img.lastRound < b.computing) && b.committing.isNone &&
    img.edgeRows.all (r.edgeDone bank) && r.retim.all (fun e => e.2.all (fun q => q.bank != bank))

/-- The words that a block placed in its region's router, row and injection FIFOs are no longer its own once it has drained:
a later block of the bank takes them as it takes words of the die mesh (R352). -/
def Region.disown (r : Region) (bank : Bool) : Region :=
  let f := fun (l : List QWord) => l.map (fun q => if q.bank = bank then { q with own := false } else q)
  { r with rows := r.rows.map (fun e => (e.1, f e.2)), inj := r.inj.map (fun e => (e.1, f e.2)), hold := f r.hold, loc := f r.loc }

/-- A running stream stops where its first untaken element is. -/
def Region.stopStream (r : Region) (n : Nat) : Region :=
  if (r.stream n).state = 2 then
    let g := if (r.stream n).desc.dir = 0 then r.unread n else r
    g.setStream n { g.stream n with state := 1, paused := false, need := none }
  else r

/-- A drained block leaves a stream that it bound: a dir-1 stream that has taken its last element has performed. DESIGN CHOICE (log 116): one
with elements left stands in state 1 at its first untaken element, and so do its sources, so that a strm command aimed at it acts (R314). -/
def Region.leaveStream (r : Region) (n : Nat) : Region :=
  let v := r.stream n
  if v.desc.dir = 1 ∧ v.state = 2 ∧ (v.sated ∨ r.outEnded n) then r.performStream n
  else if v.state = 2 then (r.srcsOf 128 n).foldl (fun g m => g.stopStream m.1) (r.stopStream n)
  else r

/-- BANK_DRAIN: a drained bank returns to state 0, and its bindings end; the elements of a memory word that is not full are
discarded with them (R268, R269, R285). DESIGN CHOICE (log 93): words that a dir-0 stream has delivered and the block has left unread in a
memory tile's input FIFO stay there, and the next block that reads there takes them. -/
def Region.bankDrain (r : Region) (bank : Bool) : Region :=
  let b := r.bank bank
  match b.img with
  | none => r
  | some img =>
    if b.running ∧ !b.held ∧ r.drained bank img then
      let r1 := img.edgeRows.foldl (fun (g : Region) (y : Nat) =>
        if (g.edge y).bank = bank then g.setEdge y { g.edge y with stopped := true } else g) r
      ((b.bound.foldl (fun (g : Region) (e : Machine.Bind) => (g.dropPart e).leaveStream e.stream) r1).disown bank).setBank bank { rounds := b.rounds }
    else r

/-- BANK_DRAIN (R268). -/
def execBankDrain (r : Nat) (bank : Bool) (s : State) : Out :=
  if r < 192 then .next (s.modReg r (fun g => g.bankDrain bank)) else .fault .noSuchUnit

end Sys2Proof.Machine
end

