-- ==== Sys2Proof/Machine/Folds.lean ====
section
/-!
DEFINITION. The owner of a fold window: the operations it applies (R331, R334, R335), and the re-homing of its windows
(R382).
-/
namespace Sys2Proof.Machine

/-! ## The new value of a word (R334) -/

/-- An operation that is neither fadd nor fadd.f, on old value `o` with operands `b` and `c`, `z` bytes wide; the flag says
that addsat clamped (R334, R266). -/
def foldInt (op z : Nat) (signed : Bool) (o b c : Nat) : Nat × Bool :=
  let n := 8 * z
  let m := 2 ^ n
  let si := fun (x : Nat) => signedOf n x
  match op with
  | 0 => ((o + b) % m, false)
  | 1 =>
    let x : Int := if signed then si o + si b else (o : Int) + b
    let y := if signed then sat x (-(2 ^ (n - 1) : Nat)) ((2 ^ (n - 1) : Nat) - 1) else sat x 0 ((m : Int) - 1)
    ((y % (m : Int)).toNat, x != y)
  | 4 => (if si b < si o then b else o, false)
  | 5 => (if si o < si b then b else o, false)
  | 6 => (Nat.min o b, false)
  | 7 => (Nat.max o b, false)
  | 8 => (o &&& b, false)
  | 9 => (o ||| b, false)
  | 10 => (o ^^^ b, false)
  | 11 => (b, false)
  | 12 => (if o = c then b else o, false)
  | _ => ((o + 1) % m, false)

/-- The float format of a fold word: FP32 or BF16 (R334). -/
def foldFmt (z : Nat) : Fmt := if z = 4 then fmtFP32 else fmtBF16

/-! ## Exact shadows (R335) -/

/-- The shadows of an owner. -/
def Pkg.shadowsOf (k : Pkg) (o : Nat × Nat) : Sparse FoldReg :=
  ((k.shadows.find? (fun x => x.region == o.1 && x.row == o.2)).map Shadows.regs).getD []

/-- Replaces the shadows of an owner. -/
def Pkg.setShadows (k : Pkg) (o : Nat × Nat) (l : Sparse FoldReg) : Pkg :=
  let rest := k.shadows.filter (fun x => !(x.region == o.1 && x.row == o.2))
  { k with shadows := if l.isEmpty then rest else rest ++ [{ region := o.1, row := o.2, regs := l }] }

/-- The number of a shadow: its partition and its address. -/
def shadowKey (p va : Nat) : Nat := p * 2 ^ 64 + va

/-- Whether a shadow's word meets `z` bytes at a key. -/
def shadowMeets (key z : Nat) (e : Nat × FoldReg) : Bool := decide (e.1 < key + z) && decide (key < e.1 + e.2.size)

/-- What applying an operation gives: the new word, the shadows, and the SAT and SNAN events for the issuing region; or the
cause with which the owner refuses it. -/
inductive Applied
  | done (v : Nat) (shadows : Sparse FoldReg) (sat snan : Bool)
  | refused (cause : BitVec 9)
  deriving DecidableEq, Repr

/-- An exact fadd on its shadow (R89, R90, R335). -/
def exactAdd (l : Sparse FoldReg) (key z : Nat) (f0 : FoldReg) (b : Nat) (snan0 : Bool) : Applied :=
  let fmt := foldFmt z
  let x := fmt.decode b
  match f0.addExact x with
  | none => .refused Cause.fnIllegal
  | some (f1, clamp) => .done (fmt.encode .rne f1.value) (spInsert l key { f1 with size := z }) clamp (snan0 || x.snan)

/-- Applies an operation to the old word `o` (R334, R335). -/
def applyFold (m : FoldMsg) (l : Sparse FoldReg) (o : Nat) : Applied :=
  let key := shadowKey m.part m.addr
  let met := l.filter (shadowMeets key m.z)
  if m.op = 2 then
    match met with
    | [] =>
      if 4096 ≤ l.length then .refused Cause.foldExactFull
      else
        let x := (foldFmt m.z).decode o
        match ({} : FoldReg).addExact x with
        | some (f0, _) => exactAdd l key m.z f0 m.b.toNat x.snan
        | none => .refused Cause.fnIllegal
    | (k, f) :: rest =>
      if k = key ∧ f.size = m.z ∧ rest.isEmpty then exactAdd l key m.z f m.b.toNat false else .refused Cause.fnIllegal
  else if m.op = 3 then
    if !met.isEmpty then .refused Cause.fnIllegal
    else
      let fmt := foldFmt m.z
      let x := fmt.decode o
      let y := fmt.decode m.b.toNat
      .done (fmt.encode .rne (Num.add .rne x y)) l false (x.snan || y.snan)
  else
    let r := foldInt m.op m.z m.signed o m.b.toNat m.c.toNat
    .done r.1 (l.filter (fun e => !(shadowMeets key m.z e))) r.2 false

/-! ## FOLD_OPERATION (R331) -/

/-- The owner as a party: its own region's translation unit (R334). -/
def FoldMsg.who (m : FoldMsg) : Who := { part := m.part, region := some m.owner.1, unit := 0xF8, owner := true }

/-- Whether a window is being re-homed (R382). -/
def State.rehomingAt (s : State) (p va : Nat) : Bool :=
  match s.part? p with
  | none => false
  | some v => (v.windows.zipIdx).any (fun (e : Window × Nat) =>
      s.pkg.rehoming.contains (p, e.2) && decide (e.1.va ≤ va) && decide (va < e.1.va + 2 ^ e.1.log2))

/-- Whether an owner is held for a partition at another of its operations (R334). -/
def State.ownerHeld (s : State) (m : FoldMsg) : Bool :=
  s.pkg.folds.any (fun x => x.held && x.owner == m.owner && x.part == m.part && x.num != m.num)

/-- The oldest operation from an issuer that an owner may take, with the others: none of a partition for which it is held, nor of
one that stands still, and none behind an isolated router (R331, R334, R381, R396, log 99). DESIGN CHOICE (log 139): the operations of a
region's sequencer and of its edge units are in one order of sending. -/
def State.nextFold (s : State) (issuer : Nat) (o : Nat × Nat) : Option (FoldMsg × List FoldMsg) :=
  takeFirst (fun m => m.issuer == issuer && m.owner == o && !m.orphan && !(s.routerDown o.1) && !(s.rehomingAt m.part m.addr) && !(s.ownerHeld m) &&
    !((s.part? m.part).any Part.still)) s.pkg.folds

/-- The owner is held at an operation (R334). -/
def State.holdOwner (s : State) (m : FoldMsg) : State :=
  s.modPkg (fun k => { k with folds := k.folds.map (fun x => if x.num = m.num then { x with held := true } else x) })

/-- The bank of a region of a replay, live or saved. -/
def State.issuerBank (s : State) (m : FoldMsg) (bank : Bool) : Option Bank :=
  let live := match (s.reg m.issuer).place with | some pl => pl.part == m.part && pl.replay == m.replay | none => false
  if live then some ((s.reg m.issuer).bank bank)
  else (((s.part? m.part).bind (fun v => v.replays.find? (fun y => y.num == m.replay))).bind (fun y =>
    (y.dgs.flatMap DieGraph.saved).find? (fun l => l.region == m.issuer))).map (fun l => l.img.bank bank)

/-- An event at an owner reaches the issuing region: its sticky bits, and for an rmw operation whose block still runs the causes
that the block's report bits ask for, once per run (R72, R278, R334). DESIGN CHOICE (log 103): the event of a sequencer's fold, and
that of an rmw operation whose block has drained, only set the bits. -/
def State.tellIssuer (s : State) (m : FoldMsg) (sat snan : Bool) : State :=
  let s1 := s.modIssuer m.part m.replay m.issuer (fun g => g.sticky sat snan)
  match m.block with
  | none => s1
  | some (bank, va) =>
    match s.issuerBank m bank with
    | none => s1
    | some b =>
      match b.img with
      | none => s1
      | some img =>
        let mine := b.running && img.va == va
        let sat1 := mine && sat && img.report.testBit 0 && !b.satSent
        let snan1 := mine && snan && img.report.testBit 1 && !b.snanSent
        let tell := fun (st : State) (on : Bool) (c : BitVec 9) =>
          if on then st.queueIssuer m.part m.replay m.issuer { cause := c, finfo := BitVec.ofNat 64 va } else st
        let s2 := s1.modIssuer m.part m.replay m.issuer (fun g =>
          g.setBank bank { g.bank bank with satSent := (g.bank bank).satSent || sat1, snanSent := (g.bank bank).snanSent || snan1 })
        tell (tell s2 sat1 Cause.satSticky) snan1 Cause.snan

/-- An operation is discarded, with its cause at its issuer (R334). -/
def State.refuseFold (s : State) (m : FoldMsg) (rest : List FoldMsg) (cause : BitVec 9) : State :=
  (s.modPkg (fun k => { k with folds := rest })).discardFold m { cause := cause, fva := BitVec.ofNat 64 m.addr, finfo := m.info }

/-- Whether an rmw operation reaches a region whose part of its replay has completed, and which has no further stage of that replay: it is
discarded (R390). -/
def State.ownerDone (s : State) (m : FoldMsg) : Bool :=
  let l := (((s.part? m.part).bind (fun v => v.replays.find? (fun y => y.num == m.replay))).map (fun y => y.dgs.flatMap DieGraph.stages)).getD []
  m.rmw && l.any (fun g => g.done.contains m.owner.1) && !(l.any (fun g => g.regions.contains m.owner.1 && !(g.done.contains m.owner.1)))

/-- The owner accepts an operation: it applies it to the word, writes the result through, and returns the old value (R331,
R334). An rmw operation that comes after its region's part of the stage has completed is discarded (R390). -/
def State.foldOperation (s : State) (issuer : Nat) (o : Nat × Nat) : State :=
  match s.nextFold issuer o with
  | none => s
  | some (m, rest) =>
    if s.ownerDone m then s.modPkg (fun k => { k with folds := rest })
    else match s.readNum m.who m.addr m.z with
    | (s1, .fault c _) => s1.refuseFold m rest c
    | (s1, .held) => s1.holdOwner m
    | (s1, .ok old) =>
      match applyFold m (s.pkg.shadowsOf o) old with
      | .refused c => s1.refuseFold m rest c
      | .done v l sat snan =>
        match s1.writeNum m.who m.addr m.z v with
        | (s2, .fault c _) => s2.refuseFold m rest c
        | (s2, .held) => s2.holdOwner m
        | (s2, .ok ()) =>
          let s3 := s2.modPkg (fun k =>
            { k.setShadows o l with
              folds := rest
              returns := if m.r then k.returns ++ [{ part := m.part, replay := m.replay, dst := m.issuer, slot := m.slot, val := BitVec.ofNat 64 old }] else k.returns })
          if sat || snan then s3.tellIssuer m sat snan else s3

/-- FOLD_OPERATION (R331). -/
def execFoldOperation (issuer owner row : Nat) (s : State) : Out :=
  if issuer < 192 ∧ owner < 192 ∧ row < 16 then .next (s.foldOperation issuer (owner, row)) else .fault .noSuchUnit

/-! ## WINDOW_REHOME (R382) -/

/-- The tile index of the edge unit of a row (R371). -/
def edgeTile (y : Nat) : Nat := 336 + y

/-- The regions of a mask, ascending. -/
def maskRegions (m : BitVec 192) : List Nat := (List.range 192).filter (fun r => m.getLsbD r)

/-- The first live edge unit of a partition that serves fewer than four of its windows (R382). -/
def State.freeOwner (s : State) (v : Part) : Option (Nat × Nat) :=
  ((maskRegions v.regions).flatMap (fun r => (List.range 16).map (fun y => (r, y)))).find? (fun o =>
    tileLive ((s.reg o.1).tileState (edgeTile o.2)) &&
      decide ((v.windows.filter (fun w => w.owner == some o)).length < 4))

/-- WINDOW_REHOME: a window goes to its new owner, and the operations held for it follow in issue order; with no owner left
they are queued with FOLD_NO_WINDOW (R382). -/
def State.windowRehome (s : State) (p w : Nat) : State :=
  match s.part? p with
  | none => s
  | some v =>
    match v.windows[w]? with
    | none => s
    | some win =>
      if !(s.pkg.rehoming.contains (p, w)) then s
      else
        let o := s.freeOwner { v with windows := v.windows.set w { win with owner := none } }
        let mine := fun (m : FoldMsg) =>
          m.part == p && !m.orphan && decide (win.va ≤ m.addr) && decide (m.addr < win.va + 2 ^ win.log2)
        let s1 := (s.setPart p { v with windows := v.windows.set w { win with owner := o } }).modPkg (fun k =>
          { k with rehoming := k.rehoming.filter (fun x => x != (p, w)) })
        match o with
        | some x => s1.modPkg (fun k => { k with folds := k.folds.map (fun (m : FoldMsg) => if mine m then { m with owner := x, held := false } else m) })
        | none =>
          (s1.pkg.folds.filter mine).foldl (fun (st : State) (m : FoldMsg) => st.discardFold m { cause := Cause.foldNoWindow })
            (s1.modPkg (fun k => { k with folds := k.folds.filter (fun m => !(mine m)) }))

/-- WINDOW_REHOME (R382). -/
def execWindowRehome (p w : Nat) (s : State) : Out :=
  if p < 48 then .next (s.windowRehome p w) else .fault .noSuchUnit

end Sys2Proof.Machine
end

