-- ==== Sys2Proof/Machine/SaveArea.lean ====
section
/-!
DEFINITION. The save area: the region record (R364 to R367), and the accesses of the sequencer's control unit to it (R364).
-/
namespace Sys2Proof.Machine

/-! ## Bytes of a record -/

/-- The bytes of a section at its offset; bytes that are zero are not listed. -/
def putBytes (off : Nat) (bs : List Byte) : List Host.Cell :=
  (bs.zipIdx.filter (fun e => e.1 != 0)).map (fun e => (off + e.2, e.1))

/-- A number of `n` bytes at an offset. -/
def putNum (off n v : Nat) : List Host.Cell := putBytes off (toBytes n v)

/-- Words of eight bytes, from an offset. -/
def putWords (off : Nat) (l : List Word) : List Host.Cell := putBytes off (l.flatMap (fun w => toBytes 8 w.toNat))

/-- A listed range moved to an offset. -/
def putCut (off : Nat) (l : List Host.Cell) : List Host.Cell := l.map (fun c => (off + c.1, c.2))

/-- The last address of a padded list of bytes. -/
def padTo (n : Nat) (bs : List Byte) : List Byte := bs ++ List.replicate (n - bs.length) 0

/-! ## A block in the form of R115 -/

/-- A cell record (R117). -/
def CellRec.bytes (c : CellRec) : List Byte :=
  let b := [c.x, c.y, c.island, c.ops.length, c.routes.length, c.regs.length, c.bank, 0].map (BitVec.ofNat 8) ++
    c.ops.flatMap (fun w => toBytes 3 w.toNat) ++ c.routes.flatMap (fun w => toBytes 2 w.toNat) ++ c.regs.flatMap (fun w => toBytes 2 w.toNat)
  padTo (pad8 b.length) b

/-- An edge record (R117). -/
def EdgeRec.bytes (c : EdgeRec) : List Byte :=
  let b := [c.row, c.ops.length, c.routes.length, 0, 0, 0, 0, 0].map (BitVec.ofNat 8) ++ c.ops.flatMap (fun w => toBytes 3 w.toNat) ++
    c.routes.flatMap (fun w => toBytes 2 w.toNat)
  padTo (pad8 b.length) b

/-- The image of a block, with the bind entries that strm.bind has written (R115, R116, R303). -/
def Block.bytes (b : Block) : List Byte :=
  let tail := b.binds.flatMap (fun (e : Machine.Bind) => [e.stream, e.kind, e.pos, e.idx, 0, 0, 0, 0].map (BitVec.ofNat 8)) ++
    b.cells.flatMap CellRec.bytes ++ b.edges.flatMap EdgeRec.bytes
  let size := Nat.max b.size (0x118 + tail.length)
  toBytes 4 0x4B434C42 ++ toBytes 2 1 ++ toBytes 1 b.islands.length ++ toBytes 1 b.edges.length ++ toBytes 2 b.cells.length ++
    toBytes 2 b.binds.length ++ toBytes 4 size ++ b.fuse.flatMap (fun e => toBytes 2 e.toNat) ++ b.tagmap.map (BitVec.ofNat 8) ++
    toBytes 4 b.round ++ toBytes 1 b.depth ++ toBytes 1 b.report ++ toBytes 1 b.done ++ toBytes 1 b.carries.length ++ toBytes 8 0 ++
    b.trip.flatMap (toBytes 4) ++ toBytes 4 0 ++
    padTo 64 (b.islands.flatMap (fun (r : Rect) => [r.x0, r.y0, r.x1, r.y1].map (BitVec.ofNat 8))) ++
    padTo 128 (b.carries.flatMap (fun (c : Carry) => [c.cell, c.kind, c.first, c.count].map (BitVec.ofNat 8))) ++ tail

/-! ## A stream, an edge unit, a cell (R367) -/

/-- A signed number in `n` bytes. -/
def intBytes (n : Nat) (x : Int) : List Byte := toBytes n (x % (2 ^ (8 * n) : Nat)).toNat

/-- The latched descriptor of a stream (R119). -/
def Desc.bytes (d : Desc) : List Byte :=
  toBytes 8 (packNat [(3, d.mode), (1, d.dir), (1, d.bmask.toNat), (6, d.width - 1), (3, d.planes), (8, d.tag.toNat), (6, d.burst % 64),
    (8, d.index), (8, d.filter), (4, 0), (16, (d.scale % (2 ^ 16 : Nat)).toNat)]) ++ toBytes 8 d.base ++
    ((d.trip.zip d.stride).flatMap (fun (e : Nat × Int) => toBytes 4 e.1 ++ intBytes 4 e.2)) ++ intBytes 4 d.bitmap ++ toBytes 4 d.seed.toNat

/-- A stream's 128 bytes (R367). -/
def Region.streamCells (r : Region) (n : Nat) (v : Stream) : List Host.Cell :=
  let o := 0x4000 + 128 * n
  if v.state = 0 then []
  else putBytes o v.desc.bytes ++ putNum (o + 0x40) 8 v.cur.pos ++ putNum (o + 0x48) 4 v.cur.lfsr.toNat ++ putNum (o + 0x4C) 1 v.state ++
    putNum (o + 0x4D) 1 (r.barred n).toNat ++ putNum (o + 0x50) 16 (v.bars.foldl (· ||| ·) 0)

/-- A tag's 32 bytes (R367). -/
def tagCells (t : Nat) (v : TagState) : List Host.Cell :=
  let o := 0x2000 + 32 * t
  putNum o 1 v.b.toNat ++ putNum (o + 1) 1 (v.task.getD 0xFF) ++ putNum (o + 2) 2 v.count.toNat ++
    match v.arm with
    | none => []
    | some a => putNum (o + 4) 1 1 ++ putNum (o + 8) 8 a.va ++ putNum (o + 16) 8 a.mask.toNat

/-- A fold register's 48 bytes (R367). -/
def FoldReg.bytes (f : FoldReg) : List Byte :=
  (match f.kind with | .fast => toBytes 40 f.fp.toNat | _ => intBytes 40 f.sum) ++
    toBytes 1 (match f.special with | .none => 0 | .posInf => 1 | .negInf => 2 | .nan => 3) ++ toBytes 1 f.negZero.toNat ++
    toBytes 1 (match f.kind with | .clear => 0 | .exact => 1 | .fast => 2) ++ toBytes 5 0

/-- An edge unit's 1,024 bytes (R367). -/
def edgeCells (y : Nat) (e : Edge) : List Host.Cell :=
  let o := 0x8000 + 1024 * y
  e.f.flatMap (fun x => putBytes (o + 48 * x.1) x.2.bytes) ++ e.q.flatMap (fun x => putNum (o + 0x300 + 8 * x.1) 8 x.2.toNat) ++
    putBytes (o + 0x320) (e.quant.flatMap (fun w => toBytes 4 w.toNat)) ++ putNum (o + 0x3A0) 1 e.qc ++ putNum (o + 0x3A2) 2 e.s

/-- A cell's 8,192 bytes: entries in the acc.st form, rotating registers, nest counters, and the rest (R367). -/
def cellCells (c : Nat) (v : Cell) (nest : List Nat) : List Host.Cell :=
  let o := 0x100000 + 8192 * c
  v.acc.flatMap (fun x => putNum (o + 16 * x.1) 10 x.2.val.toNat ++ putNum (o + 16 * x.1 + 10) 1 x.2.tag.toNat) ++
    v.bank.flatMap (fun x => putNum (o + 16 * x.1 + 12) 4 x.2.toNat) ++
    v.rot.flatMap (fun x => putNum (o + 0x1000 + 8 * x.1) 8 x.2.toNat) ++ putBytes (o + 0x1100) (nest.flatMap (toBytes 4)) ++
    putNum (o + 0x1114) 2 v.w ++ putNum (o + 0x1116) 1 v.z ++ putNum (o + 0x1117) 1 v.base ++ putNum (o + 0x1118) 1 (v.flags.toNat % 64 / 2 * 2) ++
    v.pad.flatMap (fun x => putNum (0x500000 + 4096 * c + 8 * x.1) 8 x.2.toNat)

/-- The nest counters of the island that holds a cell (R349, R367). -/
def Region.nestOf (r : Region) (c : Nat) : List Nat :=
  let find := fun (b : Bank) => (b.img.bind (fun i => i.islandOf c)).bind (fun i => b.islands[i]?)
  match find (r.bank r.cur) with
  | some i => i.nest
  | none => (find (r.bank (!r.cur))).elim [] Island.nest

/-! ## The sections (R365, R366) -/

/-- The resident words, in queue order, each with its place: injection FIFOs, row FIFOs, tag hold (R360, R367). -/
def Region.residents (r : Region) : List (QWord × Nat) :=
  (r.inj.flatMap (fun e => e.2.map (fun q => (q, e.1 % 16)))) ++ (r.rows.flatMap (fun e => e.2.map (fun q => (q, 16 + e.1)))) ++
    r.hold.map (fun q => (q, 32))

/-- The sequencer section (R366). -/
def Region.seqCells (r : Region) : List Host.Cell :=
  let q := r.seq
  let val := fun (v : Slot) => match v with | .full w => w | _ => 0
  putWords 0x40 q.g.toList ++ putWords 0x140 [q.pc, q.k.setWidth 64] ++ putWords 0x150 [q.status, q.tvec, q.epc, q.cause, q.fva, q.iva, q.finfo] ++
    putWords 0x188 q.scr.toList ++ putWords 0x208 (q.slots.toList.map val) ++ putWords 0x288 [q.landst, BitVec.ofNat 64 q.pending.length] ++
    (q.pending.zipIdx.flatMap (fun (e : Pend × Nat) => putNum (0x298 + 24 * e.2) 2 e.1.cause.toNat ++ putWords (0x2A0 + 24 * e.2) [e.1.fva, e.1.finfo])) ++
    putWords 0x418 ((List.range 32).map (fun i => spGet 0 r.params i)) ++ putWords 0x518 r.bankA.consts ++ putWords 0x618 r.bankB.consts ++
    putWords 0x718 [r.stickyWord]

/-- What a parked block awaits: nothing, an eret, or a stage-2 answer, with the fault (R365). -/
def Region.park (r : Region) : Nat × Nat :=
  let l := r.bankA.voids ++ r.bankB.voids
  match l.find? (fun v => match v with | .answer _ => true | _ => false) with
  | some (.answer f) => (2, f)
  | _ => (if l.any (fun v => match v with | .eret _ _ => true | _ => false) then 1 else 0, 0)

/-- What a record tells of its region's place: its number, its placement, and the miss count (R365). -/
structure RecordHead where
  region : Nat
  lane : Nat
  tick : Nat
  replay : Nat
  misses : Nat

/-- The header (R365). -/
def Region.headCells (r : Region) (h : RecordHead) : List Host.Cell :=
  let q := r.seq
  putNum 0 4 0x56534156 ++ putNum 4 2 1 ++ putNum 6 1 h.region ++ putNum 7 1 h.lane ++ putNum 8 8 h.tick ++ putNum 0x10 8 h.replay ++
    putNum 0x18 1 (match q.run with | .waiting => 1 | .ended => 2 | _ => 0) ++ putNum 0x19 1 (r.banksWord.toNat % 32) ++ putNum 0x1A 1 h.misses ++
    putNum 0x1B 1 r.park.1 ++ putNum 0x1C 4 r.residents.length ++ putNum 0x20 4 r.park.2

/-- The whole record but for the palette and the vat slice (R365). -/
def Region.recordCells (r : Region) (h : RecordHead) : List Host.Cell :=
  r.headCells h ++ r.seqCells ++ (List.range 256).flatMap (fun t => tagCells t (r.tag t)) ++
    r.streams.flatMap (fun e => r.streamCells e.1 e.2) ++ r.edges.flatMap (fun e => edgeCells e.1 e.2) ++
    (r.residents.zipIdx.flatMap (fun (e : (QWord × Nat) × Nat) =>
      let o := 0xC000 + 16 * e.2
      let w := e.1.1.w
      putNum o 8 w.payload.toNat ++ putNum (o + 8) 1 w.tag.toNat ++ putNum (o + 9) 1 w.kind.toNat ++ putNum (o + 10) 1 w.mark.toNat ++
        putNum (o + 11) 1 e.1.2)) ++
    putNum 0xE000 512 (r.chans.foldl (fun n (c : ChanEnd) => n ||| 2 ^ c.num) 0) ++
    putBytes 0x10000 ((r.bankA.img.map Block.bytes).getD []) ++ putBytes 0x30000 ((r.bankB.img.map Block.bytes).getD []) ++
    r.cells.flatMap (fun e => cellCells e.1 e.2 (r.nestOf e.1))

/-! ## Access to the record (R364) -/

/-- The vat slice of a region (R281). -/
def sliceBase (r : Nat) : Nat := vatBase (dieOf r) + r % 48 * 2 ^ 21

/-- The physical address of a byte of a record. A stage-2 fault is not held: like every other fault it becomes
SAVE_AREA_FAULT; a collapse and a remote page hold the access (R364). -/
def State.recordReach (s : State) (w : Who) (va : Nat) (kind : AKind) : State × Got Nat :=
  let bad := (s, Got.fault Cause.saveAreaFault va)
  match s.part? w.part with
  | none => bad
  | some v =>
    if inTierWindow va then
      if kind == .write && inWindow v va 1 then bad
      else match s.reach w va kind with
      | (s1, .fault _ _) => (s1, .fault Cause.saveAreaFault va)
      | y => y
    else if kind == .write && inWindow v va 1 then bad
    else match s.walk v w.part va kind with
      | .fault _ => bad
      | .stage2 _ _ _ => bad
      | .remote f _ _ => if v.failedPulls.contains f then bad else (s.invQueue w.part (.pull f none), .held)
      | .ok x =>
        let pa := x.pa + (va - x.va)
        let f := frameOf pa
        if kind == .write && !x.write2 then bad
        else if kind == .write && (x.rep || s.pkg.replicas.any (fun r => r.part == w.part && r.frame == f)) then
          (s.invQueue w.part (.collapse f (if x.rep then some (x.leafAt va) else none)), .held)
        else (s, .ok pa)

/-- The physical addresses of the pages of a record, each checked against the host's refusal and, for a read, poison. -/
def State.recordPages (s : State) (w : Who) (kind : AKind) : Nat → Nat → State × Got (List Nat)
  | 0, _ => (s, .ok [])
  | n + 1, va =>
    match s.recordReach w va kind with
    | (s1, .ok pa) =>
      match s1.physFault pa 4096 kind with
      | some _ => (s1, .fault Cause.saveAreaFault va)
      | none =>
        match s1.recordPages w kind n (va + 4096) with
        | (s2, .ok l) => (s2, .ok (pa :: l))
        | y => y
    | (s1, .fault c a) => (s1, .fault c a)
    | (s1, .held) => (s1, .held)

/-- The pages of 4 KiB in a record of 8 MiB that starts on any 64-byte boundary: its pieces that end at page boundaries. -/
def recordPieces : Nat := 2048

/-- Writes a record: every byte outside the sections is zero. The record's address is 64-aligned; its 4 KiB pieces are
taken from that address on. -/
def State.writeRecord (s : State) (w : Who) (va : Nat) (l : List Host.Cell) : State × Got Unit :=
  let a := va % 4096
  match s.recordPages w .write (recordPieces + (if a = 0 then 0 else 1)) (va - a) with
  | (s1, .fault c x) => (s1, .fault c x)
  | (s1, .held) => (s1, .held)
  | (s1, .ok ps) =>
    let at' := fun (off : Nat) => ps.getD ((a + off) / 4096) 0 + (a + off) % 4096
    let n := ps.length
    let wipe := fun (m : Memory) (e : Nat × Nat) =>
      let lo := if e.2 = 0 then a else 0
      let hi := if e.2 + 1 = n ∧ a ≠ 0 then a else 4096
      m.scrub (e.1 + lo) (hi - lo)
    let s2 := s1.modMem (fun m => (ps.zipIdx.foldl wipe m).writeAt (l.map (fun c => (at' c.1, c.2))))
    (ps.foldl (fun (st : State) (p : Nat) => st.countBytes w.part p 4096) s2, .ok ())

end Sys2Proof.Machine
end

