-- ==== Sys2Proof/Machine/Scheduler.lean ====
section
/-!
DEFINITION. The region scheduler: placement (R46 to R48, R61, R62, R156), gang ticks and shared sets (R157 to R159), saves
and restores (R359 to R364), and the completion of a region's part of a stage (R53, R390).
-/
namespace Sys2Proof.Machine

/-! ## Die graphs -/

/-- Whether a die graph, placed or saved, keeps a region reserved (R156, R157). -/
def DieGraph.reserves (d : DieGraph) (r : Nat) : Bool :=
  (match d.place with | .waiting => false | .finished => false | _ => true) && d.stages.any (fun g => !g.over && g.regions.contains r)

/-- The regions that a die graph occupies: those of its stages that have not completed. -/
def DieGraph.regions (d : DieGraph) : List Nat := (d.stages.filter (fun g => !g.over)).flatMap StageRec.regions

/-- Changes a die graph of a replay. -/
def State.modDg (s : State) (p n i : Nat) (f : DieGraph → DieGraph) : State :=
  s.modReplay p n (fun y => { y with dgs := y.dgs.zipIdx.map (fun (e : DieGraph × Nat) => if e.2 = i then f e.1 else e.1) })

/-- A replay of a partition. -/
def State.replay? (s : State) (p n : Nat) : Option Replay := (s.part? p).bind (fun v => v.replays.find? (fun y => y.num == n))
/-- A die graph of a replay. -/
def State.dg? (s : State) (p n i : Nat) : Option DieGraph := (s.replay? p n).bind (fun y => y.dgs[i]?)

/-! ## Runnable die graphs, free regions (R61, R62, R156) -/

/-- Whether R61 allows a stage: every stage of its number in the replay before it on its queue has completed. DESIGN CHOICE (log
101): a preceding replay that has been aborted or dropped holds nothing back. -/
def Part.stageAllowed (v : Part) (y : Replay) (g : StageRec) : Bool :=
  match v.replays.find? (fun x => x.num == y.prev) with
  | none => true
  | some x => x.aborting.isSome || (x.begun && x.dgs.all (fun d => d.stages.all (fun h => h.number != g.number || h.over)))

/-- Whether a die graph is runnable (R62). -/
def Part.runnable (v : Part) (y : Replay) (d : DieGraph) : Bool :=
  y.begun && y.aborting.isNone && d.isWaiting && d.stages.all (v.stageAllowed y)

/-- The partition whose state is live on a die of a set (R159, R361). -/
def RSet.liveOn (t : RSet) (die : Nat) : Nat := spGet t.owner t.live die

/-- Whether a region is free for a partition (R156); no die graph is placed on a column that a thermal trip holds (R388). -/
def State.isFree (s : State) (v : Part) (r : Nat) : Bool :=
  !(v.replays.any (fun y => y.dgs.any (fun d => d.reserves r))) && (s.reg r).place.isNone && !(spGet {} s.pkg.thermal (dieOf r)).tripped

/-- The free regions of a partition on a die, ascending (R156). -/
def State.freeRegions (s : State) (v : Part) (die : Nat) : List Nat := (s.usable v die).filter (s.isFree v)

/-- The width of a die graph. -/
def DieGraph.width (d : DieGraph) : Nat := (d.stages.map StageRec.width).sum

/-! ## Placement (R46 to R48, R156) -/

/-- The cells of a region with nothing kept but their pads. -/
def Region.padsOnly (r : Region) : Sparse Cell := r.cells.map (fun e => (e.1, ({ pad := e.2.pad } : Cell)))

/-- A region between two stages: tag table, landing buffer, banks and descriptors are cleared, the pads stay, and so does the
health of its tiles (R46). -/
def Region.vacate (r : Region) : Region :=
  { tiles := r.tiles, spare := r.spare, remapping := r.remapping, cells := r.padsOnly }

/-- A stage leaves a region: its residence is counted, and the region is cleared (R46, R150). -/
def State.unplace (s : State) (r : Nat) : State :=
  let s1 := match (s.reg r).place with
    | some pl => s.meterResid pl.part (dieOf r) pl.since s.tick
    | none => s
  s1.modReg r Region.vacate

/-- The regions of a die graph given to its stages, in descriptor order (R156). -/
def assignRegions : List StageRec → List Nat → List StageRec
  | [], _ => []
  | g :: gs, l => { g with regions := l.take g.width, done := [] } :: assignRegions gs (l.drop g.width)

/-- The model's own map from tag to destination for a lane (R54, log 7): a region of the same die graph, `all` in the order of
placement. -/
def meshMap (pl : Placement) (r : Nat) (all : List Nat) : Sparse Nat :=
  (List.range 256).filterMap (fun t => match all[Config.meshRoute pl.graph pl.dg pl.stage pl.lane t]? with
    | some d => if d = r then none else some (t, d)
    | none => none)

/-- A region takes its lane of a stage: the sequencer starts per R47. -/
def Region.placed (g : Region) (pl : Placement) (entry frame : Nat) (route : Sparse Nat) : Region :=
  let q : Seq := { pc := BitVec.ofNat 64 entry, run := .boundary }
  { g.vacate with
    place := some pl
    seq := (q.gw 1 (BitVec.ofNat 64 frame)).gw 2 (BitVec.ofNat 64 (frame + 0x40))
    route := route }

/-- The periods of 4,096 fabric cycles that have passed since TICK 0 (R26, R372, log 16). -/
def periodsOf (tick : Nat) : Nat := tick * 13 / 40960

/-- What an island's clock becomes after so many periods of the package: its own count from when it left OFF, less those in HOLD (R29,
R372). -/
def clockAfter (now : Nat) (old st : VfState) (c : Nat × Nat) : Nat × Nat :=
  match old, st with
  | .off, .off => c
  | .off, _ => (now, now)
  | .hold, .on => (c.1 + (now - c.2), c.2)
  | .on, .on => c
  | .on, _ => (c.1, now)
  | .hold, _ => c

/-- The periods in which an island was not ON, as it leaves a state (R372). -/
def napsAfter (now : Nat) (old st : VfState) (c : Nat × Nat) (l : List (Nat × Nat)) : List (Nat × Nat) :=
  if old = .on ∨ old = st ∨ now ≤ c.2 then l else l ++ [(c.2, now)]

/-- An island takes a state (R28, R29). -/
def Pkg.moveIsland (k : Pkg) (now vf : Nat) (st : VfState) : Pkg :=
  let old := spGet .on k.vf vf
  let c := spGet (0, 0) k.clocks vf
  { k with vf := spInsert k.vf vf st, clocks := spInsert k.clocks vf (clockAfter (periodsOf now) old st c)
           naps := spInsert k.naps vf (napsAfter (periodsOf now) old st c (spGet [] k.naps vf)) }

/-- A die's column returns to ON before anything is placed on it (R29). -/
def State.columnOn (s : State) (r : Nat) : State := s.modPkg (fun k => k.moveIsland s.tick (10 * dieOf r + r % 8) .on)

/-- Places the lanes of one stage (R156). -/
def State.placeStage (s : State) (p : Nat) (y : Replay) (i : Nat) (all : List Nat) (g : StageRec) : State :=
  g.regions.zipIdx.foldl (fun (st : State) (e : Nat × Nat) =>
    let pl : Placement := { part := p, replay := y.num, dg := i, stage := g.index, number := g.number, lane := e.2, width := g.width,
                            graph := y.graph, save := g.save, since := st.tick }
    (st.columnOn e.1).modReg e.1 (fun r => r.placed pl g.entry y.frame (meshMap pl e.1 all))) s

/-- Places a die graph on the lowest free regions of its die (R156). -/
def State.placeDg (s : State) (p : Nat) (v : Part) (y : Replay) (i : Nat) (d : DieGraph) : State :=
  let all := (s.freeRegions v d.die).take d.width
  let stages := assignRegions d.stages all
  let s1 := s.modDg p y.num i (fun x => { x with stages := stages, place := .placed })
  let s2 := s1.modPart p (fun u => { u with lastQueue := spInsert u.lastQueue y.prio y.src.id })
  stages.foldl (fun (st : State) (g : StageRec) => st.placeStage p y i all g) s2

/-- The queues of a priority in the order in which they are tried: from the one after the last that was placed from (R62). -/
def Part.queueOrder (v : Part) (prio : Nat) : List Nat :=
  let last := spGet 19 v.lastQueue prio
  (List.range 20).map (fun k => (last + 1 + k) % 20)

/-- The next die graph to place: highest priority first, then the queues in turn, each with its oldest runnable die graph
whose regions are free (R62). -/
def State.chooseDg (s : State) (t : RSet) (p : Nat) (v : Part) : Option (Replay × Nat × DieGraph) :=
  let fits := fun (e : Replay × Nat × DieGraph) =>
    v.runnable e.1 e.2.2 && t.liveOn e.2.2.die == p && decide (e.2.2.width ≤ (s.freeRegions v e.2.2.die).length)
  ([3, 2, 1, 0].flatMap (fun prio => (v.queueOrder prio).map (fun q => (prio, q)))).findSome? (fun (e : Nat × Nat) =>
    v.dieGraphs.find? (fun x => x.1.prio == e.1 && x.1.src.id == e.2 && fits x))

/-- Places die graphs until none fits (R62); at most 64 replays of four die graphs run. -/
def State.placeAll (s : State) (k p : Nat) : Nat → State
  | 0 => s
  | n + 1 =>
    match spFind s.sets k, s.part? p with
    | some t, some v =>
      match s.chooseDg t p v with
      | some (y, i, d) => (s.placeDg p v y i d).placeAll k p n
      | none => s
    | _, _ => s

/-! ## Restoring (R362) -/

/-- The sequencer's control unit of a region as a party (R364). -/
def recordWho (p r : Nat) : Who := { part := p, region := some r, unit := 255 }

/-- A record access has met a fault: the partition is reset (R364). -/
def State.saveAreaFault (s : State) (p : Nat) : State :=
  s.fatal p { cause := Cause.saveAreaFault, delivered := Cause.saveAreaFault, region := 255, resume := 0, first := 0, fva := 0 }

/-- A stream after a restore: its accesses are tried afresh, and its extents are patched from the translation in force
(R171, R362). -/
def State.restoreStream (s : State) (p : Nat) (g : Region) (n : Nat) (v : Stream) : Stream :=
  if v.state = 0 then v else { v with paused := false, need := none, extents := s.openExtents p v.desc (g.strmVA n) }

/-- A region as a restore reloads it: the saved state over the region's own health, with the mirrors latched (R362, R402). While an isolated
cell waits for its remap its blocks wait for that, their current rounds voided (R387). -/
def State.restoredRegion (s : State) (r : Nat) (p : Nat) (l : SavedLane) : Region :=
  let old := s.reg r
  let g := l.img
  let go := fun (b : Bank) => { b with stopped := false }
  let new : Region := { g with
    tlb := [], icache := [], marker := false
    place := g.place.map (fun pl => { pl with since := s.tick })
    seq := { g.seq with run := (match g.seq.run with | .waiting => .boundary | x => x), waitFrom := none }
    bankA := go g.bankA, bankB := go g.bankB
    streams := g.streams.map (fun e => (e.1, s.restoreStream p g e.1 e.2))
    mirrors := g.cells.map (fun e => (e.1, { e.2 with pad := [] }))
    tiles := old.tiles, spare := old.spare, remapping := old.remapping }
  if old.remapping.isEmpty then new else new.voidBlocks

/-- The palette and the vat slice of a region take saved bytes. -/
def State.loadTiers (s : State) (r : Nat) (palette vat : List Host.Cell) : State :=
  s.modMem (fun m => (((m.scrub (palBase r) (2 ^ 21)).paste (palBase r) palette).scrub (sliceBase r) (2 ^ 21)).paste (sliceBase r) vat)

/-- Open channel ends read their headers again (R362). -/
def State.rereadEnds (s : State) (r : Nat) : State :=
  (s.reg r).chans.foldl (fun (st : State) (e : ChanEnd) => if e.corrupt then st else (st.chanRead r e).1) s

/-- One region is restored; the words held for it come after its resident words, and the signals held for it are applied (R326,
R360, R362). -/
def State.restoreLane (s : State) (p : Nat) (held : List Signal) (words : List (Nat × GWord)) (l : SavedLane) : State :=
  let late := (words.filter (fun e => e.1 == l.region)).map (fun (e : Nat × GWord) => ({ w := e.2 } : QWord))
  let g := s.restoredRegion l.region p l
  let s1 := (((s.columnOn l.region).setReg l.region { g with mesh := g.mesh ++ late }).loadTiers l.region l.palette l.vat).rereadEnds l.region
  (held.filter (fun g => g.dst == l.region)).foldl (fun (st : State) (g : Signal) => st.tagEvent g.dst g.tag g.mode g.src) s1

/-- The records of a die graph are read: the outcome of the accesses (R364). -/
def State.readRecords (s : State) (p : Nat) (d : DieGraph) : List SavedLane → State × Got Unit
  | [] => (s, .ok ())
  | l :: ls =>
    let va := ((d.stages.find? (fun g => g.index == l.stage)).map StageRec.save).getD 0 + l.lane * 0x800000
    match s.recordPages (recordWho p l.region) .read (recordPieces + (if va % 4096 = 0 then 0 else 1)) (va - va % 4096) with
    | (s1, .ok ps) => (ps.foldl (fun (st : State) (a : Nat) => st.countBytes p a 4096) s1).readRecords p d ls
    | (s1, .fault c a) => (s1, .fault c a)
    | (s1, .held) => (s1, .held)

/-- A saved die graph is restored onto its own regions (R157, R362); a remote page holds it until a later decision. -/
def State.restoreDg (s : State) (p n i : Nat) (d : DieGraph) : State :=
  match s.readRecords p d d.saved with
  | (s1, .fault _ _) => s1.saveAreaFault p
  | (s1, .held) => s1.modDg p n i (fun x => { x with place := .restoring })
  | (s1, .ok ()) =>
    let s2 := s1.modDg p n i (fun x => { x with place := .placed, saved := [], held := [], heldWords := [], forSuspend := false, cutAt := none })
    d.saved.foldl (fun (st : State) (l : SavedLane) => st.restoreLane p d.held d.heldWords l) s2

/-- Every saved die graph of a partition is restored on the dies where its state is live (R159); none on a die whose columns a
thermal trip holds (R388), and none of a partition that was resumed in the current slice of a shared set (R397). -/
def State.restoreAll (s : State) (t : RSet) (p : Nat) (v : Part) : State :=
  (v.dieGraphs.filter (fun e => e.2.2.isSaved && t.liveOn e.2.2.die == p && !(spGet {} s.pkg.thermal e.2.2.die).tripped && !v.waitSlice)).foldl
    (fun (st : State) (e : Replay × Nat × DieGraph) => st.restoreDg p e.1.num e.2.1 e.2.2) s

/-- A restore that a gang tick has found under way completes for the outgoing owner, and its markers follow at once; the save has its
deadline from that gang tick (R361, R363). -/
def State.finishRestore (s : State) (p n i : Nat) (d : DieGraph) : State :=
  (s.restoreDg p n i d).modDg p n i (fun x => if x.isPlaced then { x with place := .saving (d.cutAt.getD s.tick), missing := false } else x)

/-- The restores under way of partitions whose slice has ended (R363); none goes on where a thermal trip holds the die (R388). -/
def State.finishRestores (s : State) (t : RSet) : State :=
  (t.members.filter (fun p => p != t.owner)).foldl (fun (st : State) (p : Nat) =>
    match st.part? p with
    | none => st
    | some v => (v.dieGraphs.filter (fun e =>
        e.2.2.place == .restoring && t.liveOn e.2.2.die == p && !(spGet {} s.pkg.thermal e.2.2.die).tripped)).foldl
        (fun (u : State) (e : Replay × Nat × DieGraph) => u.finishRestore p e.1.num e.2.1 e.2.2) st) s

/-- A decision of the scheduler for a set: the restores that a gang tick has met, the owner's saved die graphs, then its runnable
ones (R62, R159, R363). -/
def State.schedule (s0 : State) (k : Nat) : State :=
  match spFind s0.sets k with
  | none => s0
  | some t =>
    let s := s0.finishRestores t
    match s.part? t.owner with
    | none => s
    | some v => if v.runs then (s.restoreAll t t.owner v).placeAll k t.owner 256 else s

/-! ## The switch of a die (R159, R361, R364) -/

/-- The regions of a set on a die. -/
def RSet.onDie (t : RSet) (die : Nat) : List Nat := (maskRegions t.regions).filter (fun r => dieOf r == die)

/-- The palette, pads and vat slice of a region as CFW-held memory keeps them (R364). -/
def State.heldImage (s : State) (r : Nat) : HeldImage :=
  { region := r, palette := s.mem.cut (palBase r) (2 ^ 21), vat := s.mem.cut (sliceBase r) (2 ^ 21)
    pads := ((s.reg r).cells.filter (fun e => !e.2.pad.isEmpty)).map (fun e => (e.1, e.2.pad)) }

/-- A region shows the incoming partition its own bytes, or zeros (R159, R364). -/
def State.loadHeld (s : State) (r : Nat) (h : HeldImage) : State :=
  (s.modReg r (fun g => { g.vacate with cells := h.pads.map (fun e => (e.1, ({ pad := e.2 } : Cell))) })).loadTiers r h.palette h.vat

/-- Whether a partition has a saved record of a region. -/
def Part.hasRecord (v : Part) (r : Nat) : Bool := v.replays.any (fun y => y.dgs.any (fun d => d.savedOn r))

/-- A die passes from one partition of a set to another: the outgoing bytes of the regions without a record go to CFW-held
memory, and the incoming partition's images take their place (R364). A record keeps the bytes of its region itself. -/
def State.switchDie (s : State) (t : RSet) (die out inc : Nat) : State :=
  (t.onDie die).foldl (fun (st : State) (r : Nat) =>
    let s1 := st.modPart out (fun v => if v.hasRecord r then v else { v with images := v.images ++ [st.heldImage r] })
    let img := ((st.part? inc).bind (fun v => v.images.find? (fun h => h.region == r))).getD { region := r, palette := [], pads := [], vat := [] }
    (s1.modPart inc (fun v => { v with images := v.images.filter (fun h => h.region != r) })).loadHeld r img) s

/-- Replaces a set. -/
def State.setSet (s : State) (k : Nat) (t : RSet) : State := { s with sets := spInsert s.sets k t }

/-- A die whose outgoing saves have ended passes to the owner (R361). -/
def State.settleDie (s : State) (k die : Nat) : State :=
  match spFind s.sets k with
  | none => s
  | some t =>
    let q := t.liveOn die
    let busy := (s.part? q).any (fun v => v.dieGraphs.any (fun e =>
      e.2.2.die == die && (e.2.2.isSaving || e.2.2.isPlaced || (e.2.2.place == .restoring && v.runs))))
    if q = t.owner ∨ busy then s
    else (s.switchDie t die q t.owner).setSet k { t with live := spErase t.live die }

/-- Every die of a set. -/
def State.settle (s : State) (k : Nat) : State := (List.range 4).foldl (fun (st : State) (d : Nat) => st.settleDie k d) s

end Sys2Proof.Machine
end

