-- ==== Sys2Proof/Machine/Preempt.lean ====
section
/-!
DEFINITION. Gang ticks (R158, R159), pre-emption by markers (R359 to R361, R363), and the completion of a region's part of a
stage (R53, R390).
-/
namespace Sys2Proof.Machine

/-! ## GANG_TICK (R159) -/

/-- Whether a partition counts for a slice: it has a saved or a runnable die graph, and is not suspended (R159, R396). -/
def Part.hasWork (v : Part) : Bool := v.runs && v.dieGraphs.any (fun e => e.2.2.isSaved || v.runnable e.1 e.2.2)

/-- The members of a set in the order in which the next owner is sought: those after the owner, cycling back (R159). -/
def RSet.after (t : RSet) : List Nat :=
  let i := if t.members.contains t.owner then (t.members.takeWhile (fun p => p != t.owner)).length + 1 else t.start
  t.members.drop i ++ t.members.take i

/-- The next owner of a slice (R159). -/
def State.nextOwner (s : State) (t : RSet) : Nat :=
  (t.after.find? (fun p => (s.part? p).any Part.hasWork)).getD t.owner

/-- A die graph whose partition loses its die at a tick: a placed one is saved, and one whose restore is under way keeps the tick
(R159, R361, R363). -/
def DieGraph.cut (d : DieGraph) (since : Nat) (sus : Bool) : DieGraph :=
  if d.isPlaced then { d with place := .saving since, missing := false, forSuspend := sus, batch := none }
  else if d.place = .restoring ∧ sus = false then { d with batch := none, cutAt := some (d.cutAt.getD since) }
  else { d with batch := none }

/-- Markers are sent to every region of a partition's placed die graphs, for an owner change or for PART.SUSPEND, at a tick from
which the saves count (R159, R359, R361). -/
def State.sendMarkers (s : State) (p since : Nat) (sus : Bool) : State :=
  s.modPart p (fun v => { v with replays := v.replays.map (fun y => { y with dgs := y.dgs.map (fun (d : DieGraph) => d.cut since sus) }) })

/-- The TICK value of a set's last gang tick, which a save deadline counts from (R158, R361). -/
def RSet.tickOf (t : RSet) : Nat := 1000 * t.period * t.last

/-- A save of an owner change that a gang tick finds still running counts as one miss (R363). -/
def State.countRunning (s : State) (t : RSet) : State :=
  t.members.foldl (fun (st : State) (p : Nat) =>
    st.modPart p (fun v => { v with replays := v.replays.map (fun y => { y with dgs := y.dgs.map (fun (d : DieGraph) =>
      if d.isSaving && !d.forSuspend then { d with missing := true } else d) }) })) s

/-- The owner of a slice changes: the outgoing owner's die graphs are pre-empted, and the dies where it has none switch at
once (R159, R361). -/
def State.changeOwner (s : State) (k : Nat) (t : RSet) (next : Nat) : State :=
  let live := (List.range 4).foldl (fun (l : Sparse Nat) (d : Nat) => spInsert l d (t.liveOn d)) []
  ((s.sendMarkers t.owner t.tickOf false).setSet k { t with owner := next, live := live.filter (fun e => e.2 != next) }).settle k

/-- A slice begins: what was resumed in the one before is restored in the next that its partition owns (R397). -/
def State.openSlice (s : State) (t : RSet) : State :=
  t.members.foldl (fun (st : State) (p : Nat) => st.modPart p (fun v => { v with waitSlice := false })) s

/-- GANG_TICK: at a tick of the set, the slice may pass on; then a decision (R62, R159). Between two ticks the scheduler may
decide as well, since R68 bounds a placement only from above. -/
def State.gangTick (s : State) (k : Nat) : State :=
  match spFind s.sets k with
  | none => s
  | some t =>
    let now := s.tick / (1000 * t.period)
    if now ≤ t.last then (s.settle k).schedule k
    else
      let t1 := { t with last := now }
      let s1 := ((s.setSet k t1).countRunning t1).openSlice t1
      let next := s1.nextOwner t1
      (if next = t.owner then s1.settle k else s1.changeOwner k t1 next).schedule k

/-- GANG_TICK (R159). -/
def execGangTick (set : Nat) (s : State) : Out := if set < 48 then .next (s.gangTick set) else .fault .noSuchUnit

/-! ## MARKER_ARRIVAL (R359) -/

/-- The die graph that a region's placement belongs to. -/
def State.dgAt (s : State) (r : Nat) : Option (Placement × DieGraph) :=
  match (s.reg r).place with
  | none => none
  | some pl => (s.dg? pl.part pl.replay pl.dg).map (fun d => (pl, d))

/-- MARKER_ARRIVAL: the sequencer issues nothing more, and each running block stops at the next fence it reaches (R359). -/
def State.markerArrival (s : State) (r : Nat) : State :=
  match s.dgAt r with
  | some (_, d) => if d.isSaving then s.modReg r (fun g => { g with marker := true }) else s
  | none => s

/-- MARKER_ARRIVAL (R359). -/
def execMarkerArrival (r : Nat) (s : State) : Out := if r < 192 then .next (s.markerArrival r) else .fault .noSuchUnit

/-! ## REGION_SAVE_COMPLETE (R360, R361, R364) -/

/-- Whether a block is parked on an eret or on a stage-2 answer; one that waits for a collapse, a pull, a remap or its replay is
not (R363). -/
def Bank.parked (b : Bank) : Bool :=
  b.voidTo.isSome && !b.voids.isEmpty && b.voids.all (fun v => match v with | .eret _ _ => true | .answer _ => true | _ => false)

/-- Whether a block has stopped for a save: at a fence, or parked (R359, R363). -/
def Bank.atRest (b : Bank) : Bool := b.parked || (b.stopped && b.voidTo.isNone)

/-- Whether a block lets its region be saved: it does not run, it has stopped and the round of its fence has committed, or none of
its islands can start because the other block has stopped (R359, R363). -/
def Bank.quiet (b other : Bank) : Bool :=
  !b.running || (b.committing.isNone && (b.atRest ||
    (b.voidTo.isNone && b.computing == 0 && other.running && other.atRest && !(b.islands.all Island.started))))

/-- Whether a marker word has still to be consumed: in an edge lane, at the router, or before a stream that goes on (R360). -/
def Region.markersLeft (r : Region) : Bool :=
  let has := fun (l : List QWord) => l.any (fun q => q.w.kind == 4)
  r.edges.any (fun e => has e.2.lane) || has r.loc ||
    (r.bankA.bound ++ r.bankB.bound).any (fun (e : Machine.Bind) =>
      !(kindIn e.kind) && (r.stream e.stream).state == 2 && !((r.stream e.stream).sated) && has (r.boundFifo e.kind e.pos))

/-- A stopped block as it is saved: at the checkpoint of the round it would start next, its streams' read-ahead discarded
(R349, R359). -/
def Region.park1 (r : Region) (bank : Bool) : Region :=
  let b := r.bank bank
  if b.running ∧ b.voidTo.isNone then
    let g := r.voidRounds bank b.computing
    g.setBank bank { g.bank bank with state := b.state }
  else r

/-- The FIFOs of a region without the markers that nothing will consume any more. -/
def Region.noMarkers (r : Region) : Region :=
  { r with memOut := r.memOut.map (fun e => (e.1, e.2.filter (fun q => q.w.kind != 4))) }

/-- The cells of a region as they are saved: an entry that no block in either bank carries is zero (R349, R367).
DEDUCED: a block in a bank is loaded or running; see log entry 132. -/
def Region.carriedOnly (r : Region) : Region :=
  let carries := ((r.bankA.img.map Block.carries).getD []) ++ ((r.bankB.img.map Block.carries).getD [])
  { r with cells := r.cells.map (fun e => (e.1, e.2.carried e.1 carries)), mirrors := r.mirrors.map (fun e => (e.1, e.2.carried e.1 carries)) }

/-- A region as it is saved (R359, R360, R367): a waiting chn.recv is abandoned, to be executed again. -/
def Region.parked (r : Region) : Region := ((r.noMarkers.park1 false).park1 true).abandonRecv.carriedOnly

/-- The blocks of a region without the waits that are over: a block that still waits then waits for an eret or an answer alone, or
for an agent of the device (R353, R363). -/
def State.endWaits (s : State) (r : Nat) : Region :=
  let g := s.reg r
  let rest := fun (b : Bank) => { b with voids := b.voids.filter (fun w => !(s.waitOver r w)) }
  { g with bankA := rest g.bankA, bankB := rest g.bankB }

/-- Whether a region may be saved (R359, R360). -/
def Region.saveReady (r : Region) : Bool :=
  r.marker && r.copies.isEmpty && r.bankA.quiet r.bankB && r.bankB.quiet r.bankA && !r.markersLeft

/-- The miss count of a save, and whether the partition is to be reset for a second miss in a row (R361). -/
def DieGraph.saveOver (d : DieGraph) (late : Bool) : DieGraph × Bool :=
  if late then ({ d with place := .saved, misses := 1, missing := false }, d.misses == 1)
  else ({ d with place := .saved, misses := 0, missing := false, batch := some d.misses }, false)

/-- A die graph whose own save ended in time, on a die of which another record came late: its miss count becomes 1 too (R361). -/
def DieGraph.lateWith (d : DieGraph) (die : Nat) : DieGraph :=
  if d.die = die ∧ d.batch.isSome then { d with misses := 1, batch := none } else d

/-- Whether a die graph that is late with its die has missed for the second time in a row (R361). -/
def DieGraph.secondMiss (d : DieGraph) (die : Nat) : Bool := d.die == die && d.batch == some 1

/-- A die is late: every die graph that it has saved at this tick of the set has missed, and a second miss in a row resets the
partition (R361). -/
def State.lateDie (s : State) (p die : Nat) (second : Bool) : State :=
  let twice := second || ((s.part? p).any (fun v => v.dieGraphs.any (fun e => e.2.2.secondMiss die)))
  let s1 := s.modPart p (fun v => { v with replays := v.replays.map (fun y => { y with dgs := y.dgs.map (fun d => d.lateWith die) }) })
  if twice then s1.fatal p { cause := Cause.saveDeadlineMissed, delivered := Cause.saveDeadlineMissed, region := 255,
                             resume := 0, first := 0, fva := 0 } else s1

/-- Whether every region of a die graph that is being saved has its record or has completed. -/
def DieGraph.allSaved (d : DieGraph) : Bool :=
  d.stages.all (fun g => g.over || g.regions.all (fun r => g.done.contains r || d.savedOn r))

/-- The save deadline: 200 µs from the gang tick, in ticks (R361). -/
def saveDeadline : Nat := 200000

/-- A die graph whose regions are all saved is saved; its die may then switch. Only the save of an owner change has a deadline, and a
late record makes the die late for every die graph that it saves (R361). -/
def State.endSave (s0 : State) (p n i : Nat) : State :=
  match s0.part? p, s0.dg? p n i with
  | some v, some d =>
    match d.place with
    | .saving since =>
      let s := s0.stampSave p
      if d.stages.all StageRec.over then
        let s1 := (s.modDg p n i (fun x => { x with place := .finished })).stampEnd p n
        s1.settle v.set
      else if !d.allSaved then s0
      else
        let late := !d.forSuspend && (d.missing || decide (saveDeadline < s.tick - since))
        let y := if d.forSuspend then ({ d with place := .saved, missing := false }, false) else d.saveOver late
        let s1 := (s.modDg p n i (fun _ => y.1)).meter p d.die (fun c => { c with preempt := c.preempt + 1 })
        let s2 := if late then s1.lateDie p d.die y.2 else s1
        s2.settle v.set
    | _ => s0
  | _, _ => s0

/-- REGION_SAVE_COMPLETE: the region's record is written, and the region is vacated (R360, R364). -/
def State.regionSave (s : State) (r : Nat) : State :=
  match s.dgAt r with
  | none => s
  | some (pl, d) =>
    let g0 := s.endWaits r
    if !(d.isSaving && g0.saveReady) then s
    else
      let g := g0.parked
      let head : RecordHead := { region := r, lane := pl.lane, tick := s.tick, replay := pl.replay, misses := d.misses }
      let cells := g.recordCells head ++ putCut 0x300000 (s.mem.cut (palBase r) (2 ^ 21)) ++ putCut 0x600000 (s.mem.cut (sliceBase r) (2 ^ 21))
      match s.writeRecord (recordWho pl.part r) (pl.save + pl.lane * 0x800000) cells with
      | (s1, .fault _ _) => s1.saveAreaFault pl.part
      | (s1, .held) => s1
      | (s1, .ok ()) =>
        let lane : SavedLane := { region := r, stage := pl.stage, lane := pl.lane, tick := s.tick, img := g,
                                  palette := s.mem.cut (palBase r) (2 ^ 21), vat := s.mem.cut (sliceBase r) (2 ^ 21) }
        ((s1.modDg pl.part pl.replay pl.dg (fun x => { x with saved := x.saved ++ [lane] })).unplace r).endSave pl.part pl.replay pl.dg

/-- The set that a region's stage belongs to. -/
def State.setOf (s : State) (r : Nat) : Option Nat := ((s.owner r).bind s.part?).map Part.set

/-- REGION_SAVE_COMPLETE (R360); a die that has switched gets its decision (R159, R361). -/
def execRegionSaveComplete (r : Nat) (s : State) : Out :=
  if r < 192 then
    match s.setOf r with
    | some k => .next ((s.regionSave r).schedule k)
    | none => .next s
  else .fault .noSuchUnit

/-! ## SAVE_DEADLINE (R361) -/

/-- SAVE_DEADLINE: a save that is still running 200 µs after its gang tick has missed (R361). -/
def State.saveLate (s : State) (p n i : Nat) : State :=
  match s.part? p, s.dg? p n i with
  | some _, some d =>
    match d.place with
    | .saving since =>
      if !d.forSuspend ∧ saveDeadline < s.tick - since then s.modDg p n i (fun x => { x with missing := true }) else s
    | _ => s
  | _, _ => s

/-- SAVE_DEADLINE (R361). -/
def execSaveDeadline (p n dg : Nat) (s : State) : Out := if p < 48 then .next (s.saveLate p n dg) else .fault .noSuchUnit

/-! ## REGION_COMPLETION (R53, R390) -/

/-- Whether a block has sent its done token, or does not run (R53). -/
def Bank.tokenOut (b : Bank) : Bool := !b.running || b.tokenSent

/-- Whether a region's part of its stage is complete (R53). -/
def State.partComplete (s : State) (r : Nat) : Bool :=
  let g := s.reg r
  (match g.seq.run with | .ended => true | _ => false) && (g.seq.handler || g.seq.pending.isEmpty) && g.bankA.tokenOut && g.bankB.tokenOut &&
    g.tokens.isEmpty && g.streams.all (fun e => e.2.state != 2) && !(s.engineBusy r) && !(s.rmwBusy r)

/-- Step 1: every channel end is closed as chn.close does it: a producer writes ended. A hold, or a fault with its cause in the
queue, leaves the rest for later (R311, R312, R390). -/
def State.closeEnds (s : State) (r : Nat) : List ChanEnd → State × Bool
  | [] => (s, true)
  | e :: es =>
    let drop := fun (st : State) => st.modReg r (fun g => { g with chans := g.chans.filter (fun x => x.num != e.num) })
    if !e.producer then (drop s).closeEnds r es
    else match s.chanWrite r e 0x1C 4 1 with
      | (s1, .held) => (s1, false)
      | (s1, .fault _ _) => (drop s1, false)
      | (s1, .ok ()) => (drop s1).closeEnds r es

/-- Step 4: the region reports; a stage whose regions have all reported frees them, and the scheduler decides (R53, R157). -/
def State.report (s : State) (r : Nat) (pl : Placement) : State :=
  let s1 := (s.unplace r).modDg pl.part pl.replay pl.dg (fun (d : DieGraph) =>
    { d with stages := d.stages.map (fun (g : StageRec) => if g.index = pl.stage then { g with done := g.done ++ [r] } else g) })
  match s1.dg? pl.part pl.replay pl.dg with
  | none => s1
  | some d =>
    let fin := d.stages.all StageRec.over
    if d.isSaving then s1.endSave pl.part pl.replay pl.dg
    else if fin then (s1.modDg pl.part pl.replay pl.dg (fun (x : DieGraph) => { x with place := .finished })).stampEnd pl.part pl.replay
    else s1

/-- REGION_COMPLETION (R390). -/
def State.regionCompletion (s : State) (r : Nat) : State :=
  match (s.reg r).place with
  | none => s
  | some pl =>
    if s.partComplete r then
      match s.closeEnds r (s.reg r).chans with
      | (s1, false) => s1
      | (s1, true) => ((s1.report r pl).settle (((s.part? pl.part).map Part.set).getD 48)).schedule (((s.part? pl.part).map Part.set).getD 48)
    else s

/-- REGION_COMPLETION (R390). -/
def execRegionCompletion (r : Nat) (s : State) : Out := if r < 192 then .next (s.regionCompletion r) else .fault .noSuchUnit

end Sys2Proof.Machine
end

