-- ==== Sys2Proof/Machine/Inval.lean ====
section
/-!
DEFINITION. The invalidation sequencer: dropping cached translations and repatching streams (R169, R174), replicas and
collapses (R176 to R178), and pulled frames (R180 to R182, R400).
-/
namespace Sys2Proof.Machine

/-! ## Dropping translations (R169, R174, R178) -/

/-- A stream's extents after some have been dropped: each is looked up afresh, and a fault leaves its slot empty (R171,
R174). -/
def State.repatchStream (s : State) (p : Nat) (hit : Xlate → Bool) (v : Stream) : Stream :=
  { v with extents := (v.extents.filter hit).foldl (fun l x => s.patchExtent p l x.va) (v.extents.filter (fun x => !(hit x))) }

/-- Every translation of a partition that meets a test leaves the caches, and the streams that held one are repatched in
place (R174). -/
def State.repatch (s : State) (p : Nat) (test : Xlate → Bool) : State :=
  let hit := fun (x : Xlate) => x.part == p && test x
  let fix := fun (g : Region) => { g with
    tlb := g.tlb.filter (fun x => !(hit x))
    streams := g.streams.map (fun e => (e.1, s.repatchStream p hit e.2)) }
  ({ s with regs := s.regs.map (fun e => (e.1, fix e.2)) } : State).modPart p (fun v =>
    { v with queues := v.queues.map (fun e => (e.1, { e.2 with extents := e.2.extents.filter (fun x => !(hit x)) })) })

/-- The instruction-cache lines of a partition that lie in a range are invalidated (R174, R191). -/
def State.dropLines (s : State) (p lo hi : Nat) : State :=
  let fix := fun (g : Region) =>
    if g.place.map Placement.part = some p then { g with icache := g.icache.filter (fun l => !(decide (l.va < hi) && decide (lo < l.va + 64))) }
    else g
  { s with regs := s.regs.map (fun e => (e.1, fix e.2)) }

/-- A stage-1 invalidation over a range of VAs (R174). -/
def State.invalidate (s : State) (p lo hi : Nat) : State :=
  (s.repatch p (fun x => decide (x.va < hi) && decide (lo < x.va + x.size))).dropLines p lo hi

/-! ## Replicas and collapses (R176 to R178) -/

/-- The pool frames of a die that are populated, lowest PA first (R176). -/
def State.poolFrames (s : State) (d : Nat) : List Nat :=
  ((List.range 128).flatMap (fun pc => (List.range 16).map (fun j => d * 2 ^ 37 + pc * 2 ^ 30 + 0x3E000000 + j * 2 ^ 21))).filter
    s.populated

/-- The replicas that meet a test go; a replica that leaves a die lets replication be attempted there again (R177). -/
def Pkg.dropReplicas (k : Pkg) (test : Replica → Bool) : Pkg :=
  let gone := k.replicas.filter test
  { k with replicas := k.replicas.filter (fun r => !(test r))
           noReplica := k.noReplica.filter (fun e => !(gone.any (fun r => r.die == e.2))) }

/-- The operation at the head of the invalidation sequencer is over, and the next begins (R175). -/
def State.invDone (s : State) (p : Nat) : State := (s.modPart p (fun v => { v with invq := v.invq.drop 1 })).invStart p

/-- The operations that meet a test leave the invalidation sequencer: what they were to do is not done any more (R175). -/
def State.invDrop (s : State) (p : Nat) (test : InvOp → Bool) : State :=
  (s.modPart p (fun v => { v with invq := v.invq.filter (fun o => !(test o)) })).invStart p

/-- Whether it is an operation's turn: it stands at the head, or nothing does (R175). -/
def Part.invTurn (v : Part) (o : InvOp) : Bool := v.invq.isEmpty || v.invq.head? == some o

/-- An operation whose turn it was is over. -/
def State.invOver (s : State) (p : Nat) (o : InvOp) : State :=
  if ((s.part? p).bind (fun v => v.invq.head?)) = some o then s.invDone p else s

/-- REPLICA_CREATION: the frame's bytes are copied into the lowest free pool frame of the die, or reads go to home; a frame that
has collapsed meanwhile is not replicated (R177 to R179). -/
def State.createReplica (s : State) (p frame d : Nat) : State :=
  if (((s.part? p).map Part.collapsed).getD []).contains frame then s
  else match (s.poolFrames d).find? (fun a => !(s.pkg.replicas.any (fun r => r.pool == a))) with
  | none => s.modPkg (fun k => { k with noReplica := k.noReplica ++ [(frame, d)] })
  | some a =>
    let s1 := (s.modPkg (fun k => { k with replicas := k.replicas ++ [{ part := p, frame := frame, die := d, pool := a }] })).modMem
      (fun m => m.copy frame a (2 ^ 21))
    (s1.countBytes p frame (2 ^ 21)).countBytes p a (2 ^ 21)

/-- REPLICA_CREATION (R177). -/
def State.replicaCreation (s : State) (p : Nat) : State :=
  match (s.part? p).bind (fun v => v.invq.head?) with
  | some (.replica f d _ _) => (s.createReplica p f d).invDone p
  | _ => s

/-- REPLICA_CREATION (R177). -/
def execReplicaCreation (p : Nat) (s : State) : Out := if p < 48 then .next (s.replicaCreation p) else .fault .noSuchUnit

/-- Clears rep in the stage-1 leaf that a write translated through (R178). -/
def State.clearRep (s : State) : Option Nat → State
  | none => s
  | some leaf => s.writePhys leaf 8 (s.readPhys leaf 8 / 32 * 32 + s.readPhys leaf 8 % 16)

/-- Every translation of a frame goes back to home, its replicas go, and it is marked collapsed (R178). -/
def State.toHome (s : State) (p frame : Nat) : State :=
  ((s.modPkg (fun k => k.dropReplicas (fun r => r.part == p && r.frame == frame))).modPart p (fun v =>
    { v with collapsed := natInsert v.collapsed frame })).repatch p (fun x => frameOf x.pa == frame)

/-- The frame of the table that holds a leaf, if it has a replica (R179). -/
def State.tableReplica (s : State) (p : Nat) (leaf : Option Nat) : Option Nat :=
  (leaf.map frameOf).filter (fun f => s.pkg.replicas.any (fun r => r.part == p && r.frame == f))

/-- COLLAPSE: every translation of the frame goes back to home, its replicas go, it is marked, and rep is cleared in the
leaf (R178). DEDUCED (log 128): a table that is replicated itself collapses before its leaf is stored into, since no home copy changes while a
replica stands (R179). -/
def State.collapseFrame (s : State) (p frame : Nat) (leaf : Option Nat) : State :=
  let s1 := match s.tableReplica p leaf with | some f => s.toHome p f | none => s
  let s2 := s1.modPkg (fun k => k.dropReplicas (fun r => r.part == p && r.frame == frame))
  let s3 := (s2.modPart p (fun v => { v with collapsed := natInsert v.collapsed frame })).clearRep leaf
  s3.repatch p (fun x => frameOf x.pa == frame)

/-- COLLAPSE: that of a partition that stands still is dropped; the write that asked for it asks again once it is replayed (R178,
R400, log 99). -/
def State.collapse (s : State) (p : Nat) : State :=
  match (s.part? p).bind (fun v => v.invq.head?) with
  | some (.collapse f l) => if (s.part? p).any Part.still then s.invDone p else (s.collapseFrame p f l).invDone p
  | _ => s

/-- COLLAPSE (R178). -/
def execCollapse (p : Nat) (s : State) : Out := if p < 48 then .next (s.collapse p) else .fault .noSuchUnit

/-! ## Pulled frames (R180 to R182) -/

/-- The physical address of a stage-2 entry. -/
def Part.entryPA (v : Part) (gframe : Nat) : Nat := v.s2 + 8 * gframe

/-- The type of a stage-2 entry (R166). -/
def s2Type (e : Nat) : Nat := e / 2 ^ 62 % 4
/-- The frame that a stage-2 entry names (R166). -/
def s2Frame (e : Nat) : Nat := e / 2 ^ 21 % 2 ^ 31 * 2 ^ 21

/-- The stage-2 entries of a partition, by frame number. -/
def State.s2Entries (s : State) (v : Part) : List (Nat × Nat) := (List.range v.entries).map (fun i => (i, s.readPhys (v.entryPA i) 8))

/-- The lowest type 2 entry whose pull has not failed (R181). -/
def State.nextRemote (s : State) (v : Part) : Option Nat :=
  (List.range v.entries).find? (fun i => s2Type (s.readPhys (v.entryPA i) 8) == 2 && !(v.failedPulls.contains i))

/-- A migration has ended at its destination when no type 2 entry remains (R181). -/
def State.checkMigrated (s : State) (p : Nat) : State :=
  match s.part? p with
  | none => s
  | some v =>
    if v.state = .migratingIn ∧ (List.range v.entries).all (fun i => s2Type (s.readPhys (v.entryPA i) 8) != 2) then
      s.setPart p { v with state := .ready }
    else s

/-- The bytes of a pulled frame reach the local frame, and its entry becomes type 1 (R180). -/
def State.fillFrame (s : State) (p : Nat) (v : Part) (gframe : Nat) (data : List Byte) : State :=
  let e := s.readPhys (v.entryPA gframe) 8
  if s2Type e = 2 then
    let pa := s2Frame e
    let s1 := (s.modMem (fun m => (m.scrub pa (2 ^ 21)).writeN pa (data.take (2 ^ 21)))).writePhys (v.entryPA gframe) 8 (e - 2 ^ 62)
    ((s1.countBytes p pa (2 ^ 21)).meter p (pa / 2 ^ 37 % 4) (fun c => { c with fabric := c.fabric + BitVec.ofNat 64 (2 ^ 21) })).checkMigrated p
  else s

/-- REMOTE_PAGE: the pull at the head of the invalidation sequencer returns within 10 ms of being sent (R180, R182). -/
def State.remotePageArrives (s : State) (p : Nat) (data : List Byte) : State :=
  match s.part? p with
  | none => s
  | some v =>
    match v.invq.head? with
    | some (.pull g (some t)) =>
      if s.tick - t < 10 * ticksPerMs then ((s.setPart p (v.claimPull g)).fillFrame p v g data).invDone p else s
    | _ => s

/-- REMOTE_PAGE (R180). -/
def execRemotePage (p : Nat) (data : List Byte) (s : State) : Out :=
  if p < 48 then .next (s.remotePageArrives p data) else .fault .noSuchUnit

/-- Sends a pull that no access asked for: it takes its place in the invalidation sequencer, which nothing holds (R175, R181). -/
def State.sendPull (s : State) (p : Nat) (v : Part) (gframe : Nat) : State :=
  match v.migration with
  | some m => (s.setPart p { v with pulling := some (gframe, s.tick), invq := [.pull gframe (some s.tick)] }).emit (.pull m.peer m.session gframe)
  | none => s

/-- A pull that no access asked for has failed and left the invalidation sequencer: its entry stays at type 2, and it is reported under
R167 in the name of XD, with no VA and the frame's first address as GPA, once fewer than 64 faults are unanswered (R167, R182, log 98). -/
def State.reportPull (s : State) (p : Nat) (v : Part) (g : Nat) : State :=
  if 64 ≤ (v.faults.filter (fun f => f.answer == .pending)).length then s
  else
    let f : FaultRec := { num := v.nextFault, cause := Cause.remotePage.toNat, level := 255, access := 0, va := 0, gpa := 2 ^ 21 * g
                          region := 255, unit := 0xFD, tick := s.tick, bg := true }
    let s1 := s.setPart p { v with faults := v.faults ++ [f], nextFault := v.nextFault + 1, failedPulls := natInsert v.failedPulls g, pulling := none }
    (s1.ringWrite p (faultBytes f 0 0 0)).emit (.interrupt (2048 + p))

/-- The report of a failed pull that no access asked for, if one is still to be made. -/
def State.reportPulls (s : State) (p : Nat) : State :=
  match s.part? p with
  | none => s
  | some v => if v.backPull.isEmpty then match v.pulling with | some (g, _) => s.reportPull p v g | none => s else s

/-- REMOTE_PULL_TIMEOUT: a pull that the source refuses (free, log 13), or that has returned nothing within 10 ms of being sent,
leaves its entry at type 2: one that an access waits for, which then meets a stage-2 fault, or one that no access asked for, which is
reported (R181, R182). -/
def State.pullTimeout (s : State) (p : Nat) : State :=
  match (s.part? p).bind (fun v => v.invq.head?) with
  | some (.pull g (some t)) =>
    if 10 * ticksPerMs ≤ s.tick - t ∨ Config.freeBool s.steps g then
      ((s.modPart p (fun v => { v with failedPulls := natInsert v.failedPulls g })).invDone p).reportPulls p
    else s.reportPulls p
  | _ => s.reportPulls p

/-- REMOTE_PULL_TIMEOUT (R182). -/
def execRemotePullTimeout (p : Nat) (s : State) : Out := if p < 48 then .next (s.pullTimeout p) else .fault .noSuchUnit

/-- REMAINING_FRAME_PULL: with nothing waiting, the lowest frame still remote is pulled; at a later turn its bytes arrive, within 10 ms
of the sending (R175, R180 to R182). -/
def State.remainingPull (s : State) (p : Nat) (data : List Byte) : State :=
  match s.part? p with
  | none => s
  | some v =>
    match v.pulling with
    | some _ => if v.backPull.isEmpty then s else s.remotePageArrives p data
    | none =>
      if v.state = .migratingIn ∧ v.invq.isEmpty ∧ v.forming.isNone then
        match s.nextRemote v with
        | some g => s.sendPull p v g
        | none => s
      else s

/-- REMAINING_FRAME_PULL (R181). -/
def execRemainingFramePull (p : Nat) (data : List Byte) (s : State) : Out :=
  if p < 48 then .next (s.remainingPull p data) else .fault .noSuchUnit

/-! ## Commands that do not go on (R135) -/

/-- A partition whose create has been given up is gone: its number, its place in the set and its keys are free again, and what was
pulled for it stands under keys that no longer exist (R143, R148). -/
def State.unform (s : State) (p : Nat) (v : Part) : State :=
  let frames := ((s.s2Entries v).filter (fun e => s2Type e.2 == 1 && !(isHost (s2Frame e.2)))).map (fun e => s2Frame e.2)
  let s1 := frames.foldl (fun (st : State) (f : Nat) => st.modMem (fun m => m.kill f (2 ^ 21) st.steps)) s
  ({ s1 with
    parts := spErase s1.parts p
    sets := (s1.sets.map (fun e => (e.1, { e.2 with members := e.2.members.filter (fun q => q != p) }))).filter (fun e => !e.2.members.isEmpty) } : State).modPkg
    (fun k => { k with keySlots := k.keySlots.filter (fun e => e.1 != v.keyBase) })

/-- The create that waits for a pull is given up. -/
def State.dropForming (s : State) : State :=
  (s.parts.filter (fun e => e.2.forming.isSome)).foldl (fun (st : State) (e : Nat × Part) => st.unform e.1 e.2) s

/-- S2.UPDATE commands that have not begun leave the invalidation sequencers, and a create that waits for a pull is given up (R135,
R175, R180). -/
def State.dropUpdates (s : State) : State :=
  s.dropForming.parts.foldl (fun (st : State) (e : Nat × Part) =>
    if e.2.invq.contains .update then st.invDrop e.1 (· == .update) else st) s.dropForming

/-! ## The frames that a source serves (R400) -/

/-- PULL_SERVE: a source in state 2 answers a pull of its session with the frame, and refuses any other (R395, R400). -/
def State.pullServe (s : State) (p frame : Nat) (session : BitVec 128) : State :=
  let refuse := s.emit (.page frame none)
  match s.part? p with
  | none => refuse
  | some v =>
    if v.state = .migratingOut ∧ v.migration.map Migration.session = some session then
      match s.stage2 v (frame * 2 ^ 21) with
      | .ok pa _ _ _ _ =>
        let s1 := s.emit (.page frame (some (s.mem.image pa (2 ^ 21))))
        (s1.countBytes p pa (2 ^ 21)).meter p (pa / 2 ^ 37 % 4) (fun c => { c with fabric := c.fabric + BitVec.ofNat 64 (2 ^ 21) })
      | _ => refuse
    else refuse

/-- PULL_SERVE (R400). -/
def execPullServe (p frame : Nat) (session : BitVec 128) (s : State) : Out :=
  if p < 48 then .next (s.pullServe p frame session) else .fault .noSuchUnit

end Sys2Proof.Machine
end

