-- ==== Sys2Proof/Machine/Queues.lean ====
section
/-!
DEFINITION. Host queues: the watched header (R128 to R130), the packets (R131 to R134), and the command processor (R134).
-/
namespace Sys2Proof.Machine

/-! ## A queue and its memory -/

/-- XD and the command processor as a party of a partition (R168). -/
def xdWho (p : Nat) : Who := outsideWho p 0xFD

/-- A host queue of a partition. -/
def State.queue? (s : State) (p q : Nat) : Option HQueue := (s.part? p).bind (fun v => spFind v.queues q)
/-- Changes a host queue. -/
def State.modQueue (s : State) (p q : Nat) (f : HQueue → HQueue) : State :=
  s.modPart p (fun v => match spFind v.queues q with
    | some h => { v with queues := spInsert v.queues q (f h) }
    | none => v)
/-- The packet slots of a queue (R129). -/
def HQueue.slots (h : HQueue) : Nat := 2 ^ h.log2 / 64
/-- Where the packet with an index lies (R129). -/
def HQueue.packetVA (h : HQueue) (i : Nat) : Nat := h.va + 0x40 + 64 * (i % h.slots)

/-- The physical address of a byte of a queue, through its extents (R139). -/
def State.queueReach (s : State) (p : Nat) (h : HQueue) (va : Nat) (kind : AKind) : State × Got Nat :=
  match findXlate h.extents p va with
  | some x => s.useXlate (xdWho p) x va kind
  | none => s.reach (xdWho p) va kind

/-- Reads bytes of a queue within one page. -/
def State.queueRead (s : State) (p : Nat) (h : HQueue) (va n : Nat) : State × Got (List Byte) :=
  match s.queueReach p h va .read with
  | (s1, .ok pa) =>
    match s1.physFault pa n .read with
    | some c => (s1, .fault c va)
    | none => (s1.countBytes p pa n, .ok (s1.mem.readN n pa))
  | (s1, .fault c a) => (s1, .fault c a)
  | (s1, .held) => (s1, .held)

/-- Writes a field of the header. -/
def State.queueWrite (s : State) (p : Nat) (h : HQueue) (off n v : Nat) : State × Got Unit :=
  let va := h.va + off
  if (match s.part? p with | some u => inWindow u va n | none => false) then (s, .fault Cause.foldForeignWrite va)
  else match s.queueReach p h va .write with
    | (s1, .ok pa) =>
      match s1.physFault pa n .write with
      | some c => (s1, .fault c va)
      | none => ((s1.countBytes p pa n).writePhys pa n v, .ok ())
    | (s1, .fault c a) => (s1, .fault c a)
    | (s1, .held) => (s1, .held)

/-- A read of any length, in pieces that do not cross 64 bytes; `f` bounds the pieces. -/
def State.readLong (s : State) (w : Who) : Nat → Nat → Nat → State × Got (List Byte)
  | 0, _, _ => (s, .ok [])
  | f + 1, va, n =>
    if n = 0 then (s, .ok [])
    else
      let m := Nat.min n (64 - va % 64)
      match s.readVA w va m with
      | (s1, .ok bs) =>
        match s1.readLong w f (va + m) (n - m) with
        | (s2, .ok cs) => (s2, .ok (bs ++ cs))
        | r => r
      | r => r

/-! ## Stopping a queue, and the writes to its header (R129, R130) -/

/-- The fields of the header that the device always writes as zero (R6, R129). -/
def zeroWrites : List (Nat × Nat × Nat) := [(0x1C, 4, 0), (0x38, 8, 0)]

/-- The writes of a stop, in their order (R129, R130). -/
def stopWrites (cons idx : Nat) (c : BitVec 9) : List (Nat × Nat × Nat) :=
  [(0x28, 8, cons), (0x30, 8, idx)] ++ zeroWrites ++ [(0x18, 4, c.toNat), (0x14, 4, 1)]

/-- The writes at registration, after which the header shows a running queue without a cause and without a passed gate (R129,
log 100). -/
def regWrites : List (Nat × Nat × Nat) := [(0x18, 4, 0), (0x20, 8, 0)] ++ zeroWrites ++ [(0x14, 4, 0)]

/-- Whether an operation of the invalidation sequencer is the INVAL of a queue (R175). -/
def InvOp.isInval (q : Nat) : InvOp → Bool
  | .inval k _ _ => k == q
  | _ => false

/-- A queue stops: nothing more is parsed, and an HCOPY or INVAL that its packet waits for ends (R130, R134). -/
def State.markStopped (s : State) (p q : Nat) (c : BitVec 9) (idx : Nat) : State :=
  ((s.invDrop p (InvOp.isInval q)).modQueue p q (fun h => { h with stopped := true, wait := .none, owed := stopWrites h.cons idx c })).modPart p (fun v =>
    { v with jobs := v.jobs.filter (fun j => !(j.queue == q && j.wait)) })

/-- Makes the writes that a queue owes to its header: a stage-2 fault holds them, another fault stops the queue, and the
writes of a stop that fault are lost (R129). -/
def State.flushQueue (s : State) (p q : Nat) : Nat → State
  | 0 => s
  | f + 1 =>
    match s.queue? p q with
    | none => s
    | some h =>
      match h.owed with
      | [] => s
      | (off, n, v) :: rest =>
        match s.queueWrite p h off n v with
        | (s1, .held) => s1
        | (s1, .ok ()) => (s1.modQueue p q (fun g => { g with owed := rest })).flushQueue p q f
        | (s1, .fault c _) =>
          if h.stopped then (s1.modQueue p q (fun g => { g with owed := rest })).flushQueue p q f
          else (s1.markStopped p q c h.cons).flushQueue p q f

/-- The header takes writes, after those still owed. -/
def State.queuePut (s : State) (p q : Nat) (l : List (Nat × Nat × Nat)) : State :=
  (s.modQueue p q (fun h => { h with owed := h.owed ++ l })).flushQueue p q 16

/-- A queue stops with a cause, at a packet (R130). -/
def State.queueStop (s : State) (p q : Nat) (c : BitVec 9) (idx : Nat) : State :=
  match s.queue? p q with
  | none => s
  | some h => if h.stopped then s else (s.markStopped p q c idx).flushQueue p q 16

/-- The packet at cons has been parsed: the own cons moves, then the header's; in a queue that has stopped nothing is parsed (R129,
R130). -/
def State.parsed (s : State) (p q : Nat) : State :=
  match s.queue? p q with
  | none => s
  | some h => if h.stopped then s else (s.modQueue p q (fun g => { g with cons := h.cons + 1, wait := .none })).queuePut p q [(8, 8, h.cons + 1)]

/-! ## HEADER_LINE_CHANGE (R130) -/

/-- The checks of R130 against the own cons and the last prod read. -/
def prodOk (prod last cons slots log2 reg : Nat) : Bool :=
  decide (last ≤ prod) && decide (cons ≤ prod) && decide (prod - cons ≤ slots) && log2 == reg

/-- XD reads prod and log2size of a host queue (R130). -/
def State.hostLine (s : State) (p q : Nat) : State :=
  match s.part? p, s.queue? p q with
  | some v, some h =>
    if v.state == .resetting || h.stopped then s
    else if !h.owed.isEmpty then s.flushQueue p q 16
    else match s.queueRead p h h.va 64 with
      | (s1, .fault c _) => s1.queueStop p q c h.cons
      | (s1, .held) => s1
      | (s1, .ok bs) =>
        if prodOk (numAt bs 0 8) h.prod h.cons h.slots (numAt bs 0x10 4) h.log2 then
          s1.modQueue p q (fun g => { g with prod := numAt bs 0 8 })
        else s1.queueStop p q Cause.queueCorrupt h.cons
  | _, _ => s

/-- What stands against a write to the header of the CFW queue: a host refusal (R127, R129, R135). -/
def State.cfwBars (s : State) (c : CfwQueue) (w : Nat × Nat × Nat) : Option (BitVec 9) := s.physFault (hostBase + c.pa + w.1) w.2.1 .write

/-- Writes to the header of the CFW queue, of which those that fault are lost (R129, R135). -/
def State.cfwTry (s : State) (c : CfwQueue) (l : List (Nat × Nat × Nat)) : State :=
  l.foldl (fun (st : State) (w : Nat × Nat × Nat) =>
    if (st.cfwBars c w).isSome then st else st.writePhys (hostBase + c.pa + w.1) w.2.1 w.2.2) s

/-- The stop of the CFW queue: the writes of R130 at host physical addresses; those that fault are lost (R129, R135). -/
def State.cfwStop (s : State) (c : CfwQueue) (cause : BitVec 9) : State :=
  ((s.cfwTry c (stopWrites c.cons c.cons cause)).modPkg (fun k => { k with cfw := some { c with stopped := true } })).dropUpdates

/-- Writes to the header of a running CFW queue: one that faults stops the queue with its cause (R129, R135). -/
def State.cfwPut (s : State) (c : CfwQueue) : List (Nat × Nat × Nat) → State
  | [] => s
  | w :: ws =>
    match s.cfwBars c w with
    | some cause => s.cfwStop c cause
    | none => (s.writePhys (hostBase + c.pa + w.1) w.2.1 w.2.2).cfwPut c ws

/-- The CFW reads prod and log2size of its queue (R130, R135); poisoned bytes read as they stand (DEDUCED, log 64). -/
def State.cfwLine (s : State) : State :=
  match s.pkg.cfw with
  | none => s
  | some c =>
    if c.stopped then s
    else
      let prod := s.readPhys (hostBase + c.pa) 8
      if prodOk prod c.prod c.cons (2 ^ c.log2 / 64) (s.readPhys (hostBase + c.pa + 0x10) 4) c.log2 then
        s.modPkg (fun k => { k with cfw := some { c with prod := prod } })
      else s.cfwStop c Cause.queueCorrupt

/-- HEADER_LINE_CHANGE (R130). -/
def execHeaderLineChange (q : QueueName) (s : State) : Out :=
  match q with
  | .cfw => .next s.cfwLine
  | .host p q => if p < 48 ∧ q < 16 then .next (s.hostLine p q) else .fault .noSuchUnit

/-! ## Packets (R131, R132) -/

/-- Whether the fields of a packet meet R132; offset + length of a PATCH is checked with its graph object. -/
def packetOk (bs : List Byte) : Bool :=
  let flags := numAt bs 1 1
  let n8 := fun (o : Nat) => numAt bs o 8
  zeroAt bs 2 6 && match numAt bs 0 1 with
    | 0 => flags == 0 && zeroAt bs 8 56
    | 1 => flags == 0 && aligned 256 (n8 8) && aligned 64 (n8 0x10) && zeroAt bs 0x18 40
    | 2 => flags == 0 && aligned 8 (n8 8) && decide (1 ≤ numAt bs 0x10 1) && decide (numAt bs 0x10 1 ≤ 12) && zeroAt bs 0x11 3 &&
        zeroAt bs 0x18 40
    | 3 => decide (flags ≤ 1) && aligned 256 (n8 8) && decide (1 ≤ numAt bs 0x14 4) &&
        (if flags = 1 then decide (numAt bs 0x14 4 ≤ 65536) && zeroAt bs 0x20 32 else decide (numAt bs 0x14 4 ≤ 40))
    | 4 => flags == 0 && aligned 4096 (n8 8) && decide (n8 8 + 4096 * numAt bs 0x10 4 ≤ 2 ^ 48) && zeroAt bs 0x14 44
    | 5 => decide (flags ≤ 1) && decide (1 ≤ n8 0x18) && decide (n8 0x18 ≤ 2 ^ 32) && zeroAt bs 0x28 24
    | 6 => decide (flags ≤ 7) && aligned 8 (n8 8) && decide (numAt bs 0x18 2 ≤ 2047) && zeroAt bs 0x1A 38
    | _ => false

/-- Whether a queue waits for the end of a packet that has begun to parse. -/
def HQueue.waits (h : HQueue) : Bool := match h.wait with | .none => false | _ => true

/-- XD reads the packet at cons, if the queue may parse one; a fault of that read stops the queue (R131, R132). -/
def State.withPacket (s : State) (p q : Nat) (f : State → HQueue → List Byte → State) : State :=
  match s.part? p, s.queue? p q with
  | some v, some h =>
    if !h.owed.isEmpty then s.flushQueue p q 16
    else if !v.runs || h.stopped || h.waits || decide (h.prod ≤ h.cons) then s
    else match s.queueRead p h (h.packetVA h.cons) 64 with
      | (s1, .fault c _) => s1.queueStop p q c h.cons
      | (s1, .held) => s1
      | (s1, .ok bs) => f s1 h bs
  | _, _ => s

/-- A packet of one type that meets R132. -/
def State.packet (s : State) (p q ty : Nat) (f : State → HQueue → List Byte → State) : State :=
  s.withPacket p q (fun s1 h bs => if numAt bs 0 1 = ty ∧ packetOk bs then f s1 h bs else s)

/-- A fault while a packet is parsed stops its queue at the packet; a hold leaves it (R132). -/
def State.packetGot {α : Type} (y : State × Got α) (p q idx : Nat) (f : State → α → State) : State :=
  match y with
  | (s1, .ok a) => f s1 a
  | (s1, .fault c _) => s1.queueStop p q c idx
  | (s1, .held) => s1

/-- PACKET_MALFORMED (R132). -/
def execPacketMalformed (p q : Nat) (s : State) : Out :=
  if p < 48 ∧ q < 16 then
    .next (s.withPacket p q (fun s1 h bs => if packetOk bs then s else s1.queueStop p q Cause.packetMalformed h.cons))
  else .fault .noSuchUnit

/-- NOP_PACKET (R132). -/
def execNopPacket (p q : Nat) (s : State) : Out :=
  if p < 48 ∧ q < 16 then .next (s.packet p q 0 (fun s1 _ _ => s1.parsed p q)) else .fault .noSuchUnit

/-- LAUNCH: the replay is accepted and its frame written, at the queue's priority (R55, R56, R132). -/
def State.launchPacket (s : State) (p q : Nat) (h : HQueue) (bs : List Byte) : State :=
  match s.part? p with
  | none => s
  | some v =>
    let f := numAt bs 0x10 8
    State.packetGot (s.writeAccepted (xdWho p) f v.counter) p q h.cons (fun s1 _ =>
      (s1.modPart p (fun u => u.accept (.host q) h.prio (numAt bs 8 8) f)).parsed p q)

/-- LAUNCH_PACKET (R132). -/
def execLaunchPacket (p q : Nat) (s : State) : Out :=
  if p < 48 ∧ q < 16 then .next (s.packet p q 1 (fun s1 h bs => s1.launchPacket p q h bs)) else .fault .noSuchUnit

/-! ### GATE (R133) -/

/-- Whether an entry of a gate table is well formed. -/
def gateEntryOk (bs : List Byte) : Bool := aligned 8 (numAt bs 0 8) && decide (numAt bs 0x10 1 ≤ 1) && zeroAt bs 0x11 7

/-- GATE at parse: its table is read once (R133). -/
def State.gatePacket (s : State) (p q : Nat) (h : HQueue) (bs : List Byte) : State :=
  let n := numAt bs 0x10 1
  State.packetGot (s.readLong (xdWho p) 16 (numAt bs 8 8) (24 * n)) p q h.cons (fun s1 t =>
    let es := (List.range n).map (fun i => (t.drop (24 * i)).take 24)
    if es.all gateEntryOk then
      s1.modQueue p q (fun g => { g with wait := .gate h.cons (es.map (fun e => (numAt e 0 8, numAt e 8 8, numAt e 0x10 1))) (numAt bs 0x14 4) s1.tick })
    else s1.queueStop p q Cause.packetMalformed h.cons)

/-- GATE (R133). -/
def execGate (p q : Nat) (s : State) : Out :=
  if p < 48 ∧ q < 16 then .next (s.packet p q 2 (fun s1 h bs => s1.gatePacket p q h bs)) else .fault .noSuchUnit

/-- Reads every counter of a gate: whether every condition is true (R133). -/
def State.gateTrue (s : State) (p : Nat) : List (Nat × Nat × Nat) → State × Got Bool
  | [] => (s, .ok true)
  | (va, val, cond) :: es =>
    match s.readNum (xdWho p) va 8 with
    | (s1, .ok x) =>
      match s1.gateTrue p es with
      | (s2, .ok b) => (s2, .ok ((if cond = 0 then decide (val ≤ x) else x == val) && b))
      | y => y
    | (s1, .fault c a) => (s1, .fault c a)
    | (s1, .held) => (s1, .held)

/-- A gate that has passed is parsed once gatedone stands in the header: a hold of that write holds the parsing, and a fault has
stopped the queue (R129, R133). -/
def State.gateOver (s : State) (p q : Nat) : State :=
  match s.queue? p q with
  | none => s
  | some h => if h.owed.isEmpty then s.parsed p q else s

/-- Whether the timeout of a gate, in microseconds from its parse, has elapsed (R133). -/
def gateElapsed (now timeout since : Nat) : Bool := timeout != 0 && decide (1000 * timeout ≤ now - since)

/-- GATE_EVALUATION: the gate passes when it finds every condition true before its timeout (R133). -/
def State.gateEvaluation (s : State) (p q : Nat) : State :=
  match s.part? p, s.queue? p q with
  | some v, some h =>
    match h.wait with
      | .gate idx es timeout since =>
        if !v.runs then s.flushQueue p q 16
        else if h.gatedone = idx + 1 then (s.flushQueue p q 16).gateOver p q
        else if !h.owed.isEmpty then s.flushQueue p q 16
        else if gateElapsed s.tick timeout since then s.queueStop p q Cause.gateTimeout idx
        else State.packetGot (s.gateTrue p es) p q idx (fun s1 ok =>
          if ok then ((s1.modQueue p q (fun g => { g with gatedone := idx + 1 })).queuePut p q [(0x20, 8, idx + 1)]).gateOver p q else s1)
      | _ => if h.owed.isEmpty then s else s.flushQueue p q 16
  | _, _ => s

/-- GATE_EVALUATION (R133). -/
def execGateEvaluation (p q : Nat) (s : State) : Out :=
  if p < 48 ∧ q < 16 then .next (s.gateEvaluation p q) else .fault .noSuchUnit

/-- GATE_TIMEOUT: the timeout has elapsed from parse with no passing evaluation (R133). -/
def State.gateTimeout (s : State) (p q : Nat) : State :=
  match s.part? p, s.queue? p q with
  | some v, some h =>
    match h.wait with
    | .gate idx _ timeout since =>
      if v.runs ∧ h.gatedone ≠ idx + 1 ∧ gateElapsed s.tick timeout since then s.queueStop p q Cause.gateTimeout idx else s
    | _ => s
  | _, _ => s

/-- GATE_TIMEOUT (R133). -/
def execGateTimeout (p q : Nat) (s : State) : Out := if p < 48 ∧ q < 16 then .next (s.gateTimeout p q) else .fault .noSuchUnit

/-! ### PATCH and INVAL (R132, R174) -/

/-- PATCH: its bytes reach the parameter block of the graph object together, so that a replay begins before all of them or after (R55, R57,
R132). DEDUCED (log 51): a fault of one of them leaves the block as it was. -/
def State.patchPacket (s : State) (p q : Nat) (h : HQueue) (bs : List Byte) : State :=
  let off := numAt bs 0x10 4
  let len := numAt bs 0x14 4
  let w := xdWho p
  State.packetGot (s.readVA w (numAt bs 8 8) 64) p q h.cons (fun s1 g =>
    if numAt g 0x18 4 < off + len then s1.queueStop p q Cause.packetMalformed h.cons
    else
      let data := if numAt bs 1 1 = 1 then s1.readLong w 1026 (numAt bs 0x18 8) len else (s1, .ok ((bs.drop 0x18).take len))
      State.packetGot data p q h.cons (fun s2 d =>
        State.packetGot (s2.writeWhole w (numAt g 0x10 8 + off) d) p q h.cons (fun s3 _ => s3.parsed p q)))

/-- PATCH (R132). -/
def execPatch (p q : Nat) (s : State) : Out :=
  if p < 48 ∧ q < 16 then .next (s.packet p q 3 (fun s1 h bs => s1.patchPacket p q h bs)) else .fault .noSuchUnit

/-- Whether the invalidation sequencer of a partition is free (R175). -/
def State.invFree (s : State) (p : Nat) : Bool := (s.part? p).any (fun v => v.invq.isEmpty)

/-- The range of VAs that an INVAL packet names (R132). -/
def invalRange (bs : List Byte) : Nat × Nat :=
  if numAt bs 0x10 4 = 0 then (0, 2 ^ 48) else (numAt bs 8 8, numAt bs 8 8 + 4096 * numAt bs 0x10 4)

/-- INVAL at parse (R174): if other operations have arrived before it, it takes its place behind them (R175). -/
def State.invalPacket (s : State) (p q : Nat) (h : HQueue) (bs : List Byte) : State :=
  let x := invalRange bs
  if s.invFree p then (s.invalidate p x.1 x.2).parsed p q
  else (s.invQueue p (.inval q x.1 x.2)).modQueue p q (fun g => { g with wait := .inval h.cons })

/-- An INVAL whose turn has come (R174, R175). -/
def State.invalTurn (s : State) (p q : Nat) : State :=
  match s.part? p, s.queue? p q with
  | some v, some h =>
    match h.wait, v.invq.head? with
    | .inval _, some (.inval k lo hi) => if k = q ∧ v.runs then ((s.invalidate p lo hi).invDone p).parsed p q else s
    | _, _ => s
  | _, _ => s

/-- INVAL (R174): the packet at cons, or the one whose turn has come. -/
def execInval (p q : Nat) (s : State) : Out :=
  if p < 48 ∧ q < 16 then
    .next (match (s.queue? p q).map HQueue.wait with
      | some (.inval _) => s.invalTurn p q
      | _ => s.packet p q 4 (fun s1 h bs => s1.invalPacket p q h bs))
  else .fault .noSuchUnit

/-! ### HCOPY and SIGNAL (R134) -/

/-- Whether a copy still owes a counter update that goes before every later one: its packet has been parsed (R134). -/
def HJob.owes (j : HJob) : Bool := !j.wait && j.ctr != 0

/-- Whether the counter updates of packets parsed before have all been made: those of jobs numbered below `n`, but for the jobs
of partitions that stand still, whose updates come when they go on (R134, log 99). -/
def State.updatesDone (s : State) (n : Nat) : Bool :=
  s.parts.all (fun e => !e.2.runs || e.2.jobs.all (fun j => !(j.owes && decide (j.num < n))))

/-- HCOPY: the copy enters the XD copy engine; without wait that completes its parsing (R132, R134). -/
def State.hcopyPacket (s : State) (p q : Nat) (h : HQueue) (bs : List Byte) : State :=
  let wait := numAt bs 1 1 == 1
  let n := s.pkg.msgCount
  let j : HJob := { num := n, queue := q, idx := h.cons, src := numAt bs 8 8, dst := numAt bs 0x10 8, len := numAt bs 0x18 8,
                    ctr := numAt bs 0x20 8, wait := wait }
  let s1 := (s.modPart p (fun v => { v with jobs := v.jobs ++ [j] })).modPkg (fun k => { k with msgCount := n + 1 })
  if wait then s1.modQueue p q (fun g => { g with wait := .hcopy h.cons }) else s1.parsed p q

/-- HCOPY (R134). -/
def execHcopy (p q : Nat) (s : State) : Out :=
  if p < 48 ∧ q < 16 then .next (s.packet p q 5 (fun s1 h bs => s1.hcopyPacket p q h bs)) else .fault .noSuchUnit

/-- A counter takes a value, or adds one, modulo 2^64. -/
def State.updateCounter (s : State) (p va val : Nat) (add : Bool) : State × Got Unit :=
  if add then
    match s.readNum (xdWho p) va 8 with
    | (s1, .ok x) => s1.writeNum (xdWho p) va 8 ((x + val) % 2 ^ 64)
    | (s1, .fault c a) => (s1, .fault c a)
    | (s1, .held) => (s1, .held)
  else s.writeNum (xdWho p) va 8 val

/-- The command processor performs a SIGNAL: the counter write, then the interrupt (R134). -/
def State.performSignal (s : State) (p q idx ctr val : Nat) (add : Bool) (vec : Option Nat) : State :=
  if s.updatesDone s.pkg.msgCount then
    State.packetGot (s.updateCounter p ctr val add) p q idx (fun s1 _ =>
      (match vec with | some n => s1.emit (.interrupt n) | none => s1).parsed p q)
  else s

/-- SIGNAL: at once, or after the replays accepted earlier from its queue (R134). -/
def State.signalPacket (s : State) (p q : Nat) (h : HQueue) (bs : List Byte) : State :=
  let fl := numAt bs 1 1
  let vec := if fl.testBit 2 then some (numAt bs 0x18 2) else none
  let before := match s.part? p with
    | some v => (v.replays.filter (fun y => y.src == .host q)).map Replay.num
    | none => []
  if fl.testBit 1 then
    s.modQueue p q (fun g => { g with wait := .signal h.cons (numAt bs 8 8) (numAt bs 0x10 8) (fl.testBit 0) vec before })
  else s.performSignal p q h.cons (numAt bs 8 8) (numAt bs 0x10 8) (fl.testBit 0) vec

/-- SIGNAL (R134). -/
def execSignal (p q : Nat) (s : State) : Out :=
  if p < 48 ∧ q < 16 then .next (s.packet p q 6 (fun s1 h bs => s1.signalPacket p q h bs)) else .fault .noSuchUnit

/-- SIGNAL_AFTER_REPLAYS: the replays that a SIGNAL waits for have ended (R134). -/
def State.signalAfter (s : State) (p q : Nat) : State :=
  match s.part? p, s.queue? p q with
  | some v, some h =>
    if !h.owed.isEmpty then s.flushQueue p q 16
    else match h.wait with
      | .signal idx ctr val add vec before =>
        if v.runs ∧ v.replays.all (fun y => !(before.contains y.num)) then s.performSignal p q idx ctr val add vec else s
      | _ => s
  | _, _ => s

/-- SIGNAL_AFTER_REPLAYS (R134). -/
def execSignalAfterReplays (p q : Nat) (s : State) : Out :=
  if p < 48 ∧ q < 16 then .next (s.signalAfter p q) else .fault .noSuchUnit

/-! ### The XD copy engine (R134) -/

/-- The 32-byte sectors of a copy's destination. -/
def HJob.sectors (j : HJob) : Nat := (j.dst % 32 + j.len + 31) / 32
/-- The first byte of a sector that the copy writes. -/
def HJob.lo (j : HJob) (k : Nat) : Nat := Nat.max j.dst (j.dst / 32 * 32 + 32 * k)
/-- One past its last byte. -/
def HJob.hi (j : HJob) (k : Nat) : Nat := Nat.min (j.dst + j.len) (j.dst / 32 * 32 + 32 * k + 32)

/-- Removes a copy from the XD copy engine. -/
def State.dropJob (s : State) (p : Nat) (j : HJob) : State :=
  s.modPart p (fun v => { v with jobs := v.jobs.filter (fun x => x.num != j.num) })

/-- A copy that faults stops its queue, at its own packet (R132, R134). -/
def State.jobFault (s : State) (p : Nat) (j : HJob) (c : BitVec 9) : State := (s.dropJob p j).queueStop p j.queue c j.idx

/-- An access of a copy is held; a stage-2 fault that it raised pauses the whole copy (R167). -/
def State.jobHeld (s s1 : State) (p : Nat) (j : HJob) : State :=
  match s.raised s1 p with
  | some n => s1.modPart p (fun v => { v with jobs := v.jobs.map (fun x => if x.num = j.num then { x with fault := some n } else x) })
  | none => s1

/-- One sector of a copy. -/
def State.jobSector (s : State) (p : Nat) (j : HJob) (k : Nat) : State :=
  let lo := j.lo k
  match s.readVA (xdWho p) (j.src + (lo - j.dst)) (j.hi k - lo) with
  | (s1, .fault c _) => s1.jobFault p j c
  | (s1, .held) => s.jobHeld s1 p j
  | (s1, .ok bs) =>
    match s1.writeVA (xdWho p) lo bs with
    | (s2, .fault c _) => s2.jobFault p j c
    | (s2, .held) => s1.jobHeld s2 p j
    | (s2, .ok ()) =>
      s2.modPart p (fun v => { v with jobs := v.jobs.map (fun x => if x.num = j.num then { x with done := natInsert x.done k, fault := none } else x) })

/-- The end of a copy: its counter, and the parsing of a packet that waits (R134). -/
def State.jobEnd (s : State) (p : Nat) (j : HJob) : State :=
  let fin := fun (st : State) => let s1 := st.dropJob p j; if j.wait then s1.parsed p j.queue else s1
  if j.ctr = 0 then fin s
  else if !(s.updatesDone (if j.wait then s.pkg.msgCount else j.num)) then s
  else match s.updateCounter p j.ctr 1 true with
    | (s1, .fault c _) => s1.jobFault p j c
    | (s1, .held) => s1
    | (s1, .ok ()) => fin s1

/-- HCOPY_COMPLETION: a sector of the queue's oldest copy, or its end (R134). The copies of a partition that is suspended, on its
way there, or in reset stand still (R355, R396, R400, log 99). -/
def State.hcopyCompletion (s : State) (p q k : Nat) : State :=
  match (s.part? p).bind (fun v => v.jobs.find? (fun j => j.queue == q)) with
  | none => s
  | some j =>
    if (s.part? p).any (fun v => !v.runs) then s
    else match s.pauseAt p j.fault with
      | (s1, .wait) => s1
      | (s1, .abort _) => s1.jobFault p j Cause.s2Abort
      | (s1, .go) =>
        if k < j.sectors ∧ !(j.done.contains k) then s1.jobSector p { j with fault := none } k
        else if j.done.length = j.sectors then s1.jobEnd p { j with fault := none }
        else s1

/-- HCOPY_COMPLETION (R134); number 16 stands for the copies of queues that have been unregistered (R139). -/
def execHcopyCompletion (p q sector : Nat) (s : State) : Out :=
  if p < 48 ∧ q < 17 then .next (s.hcopyCompletion p q sector) else .fault .noSuchUnit

/-! ## Registration (R139) -/

/-- The watched lines that are held (R128). -/
def State.watchedLines (s : State) : Nat :=
  (s.parts.map (fun e => e.2.queues.length)).sum + (if s.pkg.cfw.isSome then 1 else 0)

/-- What the translation of a queue comes to: its extents, none, or a remote page that is to be pulled first (R139, R180). -/
inductive QueueMap
  | ok (l : List Xlate)
  | bad
  | pull (gframe : Nat)
  deriving DecidableEq, Repr

/-- Translates a whole queue into extents; every byte lies in a host-window frame (R139). A walk that meets a remote page waits for its
pull, unless that has failed (R180, R182). -/
def State.queueExtents (s : State) (v : Part) (p hi : Nat) : Nat → Nat → List Xlate → QueueMap
  | 0, _, l => .ok l
  | f + 1, va, l =>
    if hi ≤ va then .ok l
    else if inTierWindow va then .bad
    else match s.walk v p va .read with
      | .ok x => if isHost x.pa then s.queueExtents v p hi f (x.va + x.size) (l ++ [x]) else .bad
      | .remote g _ _ => if g ∈ v.failedPulls then .bad else .pull g
      | _ => .bad

/-- The outcome of a registration: the partition with the queue, the status code of R137, or a remote page that is to be pulled first. -/
inductive Registered
  | ok (v : Part)
  | status (n : Nat)
  | pull (gframe : Nat)
  deriving DecidableEq, Repr

/-- QUEUE.REG's checks and effect, in the order of R139. -/
def State.register (s : State) (p : Nat) (v : Part) (q prio va : Nat) : Registered :=
  if (spFind v.queues q).isSome then .status 6
  else if !(aligned 4096 va) then .status 3
  else if inTierWindow va then .status 8
  else match s.walk v p va .read with
    | .ok x =>
      let pa := x.pa + (va - x.va)
      if !(isHost pa) || (s.physFault pa 64 .read).isSome then .status 8
      else
        let prod := s.readPhys pa 8
        let cons := s.readPhys (pa + 8) 8
        let l := s.readPhys (pa + 0x10) 4
        if l < 12 ∨ 26 < l ∨ prod < cons ∨ 2 ^ l / 64 < prod - cons then .status 3
        else match s.queueExtents v p (va + 0x40 + 2 ^ l) 16386 va [] with
          | .bad => .status 8
          | .pull g => .pull g
          | .ok ext =>
            if 1024 ≤ s.watchedLines then .status 7
            else
              let h : HQueue := { va := va, log2 := l, prio := prio, cons := cons, regCons := cons, prod := prod, extents := ext, owed := regWrites }
              .ok { v with queues := spInsert v.queues q h }
    | .remote g _ _ => if g ∈ v.failedPulls then .status 8 else .pull g
    | _ => .status 8

/-- QUEUE.UNREG's effect: parsing stops, a waiting gate is abandoned, cons is written, and the line is released; copies that
were queued without wait go on (R139). -/
def State.unregister (s : State) (p q : Nat) : State :=
  match s.queue? p q with
  | none => s
  | some h =>
    let s1 := (s.queueWrite p h 8 8 h.cons).1
    (s1.invDrop p (InvOp.isInval q)).modPart p (fun v =>
      { v with queues := spErase v.queues q
               jobs := (v.jobs.filter (fun j => !(j.queue == q && j.wait))).map (fun (j : HJob) => if j.queue = q then { j with queue := 16 } else j) })

end Sys2Proof.Machine
end

