-- ==== Sys2Proof/Machine/Reset.lean ====
section
/-!
DEFINITION. The reset of a partition (R355 to R358), and its suspension and resumption (R361, R396, R397).
-/
namespace Sys2Proof.Machine

/-! ## The stop of a partition's work (R356) -/

/-- The regions on which a stage of a partition is placed. -/
def State.placedOn (s : State) (p : Nat) : List Nat := (List.range 192).filter (fun r => s.owner r == some p)

/-- What is under way for a partition outside its regions: its operations, signals and pulls, and the frames of its queued
copies. -/
def Pkg.dropTraffic (k : Pkg) (p : Nat) : Pkg :=
  { k with signals := k.signals.filter (fun g => g.part != p), folds := k.folds.filter (fun m => m.part != p)
           returns := k.returns.filter (fun x => x.part != p) }

/-- The palette, pads and vat slice that a region's record holds. -/
def SavedLane.image (l : SavedLane) : HeldImage :=
  { region := l.region, palette := l.palette, vat := l.vat
    pads := (l.img.cells.filter (fun e => !e.2.pad.isEmpty)).map (fun e => (e.1, e.2.pad)) }

/-- The bytes of a saved region stay with its partition when its die graph goes: in the region, where the partition's state is live,
otherwise in CFW-held memory (R356, R364). -/
def State.keepLane (s : State) (p : Nat) (v : Part) (l : SavedLane) : State :=
  if (spFind s.sets v.set).any (fun t => t.liveOn (dieOf l.region) == p) then s.loadHeld l.region l.image
  else s.modPart p (fun u => { u with images := u.images.filter (fun h => h.region != l.region) ++ [l.image] })

/-- The bytes of every saved region of a partition stay with it. -/
def State.keepSaved (s : State) (p : Nat) : State :=
  match s.part? p with
  | none => s
  | some v => (v.dieGraphs.flatMap (fun e => e.2.2.saved)).foldl (fun (st : State) (l : SavedLane) => st.keepLane p v l) s

/-- Steps 1 and 2 of R356: every stage stops with no save, every die graph goes, pending stage-2 faults are discarded; palettes,
pads and vat slices are kept, and a pull that no access waits for goes on. -/
def State.stopWork (s : State) (p : Nat) : State :=
  let s1 := (s.placedOn p).foldl (fun (st : State) (r : Nat) => st.unplace r) (s.keepSaved p)
  (s1.modPkg (fun k => k.dropTraffic p)).modPart p (fun v =>
    { v with faults := [], suspending := none, invq := v.backPull
             frames := v.frames.filter (fun f => f.copy.isNone)
             replays := v.replays.map (fun (y : Replay) => { y with dgs := [] }) })

/-- Step 3: every replay is aborted with the cause (R56, R356). -/
def State.abortAll (s : State) (p : Nat) (c : BitVec 9) : State :=
  (((s.part? p).map Part.replays).getD []).foldl (fun (st : State) (y : Replay) => if y.aborting.isSome then st else st.abortReplay p y c) s

/-- Step 4: the reset record, and its interrupt (R357). -/
def State.resetRecord (s : State) (p : Nat) (q : ResetReq) : State :=
  match s.part? p with
  | none => s
  | some v =>
    let f : FaultRec := { num := v.nextFault, cause := q.cause.toNat, level := 255, access := 4, va := q.fva.toNat, gpa := 0,
                          region := q.region, unit := 255, tick := s.tick }
    let s1 := (s.setPart p { v with nextFault := v.nextFault + 1 }).ringWrite p
      (faultBytes f q.delivered.toNat q.resume.toNat q.first.toNat)
    s1.emit (.interrupt (2096 + p))

/-! ## The rewinding of the queues (R358) -/

/-- The cons that a rewound queue takes. -/
def HQueue.rewound (h : HQueue) : Nat := if h.gatedone = 0 then h.regCons else h.gatedone

/-- One queue is rewound: copies whose packets are parsed again leave the copy engine. -/
def State.rewindQueue (s : State) (p q : Nat) : State :=
  match s.queue? p q with
  | none => s
  | some h =>
    if h.stopped then s
    else
      let c := h.rewound
      let s1 := (s.modQueue p q (fun g => { g with cons := c, wait := .none })).modPart p (fun v =>
        { v with jobs := v.jobs.filter (fun j => !(j.queue == q && (j.wait || decide (c ≤ j.idx)))) })
      let s2 := s1.queuePut p q [(8, 8, c)]
      if h.slots < h.prod - c then s2.queueStop p q Cause.queueCorrupt c else s2

/-- Step 5: each queue in state 0 is rewound. -/
def State.rewindAll (s : State) (p : Nat) : State := (List.range 16).foldl (fun (st : State) (q : Nat) => st.rewindQueue p q) s

/-- The suspension that goes on ends (R394). -/
def Meter.resume (m : Meter) (now : Nat) : Meter :=
  { m with pauses := m.pauses.map (fun (e : Nat × Option Nat) => if e.2.isNone then (e.1, some now) else e) }

/-! ## PARTITION_RESET (R355, R356) -/

/-- Whether a partition still has frames to pull (R181). -/
def State.hasRemote (s : State) (v : Part) : Bool := (List.range v.entries).any (fun i => s2Type (s.readPhys (v.entryPA i) 8) == 2)

/-- A partition after its reset: ready, or migrating in while frames are remote; held in state 4 when no detour could be
reserved; a migration source, which holds no set, still is one (R181, R355, R384, R398, log 61). -/
def State.resetOver (s : State) (p : Nat) (detour : Bool) : State :=
  s.modPart p (fun v => { v with reset := none, meter := v.meter.resume s.tick, state := if !detour then .resetting else if v.set = 48 then .migratingOut else if s.hasRemote v then .migratingIn else .ready })

/-- PARTITION_RESET: the steps of R356 in order; the scheduler then decides for the set. -/
def State.partitionReset (s : State) (p : Nat) : State :=
  match s.part? p with
  | none => s
  | some v =>
    match v.reset with
    | none => s
    | some q =>
      let s1 := (((s.stopWork p).abortAll p q.cause).resetRecord p q).rewindAll p
      ((s1.resetOver p q.detour).settle v.set).schedule v.set

/-- PARTITION_RESET (R356). -/
def execPartitionReset (p : Nat) (s : State) : Out := if p < 48 then .next (s.partitionReset p) else .fault .noSuchUnit

/-! ## Suspension (R361, R396) -/

/-- A queue's INVAL that waits for its turn is parsed again when parsing goes on. -/
def HQueue.dropInval (h : HQueue) : HQueue := match h.wait with | .inval _ => { h with wait := .none } | _ => h

/-- The suspension of a partition starts: parsing stops, and its placed die graphs are saved by markers; one whose restore was held
stays saved (R396). -/
def State.startSuspend (s : State) (p : Nat) : State :=
  ((s.sendMarkers p s.tick true).modPart p (fun v =>
    { v with suspending := some s.tick, tsusp := s.tick, queues := v.queues.map (fun e => (e.1, e.2.dropInval))
             replays := v.replays.map (fun y => { y with dgs := y.dgs.map (fun (d : DieGraph) =>
               if d.place = .restoring then { d with place := .saved } else d) }) })).invDrop p
    (fun o => match o with | .inval _ _ _ => true | _ => false)

/-- A suspension's saves have ended: state 1 (R396, R399). -/
def State.enterSuspended (s : State) (p : Nat) : State :=
  s.modPart p (fun v => { v with state := .suspended, meter := { v.meter with pauses := v.meter.pauses ++ [(s.tick, none)] } })

/-- Gate clocks that were paused run on (R396). -/
def HQueue.shiftGate (h : HQueue) (d : Nat) : HQueue :=
  match h.wait with
  | .gate i t o since => { h with wait := .gate i t o (since + d) }
  | _ => h

/-- The partition's work goes on: state 0, with the gate clocks shifted by the time that parsing stood still (R396, R397). -/
def State.runOn (s : State) (p : Nat) : State :=
  s.modPart p (fun v =>
    let d := s.tick - v.suspending.getD s.tick
    { v with state := .ready, suspending := none, meter := v.meter.resume s.tick, queues := v.queues.map (fun e => (e.1, e.2.shiftGate d))
             replays := v.replays.map (fun y => { y with dgs := y.dgs.map (fun (x : DieGraph) => { x with forSuspend := false }) }) })

/-- A region whose save had not ended runs on: its marker is withdrawn and its stopped blocks go on (R361). -/
def Region.unmark (g : Region) : Region :=
  { g with marker := false, bankA := { g.bankA with stopped := false }, bankB := { g.bankB with stopped := false } }

/-- A die graph whose save is abandoned: the regions already saved are restored, the others run on (R361). -/
def State.undoSave (s : State) (p n i : Nat) (d : DieGraph) : State :=
  let s1 := d.saved.foldl (fun (st : State) (l : SavedLane) => st.restoreLane p d.held d.heldWords l) s
  let live := d.regions.filter (fun r => !(d.saved.any (fun l => l.region == r)))
  let s2 := live.foldl (fun (st : State) (r : Nat) => st.modReg r Region.unmark) s1
  s2.modDg p n i (fun x => { x with place := .placed, missing := false, saved := [], held := [], heldWords := [], forSuspend := false })

/-- The die graphs whose saves a SUSPEND_TIMEOUT gives up: those saved for the command, where the partition's state is still live and
no thermal trip holds the die (R361, R388). -/
def State.undone (s : State) (p : Nat) (v : Part) : List (Replay × Nat × DieGraph) :=
  let live := fun (die : Nat) => (spFind s.sets v.set).any (fun t => t.liveOn die == p)
  v.dieGraphs.filter (fun e =>
    e.2.2.forSuspend && (e.2.2.isSaving || (e.2.2.isSaved && live e.2.2.die)) && !(spGet {} s.pkg.thermal e.2.2.die).tripped)

/-- The records of several die graphs are read (R364). -/
def State.readBack (s : State) (p : Nat) : List (Replay × Nat × DieGraph) → State × Got Unit
  | [] => (s, .ok ())
  | e :: es =>
    match s.readRecords p e.2.2 e.2.2.saved with
    | (s1, .ok ()) => s1.readBack p es
    | y => y

/-- SUSPEND_TIMEOUT's effect: every record written for the command is read and restored, and the partition runs on as if the command
had not been issued; a fault of a read resets the partition, and a remote page or a collapse holds all of it (R361, R364). -/
def State.undoSuspend (s : State) (p : Nat) : State × Got Unit :=
  match s.part? p with
  | none => (s, .ok ())
  | some v =>
    match s.readBack p (s.undone p v) with
    | (s1, .fault c a) => (s1.saveAreaFault p, .fault c a)
    | (s1, .held) => (s1, .held)
    | (s1, .ok ()) =>
      (((s.undone p v).foldl (fun (st : State) (e : Replay × Nat × DieGraph) => st.undoSave p e.1.num e.2.1 e.2.2) s1).runOn p, .ok ())

end Sys2Proof.Machine
end

