-- ==== Sys2Proof/Machine/Meter.lean ====
section
/-!
DEFINITION. Metering: the 1 ms windows (R149, R150), the usage records (R151, R152), and the final record (R394).
-/
namespace Sys2Proof.Machine

/-! ## Counters (R150) -/

/-- Two sets of counters added, modulo 2^64, preempt modulo 2^32. -/
def Counters.plus (a b : Counters) : Counters :=
  { slots := Vector.ofFn (fun i => a.slots[i] + b.slots[i]), void := a.void + b.void, hbm := a.hbm + b.hbm, vat := a.vat + b.vat,
    fabric := a.fabric + b.fabric, resid := a.resid + b.resid, preempt := a.preempt + b.preempt }

/-- The eleven counters of eight bytes, in the order of R152. -/
def Counters.bytes (c : Counters) : List Byte :=
  (c.slots.toList ++ [c.void, c.hbm, c.vat, c.fabric, c.resid]).flatMap (fun w => toBytes 8 w.toNat)

/-! ## METER_WINDOW (R149) -/

/-- The residence of the regions of a die is counted up to now (R150). -/
def State.countResid (s : State) (die : Nat) : State :=
  ((List.range 48).map (fun j => 48 * die + j)).foldl (fun (st : State) (r : Nat) =>
    match (st.reg r).place with
    | some pl => (st.meterResid pl.part die pl.since st.tick).modReg r (fun g => { g with place := some { pl with since := st.tick } })
    | none => st) s

/-- A partition's counters take the increments of a die in a window, or none if the message's code failed (R149). -/
def Meter.close (m : Meter) (die window : Nat) (codeOk : Bool) : Meter :=
  let inc := if codeOk then spGet {} m.pend (meterKey window die) else {}
  let end_ := (window + 1) * ticksPerMs
  { m with total := m.total.plus inc, pend := spErase m.pend (meterKey window die), latest := Nat.max m.latest end_
           history := m.history ++ [(end_, inc)] }

/-- METER_WINDOW: the message of the next window that a die has closed reaches TD, or fails its code, which is logged; TD adds the
increments in window order (R149). What is counted after a window's end belongs to a later window. -/
def State.meterWindow (s : State) (die : Nat) (codeOk : Bool) : State :=
  let n := spGet 0 s.pkg.windows die
  if s.tick / ticksPerMs ≤ n then s
  else
    let s1 := s.countResid die
    let shut := fun (v : Part) => { v with meter := v.meter.close die n codeOk }
    let s2 : State := { s1 with parts := s1.parts.map (fun (e : Nat × Part) => (e.1, shut e.2)) }
    s2.modPkg (fun k => { k with windows := spInsert k.windows die (n + 1), log := if codeOk then k.log else k.log ++ [.badWindow die s.tick] })

/-- METER_WINDOW (R149). -/
def execMeterWindow (die : Nat) (codeOk : Bool) (s : State) : Out :=
  if die < 4 then .next (s.meterWindow die codeOk) else .fault .noSuchUnit

/-! ## Arming and records (R151, R152) -/

/-- A power of two from 16 to 65,536. -/
def ringSizeOk (n : Nat) : Bool := (List.range 13).any (fun i => n == 2 ^ (i + 4))

/-- An arming starts a chain (R151). The first record is due at the next TICK that is a multiple of 10^9. -/
def Meter.arm (m : Meter) (now ring ringn : Nat) (nonce : List Byte) : Meter :=
  { m with armed := now, ring := ring, ringn := ringn, faultRing := ring, nonce := BitVec.ofNat 256 (ofBytes nonce), seq := 0
           prev := sha384 nonce, first := true, nextDue := (now / 10 ^ 9 + 1) * 10 ^ 9, since := now }

/-- The totals of the windows that ended at or before a tick (R152). -/
def Meter.totalsAt (m : Meter) (t : Nat) : Counters :=
  (m.history.filter (fun e => decide (e.1 ≤ t))).foldl (fun c e => c.plus e.2) m.counted

/-- Whether the partition was suspended at any time between the start of the interval and a tick (R152, R394). -/
def Meter.wasSuspended (m : Meter) (tend : Nat) : Bool :=
  m.pauses.any (fun e => decide (e.1 ≤ tend) && match e.2 with | none => true | some t => decide (m.since ≤ t))

/-- A big-endian number of 48 bytes (R152). -/
def bigBytes (v : BitVec 384) : List Byte := (toBytes 48 v.toNat).reverse

/-- The first 160 bytes of a usage record (R152). -/
def Meter.recordHead (m : Meter) (p : Nat) (fin : Bool) (tend : Nat) (c : Counters) : List Byte :=
  toBytes 1 1 ++ toBytes 1 p ++ toBytes 2 (m.first.toNat + 2 * fin.toNat + 4 * (m.wasSuspended tend).toNat) ++ toBytes 4 c.preempt.toNat ++
    toBytes 8 m.seq ++ toBytes 8 tend ++ c.bytes ++ toBytes 48 m.prev.toNat

/-- The 256 bytes of a record, signed under the metering key, that of certificate slot 1 (R152). -/
def Meter.record (m : Meter) (p step : Nat) (fin : Bool) (tend : Nat) (c : Counters) : List Byte :=
  let head := m.recordHead p fin tend c
  let sig := Config.sign 1 head step
  head ++ bigBytes sig.1 ++ bigBytes sig.2

/-- Whether the host refuses TD the next slot of a partition's ring, or its count (R127, log 13). -/
def State.ringDenied (s : State) (m : Meter) : Bool :=
  s.hostRefuses m.ring 8 || s.hostRefuses (m.ring + 64 + 256 * (m.seq % m.ringn)) 256

/-- A record is written to its slot, and then the count (R151); the chain moves on. -/
def State.writeUsage (s : State) (p : Nat) (m : Meter) (fin : Bool) (tend : Nat) (c : Counters) : State :=
  let rec' := m.record p s.steps fin tend c
  let base := hostBase + m.ring
  let s1 := if s.ringDenied m then s
    else s.modMem (fun x => (x.writeN (base + 64 + 256 * (m.seq % m.ringn)) rec').writeN base (toBytes 8 (m.seq + 1)))
  s1.modPart p (fun v => { v with meter := { m with
    seq := m.seq + 1, prev := sha384 rec', first := false, nextDue := tend / 10 ^ 9 * 10 ^ 9 + 10 ^ 9
    since := tend
    pauses := m.pauses.filter (fun e => match e.2 with | none => true | some t => decide (tend ≤ t))
    counted := m.totalsAt (tend - ticksPerMs), history := m.history.filter (fun e => decide (tend - ticksPerMs < e.1)) } })

/-- Whether a record is due that has not been written (R395). -/
def Meter.due (m : Meter) (now : Nat) : Bool := decide (m.nextDue ≤ now)

/-- USAGE_RECORD: TD builds and writes the record that is due (R151, R152). -/
def State.usageRecord (s : State) (p : Nat) : State :=
  match s.part? p with
  | none => s
  | some v =>
    if v.meter.due s.tick ∧ v.forming.isNone then s.writeUsage p v.meter false v.meter.nextDue (v.meter.totalsAt (v.meter.nextDue - ticksPerMs)) else s

/-- USAGE_RECORD (R151). -/
def execUsageRecord (p : Nat) (s : State) : Out := if p < 48 then .next (s.usageRecord p) else .fault .noSuchUnit

/-! ## The final record (R392, R394) -/

/-- Step 2 of R392: each meter block sends what it has counted since its last window, in a closing window. -/
def State.closeWindows (s : State) (p : Nat) : State :=
  s.modPart p (fun v => { v with meter := { v.meter with total := v.meter.pend.foldl (fun c e => c.plus e.2) v.meter.total, pend := [] } })

/-- Step 3: the final record closes the chain; its seq is the command's result (R394). -/
def State.finalRecord (s : State) (p : Nat) : State :=
  match s.part? p with
  | none => s
  | some v => s.writeUsage p v.meter true s.tick v.meter.total

end Sys2Proof.Machine
end

