-- ==== Sys2Proof/Machine/Commands.lean ====
section
/-!
DEFINITION. CFW commands: the queue and the packets (R135 to R138, R140, R403), and the commands that describe the device,
register queues, and query, suspend and resume partitions.
-/
namespace Sys2Proof.Machine

/-! ## The CFW queue (R135) -/

/-- Whether XD has been measured and released; the command processor is part of it (R12, R35, R36). -/
def State.xdReleased (s : State) : Bool := s.pkg.measured.contains (4, true)

/-- CFWQ: a write to the command register registers a fresh queue; a header that fails its checks stops it at once (R135). -/
def State.writeCfwq (s : State) (pa : Nat) : State :=
  let prod := s.readPhys (hostBase + pa) 8
  let cons := s.readPhys (hostBase + pa + 8) 8
  let l := s.readPhys (hostBase + pa + 0x10) 4
  let c : CfwQueue := { pa := pa, log2 := l, cons := cons, prod := prod }
  let s1 := s.dropUpdates.modPkg (fun k => { k with cfw := some c })
  if l < 12 ∨ 26 < l ∨ prod < cons ∨ 2 ^ l / 64 < prod - cons then (s1.cfwTry c regWrites).cfwStop c Cause.queueCorrupt
  else s1.cfwPut c regWrites

/-- CFWQ (R135): a register of the package, written by the host with a host physical address; while XD is held in reset nothing
takes the write (R36). -/
def execCfwq (pa : Word) (s : State) : Out :=
  if pa.toNat + 64 ≤ 2 ^ 46 then .next (if s.xdReleased then s.writeCfwq pa.toNat else s) else .fault .noSuchUnit

/-! ## The host's memory as the CFW reaches it -/

/-- Whether the CFW may access bytes of the host's memory (R127). -/
def State.hostOk (s : State) (a n : Nat) : Bool := decide (a + n ≤ 2 ^ 46) && !(s.hostRefuses a n)

/-- Whether the CFW can read bytes of the host's memory: a refusal or poison stands against it (R127, R137, R212). -/
def State.hostReads (s : State) (a n : Nat) : Bool :=
  s.hostOk a n && !(s.mem.poison.any (fun x => decide (hostBase + a ≤ x) && decide (x < hostBase + a + n)))

/-- Bytes of the host's memory, unless they cannot be read. -/
def State.hostRead (s : State) (a n : Nat) : Option (List Byte) := if s.hostReads a n then some (s.mem.readN n (hostBase + a)) else none

/-! ## A command (R136 to R138) -/

/-- The status codes of R137. -/
def Status.notReady : Nat := 1
def Status.badCommand : Nat := 2
def Status.malformed : Nat := 3
def Status.noPartition : Nat := 4
def Status.state : Nat := 5
def Status.busy : Nat := 6
def Status.noResource : Nat := 7
def Status.outOfPartition : Nat := 8
def Status.addressFault : Nat := 9
def Status.regionUnavailable : Nat := 10
def Status.vnFull : Nat := 11
def Status.frameOwned : Nat := 12
def Status.denied : Nat := 13
def Status.timeout : Nat := 14

/-- What a command comes to: it may not start yet, it waits for its turn, it fails with a status and a detail and has no effect, it is done with the
results of R403, or it has started and goes on for a partition. -/
inductive CmdOut
  | wait
  | hold (s : State)
  | fail (status detail : Nat)
  | done (s : State) (results more : List Byte)
  | starts (s : State) (part : Nat)

/-- The command at the head of the CFW queue, if one may start: up to eight are in progress (R138); poisoned bytes read as they stand
(DEDUCED, log 64). -/
def State.cmdHead (s : State) : Option (CfwQueue × List Byte) :=
  match s.pkg.cfw with
  | none => none
  | some c =>
    if c.stopped || decide (c.prod ≤ c.cons) || decide (8 ≤ s.pkg.inProgress.length) then none
    else some (c, s.mem.readN 64 (hostBase + c.pa + 0x40 + 64 * (c.cons % (2 ^ c.log2 / 64))))

/-- A command has been taken from the queue: cons moves on, in the header as well (R129). -/
def State.takeCommand (s : State) (c : CfwQueue) : State :=
  let d := { c with cons := c.cons + 1, started := none }
  (s.modPkg (fun k => { k with cfw := some d })).cfwPut d [(8, 8, d.cons)]

/-- The completion, with TICK at completion written last (R136). -/
def State.complete (s : State) (op ctag res start status detail : Nat) (results more : List Byte) : State :=
  if s.hostOk res (64 + more.length) then
    let a := hostBase + res
    let head := toBytes 2 status ++ toBytes 2 op ++ toBytes 4 ctag ++ toBytes 8 start ++ toBytes 4 more.length ++ toBytes 4 detail ++
      toBytes 8 0 ++ padTo 24 results
    s.modMem (fun m => ((m.writeN a head).writeN (a + 64) more).writeN (a + 0x38) (toBytes 8 s.tick))
  else s

/-- The first nonzero byte of a list outside its named fields. -/
def firstUnnamed (bs : List Byte) (named : List (Nat × Nat)) : Option Nat :=
  (List.range bs.length).find? (fun i => bs.getD i 0 != 0 && !(named.any (fun f => decide (f.1 ≤ i) && decide (i < f.1 + f.2))))

/-- The fields of a command packet (R136). -/
def packetFields : List (Nat × Nat) := [(0, 2), (4, 4), (8, 8), (0x10, 4), (0x18, 8), (0x20, 4)]

/-- The detail of an argument that is misplaced, of a wrong length or unreadable: the byte of the packet, or the number of the step that
reads and checks the arguments (R136, R143). -/
def argDetail (op d : Nat) : Nat := if op = 0x20 ∨ op = 0x26 then 1 else d

/-- What is wrong with a command packet whose opcode is in the table (R37, R136, R137, R143, R403). -/
def State.packetFault (s : State) (bs : List Byte) (len extra : Nat) : Option (Nat × Nat) :=
  let arg := numAt bs 8 8
  let res := numAt bs 0x18 8
  if s.pkg.boot < 6 then some (Status.notReady, 0)
  else match firstUnnamed bs packetFields with
    | some i => some (Status.malformed, i)
    | none =>
      if !(aligned 64 arg) then some (Status.malformed, argDetail (numAt bs 0 2) 8)
      else if numAt bs 0x10 4 ≠ len then some (Status.malformed, argDetail (numAt bs 0 2) 0x10)
      else if !(aligned 64 res) then some (Status.malformed, 0x18)
      else if numAt bs 0x20 4 < 64 + extra then some (Status.malformed, 0x20)
      else if !(s.hostReads arg len) then some (Status.addressFault, argDetail (numAt bs 0 2) 8)
      else if !(s.hostOk res (64 + extra)) then some (Status.addressFault, 0x18)
      else none

/-- The command at the head of the CFW queue has started and goes on at a later turn: the tick of its start is kept (R136). -/
def State.commandHeld (s : State) (c : CfwQueue) (start : Nat) : State := s.modPkg (fun k => { k with cfw := some { c with started := some start } })

/-- A command of one opcode, with its argument length and the bytes of its results after the first 64 (R138, R140, R403). The
event of another opcode does nothing. A create that fails after a wait leaves nothing of its partition (R143, R180). -/
def State.command (s : State) (op len extra : Nat) (run : State → List Byte → CmdOut) : State :=
  match s.cmdHead with
  | none => s
  | some (c, bs) =>
    if numAt bs 0 2 ≠ op then s
    else
      let ctag := numAt bs 4 4
      let res := numAt bs 0x18 8
      let start := c.started.getD s.tick
      let fin := fun (st : State) (status detail : Nat) (r m : List Byte) => (st.takeCommand c).complete op ctag res start status detail r m
      match s.packetFault bs len extra with
      | some (st, d) => fin s st d [] []
      | none =>
        match run s (s.mem.readN len (hostBase + numAt bs 8 8)) with
        | .wait => s
        | .hold t => t.commandHeld c start
        | .fail st d => fin s.dropForming st d [] []
        | .done t r m => fin t 0 0 r m
        | .starts t p => (t.takeCommand c).modPkg (fun k => { k with inProgress := k.inProgress ++ [(op, p, ctag, res, start)] })

/-- Whether a command that names a partition must wait for an earlier one (R138). -/
def State.named (s : State) (p : Nat) : Bool := s.pkg.inProgress.any (fun e => e.2.1 == p)

/-- A command whose first argument byte names a partition: unnamed bytes are zero, the partition is in use, and no earlier
command that names it is in progress (R138, R140). -/
def State.forPart (s : State) (args : List Byte) (fields : List (Nat × Nat)) (f : Nat → Part → CmdOut) : CmdOut :=
  let p := numAt args 0 1
  if s.named p then .wait
  else match firstUnnamed args ((0, 1) :: fields) with
    | some i => .fail Status.malformed i
    | none =>
      match s.part? p with
      | none => .fail Status.noPartition 0
      | some v => f p v

/-- The opcodes of the command table (R138). -/
def opcodes : List Nat :=
  [0x01, 0x02, 0x10, 0x11, 0x20, 0x21, 0x22, 0x23, 0x24, 0x25, 0x26, 0x30, 0x31, 0x32, 0x40, 0x50, 0x51]

/-- BAD_COMMAND: an opcode that is not in the table (R137, R138). -/
def State.badCommand (s : State) : State :=
  match s.cmdHead with
  | none => s
  | some (c, bs) =>
    if opcodes.contains (numAt bs 0 2) then s
    else (s.takeCommand c).complete (numAt bs 0 2) (numAt bs 4 4) (numAt bs 0x18 8) s.tick
      (if s.pkg.boot < 6 then Status.notReady else Status.badCommand) 0 [] []

/-- BAD_COMMAND (R138). -/
def execBadCommand (s : State) : Out := .next s.badCommand

/-! ## DEV.INFO and DEV.HEALTH (R389, R403) -/

/-- The regions present since boot (R32). -/
def State.presentMask (s : State) : BitVec 192 :=
  BitVec.ofNat 192 (((List.range 192).filter (fun r => s.pkg.fusedRegions.getLsbD r && s.presentDie (dieOf r))).foldl (fun n r => n + 2 ^ r) 0)

/-- The stacks present since boot (R32, R36). -/
def State.stackMask (s : State) : Nat :=
  ((List.range 8).filter (fun h => s.pkg.fusedStacks.getLsbD h && s.presentDie (h / 2))).foldl (fun n h => n + 2 ^ h) 0

/-- DEV.INFO (R403). -/
def State.devInfo (s : State) : State :=
  s.command 0x0001 0 24 (fun st _ =>
    .done st (toBytes 1 st.pkg.part ++ toBytes 1 st.stackMask ++ toBytes 2 Config.packageId.toNat ++ toBytes 4 st.pkg.mappedOut.length ++
      toBytes 8 Config.cfwVersion.toNat) (toBytes 24 st.presentMask.toNat))

/-- DEV_INFO (R403). -/
def execDevInfo (s : State) : Out := .next s.devInfo

/-- The tiles of a region (R371). -/
def tileCount : Nat := 354

/-- The number of tiles of the present regions in a state (R379, R389). -/
def State.tilesIn (s : State) (code : Nat) : Nat :=
  let rs := (List.range 192).filter (fun r => s.presentMask.getLsbD r)
  (rs.map (fun r => ((List.range tileCount).filter (fun t => (s.reg r).tileState t == code)).length)).sum

/-- DEV.HEALTH (R389). -/
def State.devHealth (s : State) : State :=
  s.command 0x0002 0 512 (fun st _ =>
    .done st [] ((List.range 7).flatMap (fun c => toBytes 4 (st.tilesIn c)) ++ toBytes 4 0 ++ toBytes 24 st.pkg.retired.toNat ++
      toBytes 8 st.pkg.drops ++
      padTo 256 (st.pkg.lastDrops.flatMap (fun (e : Nat × Nat × Nat) => toBytes 2 e.1 ++ toBytes 2 e.2.1 ++ toBytes 4 0 ++ toBytes 8 e.2.2)) ++
      (List.range 8).flatMap (fun h => toBytes 8 (Config.eccTrend h st.steps).toNat) ++
      (List.range 4).flatMap (fun d => toBytes 32 (Config.lifeModel d st.steps).toNat)))

/-- DEV_HEALTH (R389). -/
def execDevHealth (s : State) : Out := .next s.devHealth

/-! ## QUEUE.REG and QUEUE.UNREG (R139) -/

/-- QUEUE.REG (R139). -/
def State.queueReg (s : State) : State :=
  s.command 0x0010 24 0 (fun st a => st.forPart a [(1, 1), (2, 1), (8, 8)] (fun p v =>
    if 15 < numAt a 1 1 then .fail Status.malformed 1
    else if 3 < numAt a 2 1 then .fail Status.malformed 2
    else match st.register p v (numAt a 1 1) (numAt a 2 1) (numAt a 8 8) with
      | .status n => .fail n (if n = Status.busy then 1 else 8)
      | .pull g => .hold (st.invQueue p (.pull g none))
      | .ok w => .done ((st.setPart p w).flushQueue p (numAt a 1 1) 16) [] []))

/-- QUEUE_REG (R139). -/
def execQueueReg (s : State) : Out := .next s.queueReg

/-- QUEUE.UNREG: its result is the final cons (R139, R403). -/
def State.queueUnreg (s : State) : State :=
  s.command 0x0011 8 0 (fun st a => st.forPart a [(1, 1)] (fun p v =>
    if 15 < numAt a 1 1 then .fail Status.malformed 1
    else match spFind v.queues (numAt a 1 1) with
      | none => .fail Status.state 1
      | some h => .done (st.unregister p (numAt a 1 1)) (toBytes 8 h.cons) []))

/-- QUEUE_UNREG (R139). -/
def execQueueUnreg (s : State) : Out := .next s.queueUnreg

/-! ## PART.QUERY (R138, R403) -/

/-- The code of a partition's state (R138). -/
def PState.code : PState → Nat
  | .ready => 0
  | .suspended => 1
  | .migratingOut => 2
  | .migratingIn => 3
  | .resetting => 4

/-- PART.QUERY. -/
def State.partQuery (s : State) : State :=
  s.command 0x0022 8 24 (fun st a => st.forPart a [] (fun _ v =>
    .done st (toBytes 1 v.state.code ++ toBytes 1 0 ++ toBytes 2 (v.queues.foldl (fun n e => n + 2 ^ e.1) 0) ++
      toBytes 4 (v.replays.filter Replay.begun).length) (toBytes 24 v.regions.toNat)))

/-- PART_QUERY (R138). -/
def execPartQuery (s : State) : Out := .next s.partQuery

/-! ## PART.SUSPEND and PART.RESUME (R361, R396, R397) -/

/-- A command in progress completes. -/
def State.finish (s : State) (op p status : Nat) : State :=
  match s.pkg.inProgress.find? (fun e => e.1 == op && e.2.1 == p) with
  | none => s
  | some (_, _, ctag, res, start) =>
    (s.modPkg (fun k => { k with inProgress := k.inProgress.filter (fun e => !(e.1 == op && e.2.1 == p)) })).complete op ctag res start status 0 [] []

/-- PART.SUSPEND is accepted only in state 0 (R396). -/
def State.partSuspend (s : State) : State :=
  s.command 0x0023 8 0 (fun st a => st.forPart a [] (fun p v =>
    if v.state = .ready then .starts (st.startSuspend p) p else .fail Status.state 0))

/-- The suspension of a partition ends: state 1 once every save has ended; a reset in between ends it without effect (R396). -/
def State.finishSuspend (s : State) (p : Nat) : State :=
  if !(s.pkg.inProgress.any (fun e => e.1 == 0x0023 && e.2.1 == p)) then s
  else match s.part? p with
    | none => s
    | some v =>
      if v.suspending.isNone then s.finish 0x0023 p Status.timeout
      else if v.savesOver then (s.enterSuspended p).finish 0x0023 p 0
      else s

/-- PART_SUSPEND (R396). -/
def execPartSuspend (fin : Option Nat) (s : State) : Out :=
  match fin with
  | none => .next s.partSuspend
  | some p => if p < 48 then .next (s.finishSuspend p) else .fault .noSuchUnit

/-- The bound of PART.SUSPEND in ticks: a gang tick, the save deadline, and 5 ms (R138). -/
def State.suspendBound (s : State) (v : Part) : Nat :=
  1000 * ((spFind s.sets v.set).map RSet.period).getD 0 + saveDeadline + 5 * ticksPerMs

/-- SUSPEND_TIMEOUT: the saves have not ended within the bound (R361). -/
def State.suspendTimeout (s : State) (p : Nat) : State :=
  match s.part? p, s.pkg.inProgress.find? (fun e => e.1 == 0x0023 && e.2.1 == p) with
  | some v, some (_, _, _, _, start) =>
    if v.suspending.isSome ∧ !v.savesOver ∧ s.suspendBound v < s.tick - start then
      match s.undoSuspend p with
      | (s1, .held) => s1
      | (s1, _) => s1.finish 0x0023 p Status.timeout
    else s
  | _, _ => s

/-- SUSPEND_TIMEOUT (R361). -/
def execSuspendTimeout (p : Nat) (s : State) : Out := if p < 48 then .next (s.suspendTimeout p) else .fault .noSuchUnit

/-- Whether a partition's set has no other member. -/
def State.exclusive (s : State) (v : Part) : Bool := (spFind s.sets v.set).any (fun t => t.members.length == 1)

/-- PART.RESUME is accepted only in state 1; it sets state 0, and on an exclusive set the scheduler restores; on a shared one that
waits for the partition's next slice (R397). -/
def State.partResume (s : State) : State :=
  s.command 0x0024 8 0 (fun st a => st.forPart a [] (fun p v =>
    if v.state ≠ .suspended then .fail Status.state 0
    else .starts (if st.exclusive v then (st.runOn p).schedule v.set else (st.runOn p).modPart p (fun u => { u with waitSlice := true })) p))

/-- Whether a saved die graph of an exclusive set is still to be restored (R397). -/
def State.restoresLeft (s : State) (v : Part) : Bool :=
  s.exclusive v && v.state == .ready &&
    v.dieGraphs.any (fun e => e.2.2.isSaved && !(spGet {} s.pkg.thermal e.2.2.die).tripped)

/-- The resumption of a partition ends: on an exclusive set, once its saved die graphs are restored (R397). -/
def State.finishResume (s : State) (p : Nat) : State :=
  if !(s.pkg.inProgress.any (fun e => e.1 == 0x0024 && e.2.1 == p)) then s
  else match s.part? p with
    | none => s
    | some v =>
      let s1 := if s.restoresLeft v then s.schedule v.set else s
      match s1.part? p with
      | none => s1
      | some w => if s1.restoresLeft w then s1 else s1.finish 0x0024 p 0

/-- PART_RESUME (R397). -/
def execPartResume (fin : Option Nat) (s : State) : Out :=
  match fin with
  | none => .next s.partResume
  | some p => if p < 48 then .next (s.finishResume p) else .fault .noSuchUnit

end Sys2Proof.Machine
end

