-- ==== Sys2Proof/Machine/Create.lean ====
section
/-!
DEFINITION. PART.CREATE and PART.MIGRATE.IN (R141 to R148, R180, R329, R398), and the commands on stage-2 arrays, rank tables and
meters (R146, R151, R166 to R169).
-/
namespace Sys2Proof.Machine

/-! ## Stage-2 entries (R16, R142, R166) -/

/-- The dies that traffic from one die to another crosses: between diagonal dies the horizontal edge first and then the vertical one,
or, where the die on that way is absent, the vertical edge first (R13, R15, R16). -/
def State.diePath (s : State) (a b : Nat) : Option (List Nat) :=
  let across := a / 2 * 2 + (1 - a % 2)
  let down := (1 - a / 2) * 2 + a % 2
  if !(s.presentDie a && s.presentDie b) then none
  else if a = b then some [a]
  else if a + b ≠ 3 then some [a, b]
  else if s.presentDie across then some [a, across, b]
  else if s.presentDie down then some [a, down, b]
  else none

/-- Whether traffic can pass between two dies (R16). -/
def State.diesReach (s : State) (a b : Nat) : Bool := (s.diePath a b).isSome

/-- The dies of a set of regions. -/
def maskDies (m : BitVec 192) : List Nat := (List.range 4).filter (fun d => (maskRegions m).any (fun r => dieOf r == d))

/-- Whether a frame belongs to a replica pool (R176). -/
def inPool (pa : Nat) : Bool := decide (0x3E000000 ≤ pa % 2 ^ 30)

/-- Whether a frame meets a stage-2 array. -/
def meetsArray (pa s2 entries : Nat) : Bool := decide (pa < s2 + 8 * entries) && decide (s2 < pa + 2 ^ 21)

/-- Whether an entry names a frame: type 1, or type 2 with the local frame to be filled (R166, R180). -/
def s2Names (e : Nat) : Bool := s2Type e == 1 || s2Type e == 2

/-- The frames that a partition owns (R142). -/
def State.ownedFrames (s : State) (v : Part) : List Nat := ((s.s2Entries v).filter (fun e => s2Names e.2)).map (fun e => s2Frame e.2)

/-- Whether another partition owns a frame (R142). -/
def State.ownedByOther (s : State) (p pa : Nat) : Bool := s.parts.any (fun e => e.1 != p && (s.ownedFrames e.2).contains pa)

/-- Whether a frame meets the stage-2 array of any partition, or of the one being made (R166). -/
def State.inArrays (s : State) (v : Part) (pa : Nat) : Bool :=
  meetsArray pa v.s2 v.entries || s.parts.any (fun e => meetsArray pa e.2.s2 e.2.entries)

/-- The check of a stage-2 entry: the status with which it fails, if it does (R16, R142, R166). -/
def State.s2Bad (s : State) (p : Nat) (v : Part) (remote : Bool) (e : Nat) : Option Nat :=
  let pa := s2Frame e
  let home := e / 2 ^ 5 % 4
  let key := e / 2 ^ 9 % 2 ^ 12
  if e % 2 ^ 5 ≠ 0 ∨ e / 2 ^ 52 % 2 ^ 10 ≠ 0 ∨ s2Type e = 3 ∨ (s2Type e = 2 ∧ !remote) then some Status.malformed
  else if s2Type e = 0 then none
  else if isHost pa ∧ v.hostWin ∧ s2Type e = 1 then
    if home ≠ 0 ∨ key ≠ 0 then some Status.malformed
    else if s.ownedByOther p pa then some Status.frameOwned
    else none
  else if !(decide (pa < 2 ^ 39)) ∨ !(s.populated pa) ∨ inPool pa ∨ s.inArrays v pa then some Status.outOfPartition
  else if home ≠ pa / 2 ^ 37 % 4 ∨ v.keys ≤ key then some Status.malformed
  else if !((maskDies v.regions).any (fun d => s.diesReach d home)) then some Status.outOfPartition
  else if s.ownedByOther p pa then some Status.frameOwned
  else none

/-- The first entry of a list that fails its check: its index and status. -/
def firstBad (f : Nat → Option Nat) : Nat → List Nat → Option (Nat × Nat)
  | _, [] => none
  | i, e :: es => match f e with | some st => some (i, st) | none => firstBad f (i + 1) es

/-- The eight-byte numbers of a list of bytes. -/
def words8 (bs : List Byte) (n : Nat) : List Nat := (List.range n).map (fun i => numAt bs (8 * i) 8)

/-! ## Rank entries (R146) -/

/-- The check of a rank entry for a partition with these regions and this key (R146). -/
def rankBad (regions : BitVec 192) (key : Nat) (e : Nat) : Option Nat :=
  let w : Word := BitVec.ofNat 64 e
  if e / 2 ^ 36 % 2 ^ 27 ≠ 0 ∨ 191 < rankRegion w then some Status.malformed
  else if rankValid w ∧ rankPackage w = Config.packageId.toNat ∧ (!(regions.getLsbD (rankRegion w)) ∨ rankKey w ≠ key) then some Status.malformed
  else none

/-- A rank table takes entries from a rank on. -/
def putRanks (l : Sparse Word) : Nat → List Nat → Sparse Word
  | _, [] => l
  | i, e :: es => putRanks (if e = 0 then spErase l i else spInsert l i (BitVec.ofNat 64 e)) (i + 1) es

/-! ## Fold windows (R329) -/

/-- An entry of the fold table, if it is well formed: VA and size (R141). -/
def foldEntry (bs : List Byte) : Option (Nat × Nat) :=
  let va := numAt bs 0 8
  let l := numAt bs 8 1
  if 16 ≤ l ∧ l ≤ 20 ∧ aligned (2 ^ l) va ∧ zeroAt bs 9 7 then some (va, l) else none

/-- Whether no two windows overlap. -/
def windowsApart : List (Nat × Nat) → Bool
  | [] => true
  | (va, l) :: ws => ws.all (fun w => !(decide (va < w.1 + 2 ^ w.2) && decide (w.1 < va + 2 ^ l))) && windowsApart ws

/-- Whether a window lies wholly in the partition's vat slices or its VA space (R329). -/
def windowInside (v : Part) (w : Nat × Nat) : Bool :=
  match tierOf w.1 with
  | .vat d off => reachesVat v d off && decide (off % 2 ^ 21 + 2 ^ w.2 ≤ 2 ^ 21)
  | .mapped => decide (w.1 + 2 ^ w.2 ≤ 0xFF0000000000)
  | _ => false

/-- The owner of a window (R329). -/
def windowOwner (regions : List Nat) (w : Nat) : Option (Nat × Nat) :=
  (regions[w % regions.length]?).map (fun r => (r, w / regions.length % 16))

/-! ## The steps of PART.CREATE (R143) -/

/-- What a create has been given: its arguments with what their addresses hold. -/
structure NewPart where
  args : List Byte
  folds : List Byte
  ranks : List Byte
  /-- Made by PART.MIGRATE.IN from this package, with this session and ticket. -/
  origin : Option Migration := none

/-- The regions that the arguments name (R141). -/
def NewPart.regions (a : NewPart) : BitVec 192 := BitVec.ofNat 192 (numAt a.args 0 24)
def NewPart.share (a : NewPart) : Nat := numAt a.args 0x18 1
def NewPart.nfolds (a : NewPart) : Nat := numAt a.args 0x19 1
def NewPart.keys (a : NewPart) : Nat := numAt a.args 0x1A 1
def NewPart.tick (a : NewPart) : Nat := numAt a.args 0x1C 4
def NewPart.entries (a : NewPart) : Nat := numAt a.args 0x28 4
def NewPart.s2 (a : NewPart) : Nat := numAt a.args 0x20 8
def NewPart.ring (a : NewPart) : Nat := numAt a.args 0x58 8
def NewPart.ringn (a : NewPart) : Nat := numAt a.args 0x60 4

/-- Step 1: the checks of R141 on the 136 bytes; an s1root at or above 2^42 passes (DEDUCED, log 65). -/
def createArgsOk (a : List Byte) : Bool :=
  let n : NewPart := { args := a, folds := [], ranks := [] }
  n.regions != 0 && decide (n.nfolds ≤ 64) && decide (1 ≤ n.keys) && decide (n.keys ≤ 64) && decide (numAt a 0x1B 1 ≤ 1) &&
    (if n.share = 0xFF then decide (10 ≤ n.tick) && decide (n.tick ≤ 100000) else n.tick == 0) &&
    aligned 4096 n.s2 && decide (n.s2 + 8 * n.entries ≤ 2 ^ 39) && decide (1 ≤ n.entries) && decide (n.entries ≤ 2 ^ 21) && zeroAt a 0x2C 4 &&
    aligned 4096 (numAt a 0x30 8) && decide (numAt a 0x50 1 ≤ 3) && zeroAt a 0x51 7 && ringSizeOk n.ringn && zeroAt a 0x64 4

/-- The lowest partition number that is free (R143). -/
def State.freeNumber (s : State) : Option Nat := (List.range 48).find? (fun p => (s.part? p).isNone)

/-- The scrub of a region: its palette, pads, banks, tag table, landing buffer, descriptors, instruction cache and vat slice are
zero (R143, R393). -/
def State.scrubRegion (s : State) (r : Nat) : State :=
  (s.modReg r (fun g => { g.vacate with cells := [] })).modMem (fun m => (m.scrub (palBase r) (2 ^ 21)).scrub (sliceBase r) (2 ^ 21))

/-- The scrub of the regions of a set. -/
def State.scrubAll (s : State) (m : BitVec 192) : State := (maskRegions m).foldl (fun (st : State) (r : Nat) => st.scrubRegion r) s

/-- Whether every region is present and unretired, and no diagonal pair of dies is cut off (R16, R143). -/
def State.regionsUsable (s : State) (m : BitVec 192) : Bool :=
  (maskRegions m).all (fun r => s.presentMask.getLsbD r && !(s.pkg.retired.getLsbD r)) &&
    (maskDies m).all (fun a => (maskDies m).all (fun b => a == b || s.diesReach a b))

/-- Step 2: the set that the partition joins, or the status with which it may not (R143). -/
def State.reserve (s : State) (a : NewPart) : Except Nat (Option Nat) :=
  if a.share = 0xFF then
    if !(s.regionsUsable a.regions) then .error Status.regionUnavailable
    else if s.sets.any (fun e => e.2.regions &&& a.regions != 0) then .error Status.busy
    else .ok none
  else match s.part? a.share with
    | none => .error Status.noPartition
    | some v =>
      match spFind s.sets v.set with
      | none => .error Status.state
      | some t =>
        if v.state ≠ .ready ∨ t.regions ≠ a.regions then .error Status.state
        else if 4 ≤ t.members.length then .error Status.noResource
        else .ok (some v.set)

/-- The links between the dies of a path. -/
def pathLinks : List Nat → List Port
  | a :: b :: l => .link a b :: pathLinks (b :: l)
  | _ => []

/-- The region routers that are isolated (R376, R384). -/
def State.routersOut (s : State) : List Nat := (List.range 192).filter s.routerDown

/-- The ports on the route from one region to another: those of routers on the dies of the path, and the links between these dies
(R15, R16, R144, log 12). -/
def State.routePorts (s : State) (a b : Nat) : Option (List Port) :=
  (s.diePath (dieOf a) (dieOf b)).bind (fun path =>
    (Config.routeHops a b path s.routersOut).map (fun hops =>
      (hops.filter (fun h => path.contains (dieOf h.1) && decide (h.1 < 192) && !(s.routersOut.contains h.1))).map (fun h => Port.out h.1 h.2) ++ pathLinks path))

/-- The pairs of different regions of a set. -/
def regionPairs (m : BitVec 192) : List (Nat × Nat) :=
  (maskRegions m).flatMap (fun a => ((maskRegions m).filter (fun b => b != a)).map (fun b => (a, b)))

/-- Every port on every route that joins two regions of a set, each once (R144). -/
def State.netPorts (s : State) (m : BitVec 192) : Option (List Port) :=
  ((regionPairs m).mapM (fun e => s.routePorts e.1 e.2)).map (fun l => l.flatten.eraseDups)

/-- The lowest VC slot of a port that no partition but one holds: slot 0 belongs to the firmware, and there are 16 (R144, log 12). -/
def State.freeSlot (s : State) (p : Nat) (port : Port) : Option Nat :=
  (List.range 16).find? (fun n => n != 0 && s.parts.all (fun e => e.1 == p || !(e.2.slots.contains (port, n))))

/-- Step 3: a slot for a partition at each of its ports; none where a port has none left (R144). -/
def State.reserveSlots (s : State) (p : Nat) (m : BitVec 192) : Option (List (Port × Nat)) :=
  (s.netPorts m).bind (fun l => l.mapM (fun port => (s.freeSlot p port).map (fun n => (port, n))))

/-- The router that a port belongs to. -/
def Port.router : Port → Option Nat
  | .out r _ => some r
  | .link _ _ => none

/-- Whether a partition's virtual network crosses a region's router (R384). -/
def Part.crosses (v : Part) (r : Nat) : Bool := v.slots.any (fun e => e.1.router == some r)

/-- Whether a partition key is free (R145, R393). -/
def State.keyFree (s : State) (k : Nat) : Bool := !(s.parts.any (fun e => e.2.key.toNat == k)) && !(s.pkg.quarantine.any (fun q => q.1 == k))

/-- Step 3: the partition key: any free one, the choice is the CFW's (R145, log 13). -/
def State.chooseKey (s : State) : Option Nat :=
  let k := Config.freeNat s.steps 0
  ((List.range 256).map (fun i => 1 + (k + i) % 0xFFFE)).find? s.keyFree

/-- Step 4: the lowest key-store slots that are free and consecutive (R148). -/
def State.keySlotsFree (s : State) (n : Nat) : Option Nat :=
  (List.range (4096 - n + 1)).find? (fun b => s.pkg.keySlots.all (fun e => decide (b + n ≤ e.1) || decide (e.1 + e.2 ≤ b)))

/-- The windows of the fold table, each with its owner (R329). -/
def NewPart.windows (a : NewPart) : Option (List Window) :=
  let es := (List.range a.nfolds).map (fun i => foldEntry ((a.folds.drop (16 * i)).take 16))
  if es.all Option.isSome then
    some (es.zipIdx.filterMap (fun (e : Option (Nat × Nat) × Nat) => e.1.map (fun w =>
      ({ va := w.1, log2 := w.2, owner := windowOwner (maskRegions a.regions) e.2 } : Window))))
  else none

/-- The lowest number of a set that is free. -/
def State.freeSet (s : State) : Nat := ((List.range 49).find? (fun k => (spFind s.sets k).isNone)).getD 48

/-- The partition joins a shared set last, or makes an exclusive one and owns its slices (R158, R159). DESIGN CHOICE (log 102): the
columns of its regions go to ON (R143) also on a die whose thermal trip lasts, where R388 lets nothing be placed. -/
def State.joinSet (s : State) (a : NewPart) (p k : Nat) (old : Option Nat) : State :=
  match old.bind (spFind s.sets) with
  | some t => s.setSet k { t with members := t.members ++ [p] }
  | none =>
    (maskRegions a.regions).foldl (fun (st : State) (r : Nat) => st.columnOn r)
      ((s.scrubAll a.regions).setSet k { members := [p], period := a.tick, owner := p, regions := a.regions, last := s.tick / (1000 * a.tick) })

/-- The partition that a create makes, before its queue and its meter (R141). -/
def State.newPart (s : State) (a : NewPart) (k key base : Nat) : Part :=
  { regions := a.regions, set := k, keys := a.keys, keyBase := base, hostWin := numAt a.args 0x1B 1 == 1
    state := if a.origin.isSome then .migratingIn else .ready
    key := BitVec.ofNat 16 key, s2 := a.s2, entries := a.entries, s1root := numAt a.args 0x30 8, windows := (a.windows).getD []
    ranks := putRanks [] 0 (words8 a.ranks (a.ranks.length / 8))
    meter := Meter.arm {} s.tick a.ring a.ringn ((a.args.drop 0x68).take 32), migration := a.origin }

/-- What a create comes to: a status with the failing step, the partition with its key, or a wait for the pull of a page of queue 0's
tables (R143, R180). -/
inductive CreateOut
  | fail (status step : Nat)
  | ok (p key : Nat) (s : State)
  | hold (s : State)

/-- Steps 7 and 8: queue 0, and the meter, which is armed at their end (R143, R151). A walk read of a remote page holds them until the page
has been pulled (R180). -/
def State.lastSteps (s : State) (a : NewPart) (p : Nat) (v : Part) : CreateOut :=
  let q0 := numAt a.args 0x48 8
  match (if q0 = 0 then Registered.ok v else s.register p v 0 (numAt a.args 0x50 1) q0) with
  | .status st => .fail st 7
  | .pull g => .hold ((s.setPart p { v with forming := some (v.forming.getD s.tick) }).invQueue p (.pull g none))
  | .ok w =>
    if !(s.hostOk a.ring (64 + 256 * a.ringn + 64 * 64)) then .fail Status.addressFault 8
    else
      let m := if v.forming.isNone then w.meter else w.meter.arm s.tick a.ring a.ringn ((a.args.drop 0x68).take 32)
      .ok p v.key.toNat ((s.setPart p { w with forming := none, meter := m }).checkMigrated p)

/-- Steps 2 to 8: the partition's number and the state with it, or the failing step and its status (R143). -/
def State.create (s : State) (a : NewPart) : CreateOut :=
  match s.freeNumber with
  | none => .fail Status.noResource 1
  | some p =>
    match s.reserve a with
    | .error st => .fail st 2
    | .ok old =>
      match s.reserveSlots p a.regions with
      | none => .fail Status.vnFull 3
      | some slots =>
        match s.chooseKey with
        | none => .fail Status.noResource 3
        | some key =>
          match s.keySlotsFree a.keys with
          | none => .fail Status.noResource 4
          | some base =>
            let k := old.getD s.freeSet
            let v := { s.newPart a k key base with slots := slots }
            match firstBad (s.s2Bad p v a.origin.isSome) 0 ((s.s2Entries v).map Prod.snd) with
            | some (_, st) => .fail st 5
            | none =>
              if a.windows.isNone || !(windowsApart (v.windows.map (fun w => (w.va, w.log2)))) then .fail Status.malformed 6
              else if !(v.windows.all (fun w => windowInside v (w.va, w.log2))) then .fail Status.outOfPartition 6
              else if (firstBad (rankBad a.regions key) 0 (words8 a.ranks (a.ranks.length / 8))).isSome then .fail Status.malformed 6
              else (((s.joinSet a p k old).setPart p v).modPkg (fun x =>
                { x with keySlots := x.keySlots ++ [(base, a.keys)], keyDraws := x.keyDraws + a.keys })).lastSteps a p v

/-- Step 1 of a create, and then the rest: the results of R403 (R143). One that waits for a pull goes on where it stands (R180). -/
def State.runCreate (s : State) (args : List Byte) (origin : Option Migration) : CmdOut :=
  let share := numAt args 0x18 1
  let nf := numAt args 0x19 1
  let ft := numAt args 0x40 8
  let rt := numAt args 0x38 8
  let fin := fun (o : CreateOut) (first : Nat) => match o with
    | .fail st step => .fail st step
    | .hold t => .hold t
    | .ok p key t => .done t (toBytes 1 p ++ toBytes 1 0 ++ toBytes 2 key)
        ((List.range 6).flatMap (fun _ => toBytes 8 first) ++ (List.range 3).flatMap (fun _ => toBytes 8 s.tick))
  match s.parts.find? (fun e => e.2.forming.isSome) with
  | some (p, v) => fin (s.lastSteps { args := args, folds := [], ranks := [], origin := origin } p v) (v.forming.getD s.tick)
  | none =>
  if share ≠ 0xFF ∧ s.named share then .wait
  else if !(createArgsOk args) then .fail Status.malformed 1
  else if !(s.populated (numAt args 0x20 8)) || !(s.populated (numAt args 0x20 8 + 8 * numAt args 0x28 4 - 1)) then .fail Status.addressFault 1
  else match (if nf = 0 then some [] else s.hostRead ft (16 * nf)), (if rt = 0 then some [] else s.hostRead rt 8192) with
    | some f, some r => fin (s.create { args := args, folds := f, ranks := r, origin := origin }) s.tick
    | _, _ => .fail Status.addressFault 1

/-- PART.CREATE (R143). -/
def State.partCreate (s : State) : State := s.command 0x0020 136 72 (fun st a => st.runCreate a none)

/-- PART_CREATE (R143). -/
def execPartCreate (s : State) : Out := .next s.partCreate

/-! ## PART.MIGRATE.IN (R140, R180, R398, R399) -/

/-- Whether a ticket names this destination and the source and entries of the arguments (R399). -/
def ticketOk (t : List Byte) (source entries : Nat) : Bool :=
  numAt t 0 4 == 0x5447494D && numAt t 4 2 == 1 && numAt t 6 2 == source && numAt t 8 2 == Config.packageId.toNat && zeroAt t 0x0B 1 &&
    numAt t 0x0C 4 == entries

/-- PART.MIGRATE.IN. -/
def State.migrateIn (s : State) : State :=
  s.command 0x0026 304 72 (fun st a =>
    let t := (a.drop 0x90).take 144
    match firstUnnamed a [(0, 0x8A), (0x90, 144), (0x120, 8), (0x128, 4)] with
    | some i => .fail Status.malformed i
    | none =>
      if 4095 < numAt a 0x88 2 then .fail Status.malformed 0x88
      else if !(aligned 8 (numAt a 0x120 8)) then .fail Status.malformed 0x120
      else if numAt a 0x128 4 = 0 ∨ 4096 < numAt a 0x128 4 then .fail Status.malformed 0x128
      else match st.hostRead (numAt a 0x120 8) (numAt a 0x128 4) with
        | none => .fail Status.addressFault 0x120
        | some cert =>
          if !(ticketOk t (numAt a 0x88 2) (numAt a 0x28 4)) ∨ !(st.pkg.signed.contains (cert, t)) then .fail Status.denied 1
          else st.runCreate (a.take 136) (some { peer := numAt a 0x88 2, session := BitVec.ofNat 128 (numAt t 0x18 16), ticket := t }))

/-- PART.MIGRATE.IN; one that ends without its effect undoes what it has made (R143). -/
def State.partMigrateIn (s : State) : State :=
  let t := s.migrateIn
  if t.pkg.cfw.map CfwQueue.cons = s.pkg.cfw.map CfwQueue.cons then t else t.dropForming

/-- PART_MIGRATE_IN (R138). -/
def execPartMigrateIn (s : State) : Out := .next s.partMigrateIn

/-! ## S2.UPDATE (R169) -/

/-- The entries go into the array, translations are dropped, replicas and collapsed marks of changed frames go, and streams are
repatched (R169). DESIGN CHOICE (log 133): the array is read and written as it stands also in a mapped-out pseudo-channel. -/
def State.applyS2 (s : State) (p : Nat) (v : Part) (first : Nat) (es : List Nat) : State :=
  let old := (List.range es.length).map (fun i => s.readPhys (v.entryPA (first + i)) 8)
  let frames := (old ++ es).filterMap (fun e => if s2Names e then some (s2Frame e) else none)
  let s1 := s.modMem (fun m => m.writeN (v.s2 + 8 * first) (es.flatMap (toBytes 8)))
  let s2 := s1.modPkg (fun k => k.dropReplicas (fun r => r.part == p && frames.contains r.frame))
  let changed := fun (g : Nat) => decide (first ≤ g) && decide (g < first + es.length)
  let s3 := (s2.modPart p (fun u =>
    { u with collapsed := u.collapsed.filter (fun f => !(frames.contains f))
             failedPulls := u.failedPulls.filter (fun g => !(changed g))
             pulling := u.pulling.filter (fun e => !(changed e.1)) })).invDrop p
    (fun o => match o with | .pull g _ => changed g | _ => false)
  (s3.repatch p (fun _ => true)).checkMigrated p

/-- S2.UPDATE: every entry is checked before any is written; from its start it waits for its turn in the invalidation sequencer
(R169, R175). -/
def State.updateRun (s : State) (a : List Byte) : CmdOut :=
  s.forPart a [(4, 4), (8, 4), (0x10, 8)] (fun p v =>
    let first := numAt a 4 4
    let n := numAt a 8 4
    if n = 0 ∨ 4096 < n ∨ v.entries < first + n then .fail Status.malformed 8
    else if !(aligned 8 (numAt a 0x10 8)) then .fail Status.malformed 0x10
    else match s.hostRead (numAt a 0x10 8) (8 * n) with
      | none => .fail Status.addressFault 0x10
      | some bs =>
        match firstBad (s.s2Bad p v false) 0 (words8 bs n) with
        | some (i, status) => .fail status i
        | none =>
          if v.invTurn .update then .done ((s.applyS2 p v first (words8 bs n)).invOver p .update) [] []
          else .hold (s.invQueue p .update))

/-- S2.UPDATE (R169); one that ends otherwise than by its turn leaves the invalidation sequencer. -/
def State.s2Update (s : State) : State :=
  let t := s.command 0x0030 24 0 State.updateRun
  if t.pkg.cfw.map CfwQueue.cons = s.pkg.cfw.map CfwQueue.cons then t else t.dropUpdates

/-- S2_UPDATE (R169). -/
def execS2Update (s : State) : Out := .next s.s2Update

/-! ## S2.RESUME and S2.ABORT (R167) -/

/-- An answered fault is no longer held; a failed pull may be tried again (R167, R182). -/
def State.dropFault (s : State) (p : Nat) (f : FaultRec) : State :=
  s.modPart p (fun v => { v with faults := v.faults.filter (fun g => g.num != f.num)
                                 failedPulls := if f.cause = Cause.remotePage.toNat then v.failedPulls.filter (fun g => g != f.gpa / 2 ^ 21) else v.failedPulls })

/-- A block that waits for the answer waits for the eret of the S2_ABORT handler instead (R167, R353). -/
def Bank.abortAnswer (b : Bank) (n : Nat) : Bank :=
  { b with voids := b.voids.map (fun v => match v with | .answer m => if m = n then .eret Cause.s2Abort false else v | w => w) }

/-- Both blocks of a region. -/
def Region.abortAnswer (g : Region) (n : Nat) : Region := { g with bankA := g.bankA.abortAnswer n, bankB := g.bankB.abortAnswer n }

/-- Whether a block of a region waits for the answer to a fault. -/
def Region.awaits (g : Region) (n : Nat) : Bool :=
  let l := g.bankA.voids ++ g.bankB.voids
  l.any (fun v => match v with | .answer m => m == n | _ => false)

/-- The bank whose block waits for the answer to a fault, if one does. -/
def Region.awaitBank (g : Region) (n : Nat) : Option Bool :=
  let f := fun (b : Bank) => b.voids.any (fun v => match v with | .answer m => m == n | _ => false)
  if f g.bankA then some false else if f g.bankB then some true else none

/-- The replays that hold a saved record of a region whose block waits for an answer. -/
def Part.awaitsSaved (v : Part) (r n : Nat) : List Nat :=
  (v.replays.filter (fun y => y.dgs.any (fun d => d.saved.any (fun l => l.region == r && l.img.awaits n)))).map Replay.num

/-- A region as a replay's record holds it. -/
def Part.savedRegion (v : Part) (n r : Nat) : Region :=
  (((v.replays.filter (fun y => y.num == n)).flatMap (fun y => y.dgs.flatMap DieGraph.saved)).find? (fun l => l.region == r)).map
    SavedLane.img |>.getD {}

/-- S2.ABORT's effect: a stream's block gets S2_ABORT in its region's handler, live or saved; every other unit meets it when it
tries its access again; behind the record of a pull that no access asked for stands nothing (R167, R363, log 98). -/
def State.abortFault (s : State) (p : Nat) (v : Part) (f : FaultRec) : State :=
  let c := fun (g : Region) => ({ cause := Cause.s2Abort, fva := BitVec.ofNat 64 f.va, voids := g.awaitBank f.num } : Pend)
  if f.bg then s.dropFault p f
  else if s.owner f.region == some p && (s.reg f.region).awaits f.num then
    ((s.dropFault p f).queueCause f.region (c (s.reg f.region))).modReg f.region (fun g => g.abortAnswer f.num)
  else match v.awaitsSaved f.region f.num with
    | n :: _ => ((s.dropFault p f).queueSaved p n f.region (c (v.savedRegion n f.region))).modPart p (fun u => u.modSaved n f.region (fun g => g.abortAnswer f.num))
    | [] => s.modPart p (fun u => { u with faults := u.faults.map (fun (g : FaultRec) => if g.num = f.num then { g with answer := .abort } else g) })

/-- An answer to a pending fault; a number that is not pending is MALFORMED (R167). -/
def State.answerFault (s : State) (op : Nat) (abort : Bool) : State :=
  s.command op 8 0 (fun st a => st.forPart a [(4, 4)] (fun p v =>
    match v.faults.find? (fun f => f.num == numAt a 4 4 && f.answer == .pending) with
    | none => .fail Status.malformed 4
    | some f => .done (if abort then st.abortFault p v f else st.dropFault p f) [] []))

/-- S2_RESUME (R167). -/
def execS2Resume (s : State) : Out := .next (s.answerFault 0x0031 false)
/-- S2_ABORT (R167). -/
def execS2Abort (s : State) : Out := .next (s.answerFault 0x0032 true)

/-! ## RANK.SET and the meters (R138, R146, R151) -/

/-- RANK.SET (R146). -/
def State.rankSet (s : State) : State :=
  s.command 0x0040 16 0 (fun st a => st.forPart a [(2, 2), (4, 2), (8, 8)] (fun p v =>
    let first := numAt a 2 2
    let n := numAt a 4 2
    if n = 0 ∨ 1024 < first + n then .fail Status.malformed 4
    else if !(aligned 8 (numAt a 8 8)) then .fail Status.malformed 8
    else match st.hostRead (numAt a 8 8) (8 * n) with
      | none => .fail Status.addressFault 8
      | some bs =>
        match firstBad (rankBad v.regions v.key.toNat) 0 (words8 bs n) with
        | some (i, status) => .fail status i
        | none => .done (st.modPart p (fun u => { u with ranks := putRanks u.ranks first (words8 bs n) })) [] []))

/-- RANK_SET (R146). -/
def execRankSet (s : State) : Out := .next s.rankSet

/-- METER.ARM: a record of the arming before it that is due is written first (R151, R168). -/
def State.meterArm (s : State) : State :=
  s.command 0x0050 56 0 (fun st a => st.forPart a [(4, 4), (8, 8), (0x18, 32)] (fun p v =>
    let n := numAt a 4 4
    let ring := numAt a 8 8
    if !(ringSizeOk n) then .fail Status.malformed 4
    else if !(aligned 64 ring) then .fail Status.malformed 8
    else if !(st.hostOk ring (64 + 256 * n + 64 * 64)) then .fail Status.addressFault 8
    else if v.meter.due st.tick then .wait
    else .done (st.modPart p (fun u => { u with meter := u.meter.arm st.tick ring n ((a.drop 0x18).take 32) })) [] []))

/-- METER_ARM (R151). -/
def execMeterArm (s : State) : Out := .next s.meterArm

/-- METER.READ: the counters of TD's latest 1 ms increment (R138, R403). -/
def State.meterRead (s : State) : State :=
  s.command 0x0051 8 88 (fun st a => st.forPart a [] (fun _ v =>
    .done st (toBytes 4 v.meter.total.preempt.toNat ++ toBytes 4 0 ++ toBytes 8 v.meter.latest) v.meter.total.bytes))

/-- METER_READ (R138). -/
def execMeterRead (s : State) : Out := .next s.meterRead

end Sys2Proof.Machine
end

