-- ==== Sys2Proof/Machine/Teardown.lean ====
section
/-!
DEFINITION. The end of a partition: PART.DESTROY (R392 to R395), PART.MIGRATE.OUT and the end of a migration source
(R398 to R400).
-/
namespace Sys2Proof.Machine

/-! ## Leaving a set (R393) -/

/-- The place in the joining order after a member. -/
def RSet.placeOf (t : RSet) (p : Nat) : Nat := (t.members.takeWhile (fun q => q != p)).length

/-- A partition leaves the set of its regions. The last to leave frees the set, and everything in its regions is scrubbed; the
owner of the slice leaves its live state zeroed, and the others keep theirs (R393). -/
def State.leaveSet (s : State) (p k : Nat) : State :=
  match spFind s.sets k with
  | none => s
  | some t =>
    if t.members.length ≤ 1 then { s.scrubAll t.regions with sets := spErase s.sets k }
    else
      let rest := t.members.filter (fun q => q != p)
      if t.owner = p then
        let dies := (List.range 4).filter (fun d => t.liveOn d == p)
        let s1 := (dies.flatMap t.onDie).foldl (fun (st : State) (r : Nat) => st.scrubRegion r) s
        s1.setSet k { t with members := rest, owner := 48, start := t.placeOf p }
      else
        let start := if t.placeOf p < t.start then t.start - 1 else t.start
        (s.setSet k { t with members := rest, start := start }).settle k

/-- The windows, their shadows and their re-homing end (R392). -/
def Pkg.dropWindows (k : Pkg) (p : Nat) : Pkg :=
  let k1 := { k with rehoming := k.rehoming.filter (fun x => x.1 != p) }
  { k1 with shadows := (k1.shadows.map (fun (x : Shadows) => { x with regs := x.regs.filter (fun e => e.1 / 2 ^ 64 != p) })).filter (fun x => !x.regs.isEmpty) }

/-- The keys of a partition are zeroised: no later key decrypts what its frames hold (R148, R393). -/
def State.killKeys (s : State) (v : Part) : State :=
  ((s.ownedFrames v).filter (fun f => !(isHost f))).foldl (fun (st : State) (f : Nat) => st.modMem (fun m => m.kill f (2 ^ 21) st.steps)) s

/-- A partition that stops for good: step 1 of R392 (R139, R356). -/
def State.stopForGood (s : State) (p : Nat) : State :=
  let s1 := (s.stopWork p).modPart p (fun v => { v with replays := [] })
  let s2 := (((s1.part? p).map Part.queues).getD []).foldl (fun (st : State) (e : Nat × HQueue) => st.unregister p e.1) s1
  s2.modPart p (fun v => { v with jobs := [] })

/-- Steps 2 to 6 of R392: metering closes with the final record, and everything the partition holds is released. -/
def State.release (s : State) (p : Nat) (v : Part) : State :=
  let s1 := (s.closeWindows p).finalRecord p
  let s2 := (s1.modPkg (fun k => k.dropWindows p)).killKeys v
  let s3 := s2.modPkg (fun k0 =>
    let k := k0.dropReplicas (fun r => r.part == p)
    { k with keySlots := k.keySlots.filter (fun e => e.1 != v.keyBase)
             quarantine := k.quarantine ++ [(v.key.toNat, s.tick + 10 ^ 9)] })
  let s4 := s3.leaveSet p v.set
  { s4 with parts := spErase s4.parts p }

/-- PART.DESTROY: a reset in progress and a record that is due come first (R392, R395). -/
def State.partDestroy (s : State) : State :=
  s.command 0x0021 8 0 (fun st a => st.forPart a [] (fun p v =>
    if v.reset.isSome ∨ v.meter.due st.tick then .wait
    else .done ((st.stopForGood p).release p v) (toBytes 8 v.meter.seq) []))

/-- PART_DESTROY (R392). -/
def execPartDestroy (s : State) : Out := .next s.partDestroy

/-- KEY_QUARANTINE_END: a partition key is free again 1 s after its partition's end (R393). -/
def State.keyQuarantineEnd (s : State) (key : Nat) : State :=
  s.modPkg (fun k => { k with quarantine := k.quarantine.filter (fun e => !(e.1 == key && decide (e.2 ≤ s.tick))) })

/-- KEY_QUARANTINE_END (R393). -/
def execKeyQuarantineEnd (key : Nat) (s : State) : Out :=
  if key < 65536 then .next (s.keyQuarantineEnd key) else .fault .noSuchUnit

/-! ## PART.MIGRATE.OUT (R398, R399) -/

/-- The 48 bytes of a ticket (R399). -/
def ticketBytes (p dest : Nat) (v : Part) (session : Nat) : List Byte :=
  toBytes 4 0x5447494D ++ toBytes 2 1 ++ toBytes 2 Config.packageId.toNat ++ toBytes 2 dest ++ toBytes 1 p ++ toBytes 1 0 ++
    toBytes 4 v.entries ++ toBytes 8 v.tsusp ++ toBytes 16 session ++ toBytes 8 (v.meter.seq - 1)

/-- The VC slots on the path from a partition's regions to the fabric ports: of the ports that it holds a slot at, those of the routers
on the way to its dies' links with XD. A die reaches XD over its own link only, so these routers are on the region's die (R15, R144, R398,
log 84). -/
def State.fabricSlots (s : State) (v : Part) : List (Port × Nat) :=
  v.slots.filter (fun e => match e.1 with
    | .out r n => (maskRegions v.regions).any (fun x => dieOf r == dieOf x && (Config.fabricHops x s.routersOut).contains (r, n))
    | .link _ _ => false)

/-- The source keeps frames, keys and chain, and the VC slots on the path to the fabric ports, and gives up its regions (R398). -/
def State.startMigration (s : State) (p : Nat) (v : Part) (dest session : Nat) (ticket : List Byte) : State :=
  let s1 := (s.stopWork p).leaveSet p v.set
  (s1.modPkg (fun k => { k.dropWindows p with keyDraws := k.keyDraws + 1 })).modPart p (fun u =>
    { u with state := .migratingOut, set := 48, regions := 0, images := [], windows := [], slots := s.fabricSlots v, meter := u.meter.resume s.tick, migration := some { peer := dest, session := BitVec.ofNat 128 session, ticket := ticket } })

/-- PART.MIGRATE.OUT is accepted only in state 1 (R398). -/
def State.partMigrateOut (s : State) : State :=
  s.command 0x0025 8 144 (fun st a => st.forPart a [(2, 2)] (fun p v =>
    let dest := numAt a 2 2
    if 4095 < dest ∨ dest = Config.packageId.toNat then .fail Status.malformed 2
    else if v.state ≠ .suspended then .fail Status.state 0
    else
      let session := Config.draw 1 st.pkg.keyDraws
      let t := ticketBytes p dest v session
      let sig := Config.sign 0 t st.steps
      .done (st.startMigration p v dest session t) [] (t ++ bigBytes sig.1 ++ bigBytes sig.2)))

/-- PART_MIGRATE_OUT (R398). -/
def execPartMigrateOut (s : State) : Out := .next s.partMigrateOut

/-- MIGRATION_SOURCE_END: the destination reports that no remote frame remains; the source ends as steps 2 to 6 of R392 do, and
the host is told (R400). -/
def State.migrationSourceEnd (s : State) (p : Nat) (session : BitVec 128) : State :=
  match s.part? p with
  | none => s
  | some v =>
    if v.state = .migratingOut ∧ v.migration.map Migration.session = some session ∧ !(v.meter.due s.tick) ∧ !(s.named p) then
      (s.release p v).emit (.interrupt (2144 + p))
    else s

/-- MIGRATION_SOURCE_END (R400). -/
def execMigrationSourceEnd (p : Nat) (session : BitVec 128) (s : State) : Out :=
  if p < 48 then .next (s.migrationSourceEnd p session) else .fault .noSuchUnit

end Sys2Proof.Machine
end

