-- ==== Sys2Proof/Machine/Boot.lean ====
section
/-!
DEFINITION. The measured boot (R35 to R38), SPDM (R35, R37), the links of TD (R17), degradation (R18, R33, R34), the
voltage/frequency islands (R28, R29), throttling and thermal trips (R368, R388), and uncorrectable errors (R212).
-/
namespace Sys2Proof.Machine

/-! ## COLD_RESET (R35 to R38) -/

/-- Whether a die's measurement matches the manifest (R36). -/
def measurementOk (die : Nat) : Bool := Config.measurement die == Config.manifest die

/-- Power-good or cold reset: TD leaves reset and TICK starts at 0. Fuses, retired marks, the host's memory and its access control stay; the keys go,
and with them what HBM held (R35, R38, R386). DESIGN CHOICE (log 108): mapped-out pseudo-channels, removed modules, downshifted ports
and TD's health log do not survive. -/
def State.powerGood (s : State) : State :=
  { State.reset with
    steps := s.steps, agenda := s.agenda, mem := s.mem.kill 0 (2 ^ 39) s.steps
    pkg := { vf := coldIslands, part := s.pkg.part, fusedRegions := s.pkg.fusedRegions, fusedStacks := s.pkg.fusedStacks, retiredTiles := s.pkg.retiredTiles
             retired := s.pkg.retired, keyDraws := s.pkg.keyDraws, denied := s.pkg.denied, signed := s.pkg.signed } }

/-- The islands that come on when a die is released: those of a fabric die, or XD's but for the management endpoint, which TD owns
(R28, R35, log 109). -/
def dieIslands (die : Nat) : List Nat := if die < 4 then (List.range 10).map (10 * die + ·) else [40, 41, 42, 43, 44]

/-- Islands are turned on. -/
def Pkg.powerOn (k : Pkg) (now : Nat) (l : List Nat) : Pkg := l.foldl (fun (x : Pkg) (v : Nat) => x.moveIsland now v .on) k

/-- TD measures a die, draws its link key, and releases it if the measurement matches; a die that is not released stays in reset with
its islands OFF (R17, R35, R36). -/
def Pkg.measure (k : Pkg) (now die : Nat) : Pkg :=
  let k1 := { k with measured := k.measured ++ [(die, measurementOk die)]
                     linkKeys := k.linkKeys ++ [(die, Config.draw 0 k.keyDraws)], keyDraws := k.keyDraws + 1 }
  if measurementOk die then k1.powerOn now (dieIslands die) else k1

/-- Whether a die has been measured and released: a die that has not, or that failed, stays in reset with its islands OFF (R35, R36). -/
def State.released (s : State) (die : Nat) : Bool := s.pkg.measured.contains (die, true)

/-- The tile kinds of R371, for BIST. -/
def tileKind (t : Nat) : Nat :=
  if t < 272 then 0 else if t < 304 then 1 else if t < 336 then 2 else if t < 352 then 3 else if t = 352 then 4 else 5

/-- Whether a retired tile leaves its region in service: a cell of the spare column (R384). -/
def isSpareCell (spare t : Nat) : Bool := decide (t < 272) && t % 17 == spare

/-- The record of a tile that is treated as absent: RETIRED, and sending nothing (R386). -/
def absentTile : Tile := { state := 6, past := [(0, 6)], silent := true }

/-- A released die scrubs its vat and all palettes and pads (R35). -/
def State.scrubDie (s : State) (d : Nat) : State :=
  let s1 := s.modMem (fun m => (m.scrub (vatBase d) (2 ^ 27)).scrub (palBase (48 * d)) (48 * 2 ^ 21))
  { s1 with regs := s1.regs.map (fun e => if dieOf e.1 = d then (e.1, { e.2 with cells := [] }) else e) }

/-- Step 5: the released dies scrub vats, palettes and pads, golden values are recorded, and retired tiles treated as absent (R35,
R386). -/
def State.trainDies (s : State) : State :=
  let s0 := ((List.range 4).filter s.presentDie).foldl (fun (st : State) (d : Nat) => st.scrubDie d) s
  let s1 := s0.modPkg (fun k =>
    { k with golden := (List.range 6).map (fun t => (t, Config.golden t))
             retired := k.retiredTiles.foldl (fun (m : BitVec 192) (i : Nat) =>
               if isSpareCell 16 (i % 2 ^ 16) then m else m ||| BitVec.ofNat 192 (2 ^ (i / 2 ^ 16))) k.retired })
  s1.pkg.retiredTiles.foldl (fun (st : State) (i : Nat) => st.modReg (i / 2 ^ 16) (fun g =>
    { g with tiles := spInsert g.tiles (i % 2 ^ 16) absentTile })) s1

/-- A step of the boot. Step 4 takes the next fabric die each time: FD0 first, FD3 last (R35). -/
def State.bootStep (s : State) : Nat → State
  | 2 => s.modPkg (fun k => k.powerOn s.tick [45])
  | 3 => s.modPkg (fun k => k.measure s.tick 4)
  | 4 => s.modPkg (fun k => k.measure s.tick (k.measured.length - 1))
  | 5 => s.trainDies
  | _ => s

/-- COLD_RESET: stage 0 is power-good; each later row follows the one before it, and none follows a failed measurement of XD. Row 4 is
over with the fourth die (R35, R36). -/
def State.coldReset (s : State) (stage : Nat) : State :=
  if stage = 0 then s.powerGood
  else if stage = s.pkg.boot + 1 ∧ !(s.pkg.measured.contains (4, false)) then
    (s.bootStep stage).modPkg (fun k => if stage = 4 ∧ k.measured.length < 5 then k else { k with boot := stage })
  else s

/-- COLD_RESET (R35). -/
def execColdReset (stage : Nat) (s : State) : Out := if stage ≤ 6 then .next (s.coldReset stage) else .fault .noSuchUnit

/-! ## SPDM (R35, R37, R152) -/

/-- An SPDM request is answered from boot step 2 on (R35). -/
def State.spdm (s : State) (kind : Nat) (payload : Option (List Byte)) : State :=
  if 2 ≤ s.pkg.boot then s.emit (.spdm kind payload) else s

/-- GET_VERSION (R35). -/
def execGetVersion (s : State) : Out := .next (s.spdm 0 (some (Config.spdmReply 0 0)))
/-- GET_CAPABILITIES (R35). -/
def execGetCapabilities (s : State) : Out := .next (s.spdm 1 (some (Config.spdmReply 1 0)))
/-- NEGOTIATE_ALGORITHMS (R35). -/
def execNegotiateAlgorithms (s : State) : Out := .next (s.spdm 2 (some (Config.spdmReply 2 0)))
/-- GET_CERTIFICATE: slot 0 certifies the ticket key and slot 1 the metering key (R35, R152, R398). -/
def execGetCertificate (slot : Nat) (s : State) : Out :=
  .next (s.spdm 3 (some (if slot ≤ 1 then Config.certificate slot else Config.spdmReply 3 slot)))

/-- The answer to GET_MEASUREMENTS: Busy until what it names has been taken (R37). -/
def State.measurementsReply (s : State) : Option Nat → Option (List Byte)
  | some d => if s.pkg.measured.any (fun e => e.1 == d) then some (toBytes 48 (Config.measurement d).toNat) else none
  | none =>
    if 4 ≤ s.pkg.boot then some (s.pkg.measured.flatMap (fun e => toBytes 48 (Config.measurement e.1).toNat)) else none

/-- GET_MEASUREMENTS (R37). -/
def execGetMeasurements (which : Option Nat) (s : State) : Out :=
  match which with
  | some d => if d < 5 then .next (s.spdm 4 (s.measurementsReply which)) else .fault .noSuchUnit
  | none => .next (s.spdm 4 (s.measurementsReply which))

/-! ## TD's links (R17) -/

/-- TD_LINK_MESSAGE: a message whose code fails is discarded, and logged (R17). What an accepted message tells is a step of its
own. -/
def State.linkMessage (s : State) (die : Nat) (msg : List Byte) (code : BitVec 128) : State :=
  match s.pkg.linkKeys.find? (fun e => e.1 == die) with
  | none => s
  | some (_, key) =>
    if Config.linkCode key msg = code then s else s.modPkg (fun k => { k with log := k.log ++ [.badCode die s.tick] })

/-- TD_LINK_MESSAGE (R17). -/
def execTdLinkMessage (die : Nat) (msg : List Byte) (code : BitVec 128) (s : State) : Out :=
  if die < 5 then .next (s.linkMessage die msg code) else .fault .noSuchUnit

/-! ## Degradation (R18, R33, R34) -/

/-- The modules of a UCIe link: 0 to 3 join fabric dies, 4 to 7 join a fabric die and XD, 8 to 12 join TD and a die (R14). -/
def linkModules (link : Nat) : Nat := if link < 4 then 8 else if link < 8 then 4 else 1

/-- UCIE_MODULE_REMOVAL: the link goes on with its remaining modules (R18). -/
def State.removeModule (s : State) (link : Nat) : State :=
  let n := spGet (linkModules link) s.pkg.lanes link
  if n = 0 then s else s.modPkg (fun k => { k with lanes := spInsert k.lanes link (n - 1) })

/-- UCIE_MODULE_REMOVAL (R18). -/
def execUcieModuleRemoval (link : Nat) (s : State) : Out := if link < 13 then .next (s.removeModule link) else .fault .noSuchUnit

/-- FABRIC_PORT_DOWNSHIFT: the port runs at four lanes (R33). -/
def execFabricPortDownshift (port : Nat) (s : State) : Out :=
  if port < 16 then .next (s.modPkg (fun k => { k with slowPorts := natInsert k.slowPorts port })) else .fault .noSuchUnit

/-- PSEUDO_CHANNEL_MAP_OUT: only when no valid stage-2 entry names a frame inside it; its replicas go first (R34, R176). -/
def State.mapOut (s : State) (pc : Nat) : State :=
  if s.parts.any (fun e => (s.ownedFrames e.2).any (fun f => f / 2 ^ 30 == pc)) then s
  else s.modPkg (fun k =>
    let k1 := k.dropReplicas (fun r => r.pool / 2 ^ 30 == pc)
    { k1 with mappedOut := natInsert k1.mappedOut pc })

/-- PSEUDO_CHANNEL_MAP_OUT (R34). -/
def execPseudoChannelMapOut (pc : Nat) (s : State) : Out := if pc < 512 then .next (s.mapOut pc) else .fault .noSuchUnit

/-! ## Voltage/frequency islands (R28, R29) -/

/-- The regions of a column: VF(10d + c) holds column c of die d (R28). -/
def columnRegions (vf : Nat) : List Nat := (List.range 6).map (fun row => 48 * (vf / 10) + 8 * row + vf % 10)

/-- Whether no partition and no set holds a region of a column (R29). -/
def State.columnFree (s : State) (vf : Nat) : Bool :=
  (columnRegions vf).all (fun r => s.parts.all (fun e => !(e.2.regions.getLsbD r)) && s.sets.all (fun e => !(e.2.regions.getLsbD r)))

/-- Whether a thermal trip holds the columns of a die (R388). -/
def State.tripped (s : State) (die : Nat) : Bool := (spGet {} s.pkg.thermal die).tripped

/-- What is left of a tile whose island goes OFF: the die router of index 354 lies in another island and goes on (R378), and TD's log keeps
the isolations of every tile, and the mark of a retired one (R386). -/
def tileOff (i : Nat) (v : Tile) : Option Tile :=
  if i = 354 then some v
  else if v.state = 6 then some { absentTile with isolations := v.isolations }
  else if v.isolations.isEmpty then none
  else some { isolations := v.isolations }

/-- What a region keeps while its island is OFF: nothing but what TD's log holds of its tiles, and the die router's record. Its column out of
service is the spare again, or the column of a retired cell (R29, R383, R386, log 107). -/
def Region.poweredOff (g : Region) : Region :=
  let gone := g.tiles.filter (fun e => e.2.state == 6)
  { tiles := g.tiles.filterMap (fun e => (tileOff e.1 e.2).map (fun v => (e.1, v))), spare := ((gone.find? (fun e => decide (e.1 < 272))).map (fun e => e.1 % 17)).getD 16 }

/-- What other tiles have counted about a region's router goes: the counts about a tile start at zero when it is powered on (R374). -/
def State.forgetRouter (s : State) (r : Nat) : State :=
  { s with regs := s.regs.map (fun e => (e.1, { e.2 with
      tiles := e.2.tiles.map (fun t => (t.1, { t.2 with watch := spErase t.2.watch (2 ^ 16 * r + 353) })) })) }

/-- The regions of a column are scrubbed, and then hold no state (R29). -/
def State.columnOff (s : State) (vf : Nat) : State :=
  (columnRegions vf).foldl (fun (t : State) (r : Nat) => ((t.scrubRegion r).modReg r Region.poweredOff).forgetRouter r) s

/-- Whether an island holds a column of regions (R28). -/
def isColumn (vf : Nat) : Bool := decide (vf < 40) && decide (vf % 10 < 8)

/-- ISLAND_STATE_CHANGE: the CFW moves the island of a region column of a released die, and no other: to HOLD and OFF only while nobody holds it, to OFF
only once it is scrubbed (R29, R36). DESIGN CHOICE (log 107): no column goes from OFF to HOLD. -/
def State.islandState (s : State) (vf : Nat) (st : VfState) : State :=
  let put := fun (t : State) => t.modPkg (fun k => k.moveIsland s.tick vf st)
  if !(isColumn vf) ∨ !(s.released (vf / 10)) ∨ s.tripped (vf / 10) then s
  else match st with
    | .on => put s
    | .hold => if s.columnFree vf && spGet .on s.pkg.vf vf != .off then put s else s
    | .off => if s.columnFree vf then put (s.columnOff vf) else s

/-- ISLAND_STATE_CHANGE (R29). -/
def execIslandStateChange (vf : Nat) (st : VfState) (s : State) : Out :=
  if vf < 48 then .next (s.islandState vf st) else .fault .noSuchUnit

/-! ## Throttling and thermal trips (R368, R388) -/

/-- THROTTLE_LEVEL_SET: a level above 60 is never set (R368). -/
def State.setThrottle (s : State) (vf level : Nat) : State :=
  if 60 < level ∨ vf % 10 ≥ 8 then s
  else
    let t := spGet {} s.pkg.thermal (vf / 10)
    let t1 := if t.zone = .aboveTrip ∧ spGet 0 s.pkg.throttle vf ≠ level then { t with since := s.tick } else t
    s.modPkg (fun k => { k with throttle := spInsert k.throttle vf level, thermal := spInsert k.thermal (vf / 10) t1 })

/-- THROTTLE_LEVEL_SET (R368). -/
def execThrottleLevelSet (vf level : Nat) (s : State) : Out := if vf < 40 then .next (s.setThrottle vf level) else .fault .noSuchUnit

/-- Whether a partition has a die graph placed on a die, one that is being saved or restored among them. -/
def Part.placedOnDie (v : Part) (die : Nat) : Bool := v.dieGraphs.any (fun e => e.2.2.die == die && (e.2.2.isPlaced || e.2.2.isSaving || e.2.2.place == .restoring))

/-- A thermal trip: every partition with a placed die graph on the die is reset, and once that is over its columns go to HOLD
(R29, R388). -/
def State.tripDie (s : State) (die : Nat) : State :=
  let t := spGet {} s.pkg.thermal die
  let s1 := if t.tripped then s else
    (s.parts.filter (fun e => e.2.placedOnDie die)).foldl (fun (st : State) (e : Nat × Part) =>
      st.fatal e.1 { cause := Cause.thermalTrip, delivered := Cause.thermalTrip, region := 255, resume := 0, first := 0, fva := 0 })
      (s.modPkg (fun k => { k with thermal := spInsert k.thermal die { t with tripped := true }, log := k.log ++ [.thermal die s.tick] }))
  if s1.parts.any (fun e => e.2.placedOnDie die) || !(s1.released die) then s1
  else s1.modPkg (fun k => (List.range 8).foldl (fun (x : Pkg) (c : Nat) => x.moveIsland s.tick (10 * die + c) .hold) k)

/-- THERMAL_TRIP: above the trip point for 1 ms with every level at 60 (R388). -/
def State.thermalTrip (s : State) (die : Nat) : State :=
  let t := spGet {} s.pkg.thermal die
  let full := (List.range 8).all (fun c => spGet 0 s.pkg.throttle (10 * die + c) == 60)
  if t.tripped ∨ (t.zone = .aboveTrip ∧ ticksPerMs ≤ s.tick - t.since ∧ full) then s.tripDie die else s

/-- THERMAL_TRIP (R388). -/
def execThermalTrip (die : Nat) (s : State) : Out := if die < 4 then .next (s.thermalTrip die) else .fault .noSuchUnit

/-- THERMAL_RECOVERY: the columns return to ON after 1 s below the trip point minus 10 °C, and the scheduler decides (R388). -/
def State.thermalRecovery (s : State) (die : Nat) : State :=
  let t := spGet {} s.pkg.thermal die
  if t.tripped ∧ t.zone = .belowRecovery ∧ 1000 * ticksPerMs ≤ s.tick - t.since then
    let s1 := s.modPkg (fun k =>
      { k with thermal := spInsert k.thermal die { t with tripped := false } }.powerOn s.tick
        (if s.released die then (List.range 8).map (10 * die + ·) else []))
    s1.sets.foldl (fun (st : State) (e : Nat × RSet) => (st.settle e.1).schedule e.1) s1
  else s

/-- THERMAL_RECOVERY (R388). -/
def execThermalRecovery (die : Nat) (s : State) : Out := if die < 4 then .next (s.thermalRecovery die) else .fault .noSuchUnit

/-! ## MEMORY_POISON (R212) -/

/-- MEMORY_POISON: an uncorrectable error leaves bytes of populated memory holding poison (R212). -/
def execMemoryPoison (pa len : Nat) (s : State) : Out :=
  if s.populated pa ∧ s.populated (pa + len - 1) then .next (s.modMem (fun m => m.spoil pa len)) else .fault .noSuchUnit

end Sys2Proof.Machine
end

