-- ==== Sys2Proof/Machine/Health.lean ====
section
/-!
DEFINITION. The health of the tiles: who watches whom (R371), beats (R372 to R375), votes (R376 to R378), states (R379).
-/
namespace Sys2Proof.Machine

/-! ## Tiles and neighbours (R371) -/

/-- A tile: its region and its index. The die router stands as index 354 of the die's first region (R378). -/
abbrev TileId := Nat × Nat

/-- The identity of a tile (R371). -/
def tileIdent (t : TileId) : Nat := 2 ^ 16 * t.1 + t.2
/-- The tile that an identity names. -/
def identTile (n : Nat) : TileId := (n / 2 ^ 16, n % 2 ^ 16)

/-- The index of the region router, and the model's own index of the die router. -/
def routerTile : Nat := 353
def dieRouterTile : Nat := 354

/-- The numbers next to one in a row of `n`. -/
def besideIn (n x : Nat) : List Nat := (if 0 < x then [x - 1] else []) ++ (if x + 1 < n then [x + 1] else [])

/-- The voting neighbours of a cell (R371). -/
def cellNeighbours (x y : Nat) : List Nat :=
  (besideIn 16 y).map (fun j => 17 * j + x) ++ (besideIn 17 x).map (fun i => 17 * y + i) ++
    (if y = 0 ∧ x ≤ 15 then [272 + x] else []) ++ (if y = 15 ∧ x ≤ 15 then [288 + x] else []) ++
    (if x = 16 then [336 + y] else []) ++ (if x = 0 ∧ (y = 7 ∨ y = 8) then [352] else [])

/-- The voting neighbours of a tile of a region other than its router (R371). -/
def tileNeighbours (t : Nat) : List Nat :=
  if t < 272 then cellNeighbours (t % 17) (t / 17)
  else if t < 288 then [t - 272, t + 32] ++ (besideIn 16 (t - 272)).map (272 + ·)
  else if t < 304 then [17 * 15 + (t - 288), t + 32] ++ (besideIn 16 (t - 288)).map (288 + ·)
  else if t < 320 then [t - 32] ++ (besideIn 16 (t - 304)).map (304 + ·)
  else if t < 336 then [t - 32] ++ (besideIn 16 (t - 320)).map (320 + ·)
  else if t < 352 then [17 * (t - 336) + 16] ++ (besideIn 16 (t - 336)).map (336 + ·)
  else if t = 352 then [17 * 7, 17 * 8]
  else []

/-- The regions whose routers neighbour a region's router (R371). -/
def routerNeighbours (r : Nat) : List Nat :=
  let d := 48 * dieOf r
  let j := r % 48
  (besideIn 6 (j / 8)).map (fun row => d + 8 * row + j % 8) ++ (besideIn 8 (j % 8)).map (fun c => d + 8 * (j / 8) + c)

/-- The tiles of a column whose island is not ON are dormant (R372). -/
def State.dormant (s : State) (r : Nat) : Bool := spGet .on s.pkg.vf (10 * dieOf r + r % 8) != .on

/-- The voting neighbours of a tile; a dormant tile is a neighbour of none (R371, R372). -/
def State.neighbours (s : State) (t : TileId) : List TileId :=
  if t.2 = routerTile then ((routerNeighbours t.1).filter (fun r => !(s.dormant r))).map (fun r => (r, routerTile))
  else if s.dormant t.1 then [] else (tileNeighbours t.2).map (fun i => (t.1, i))

/-- The island whose clock a tile runs on: its region's column, or the one that holds the die router (R28, R378). -/
def tileIsland (t : TileId) : Nat := 10 * dieOf t.1 + if t.2 = dieRouterTile then 9 else t.1 % 8

/-- Whether a tile's clock stands: it sends no beats, receives none and votes on nothing (R372). -/
def State.asleep (s : State) (t : TileId) : Bool := spGet .on s.pkg.vf (tileIsland t) != .on

/-- A tile's record. -/
def State.tile (s : State) (t : TileId) : Tile := spGet {} (s.reg t.1).tiles t.2
/-- Changes a tile's record. -/
def State.modTile (s : State) (t : TileId) (f : Tile → Tile) : State :=
  s.modReg t.1 (fun g => { g with tiles := spInsert g.tiles t.2 (f (spGet {} g.tiles t.2)) })
/-- What a tile holds about another: kept under its identity. -/
def Tile.about (x : Tile) (t : TileId) : Watch := spGet {} x.watch (tileIdent t)
/-- Changes what a tile holds about another. -/
def State.modWatch (s : State) (x t : TileId) (f : Watch → Watch) : State :=
  s.modTile x (fun v => { v with watch := spInsert v.watch (tileIdent t) (f (v.about t)) })

/-- The state of a tile at the start of a period (R376). -/
def Tile.stateAt (v : Tile) (per : Nat) : Nat := ((v.past.find? (fun e => decide (e.1 ≤ per))).map Prod.snd).getD 0

/-- A tile takes a state in a period: that is how it stands at the start of the next (R376, R379). -/
def Tile.become (v : Tile) (per st : Nat) : Tile :=
  { v with state := st, past := (per + 1, st) :: v.past.filter (fun e => decide (e.1 ≤ per)) }

/-- Whether a tile is treated as absent since boot (R386). -/
def Tile.absent (v : Tile) : Bool := v.state == 6 && v.silent

/-- The number of a tile's current period, those of the package before its island left OFF and while it was in HOLD counted in (R372,
log 16). -/
def State.per (s : State) (t : TileId) : Nat := (spGet (0, 0) s.pkg.clocks (tileIsland t)).1 + (s.tile t).period

/-- Whether a tile was dormant in a period of the package, which a tile of another island may come to end only afterwards (R372). -/
def State.napped (s : State) (t : TileId) (per : Nat) : Bool :=
  (spGet [] s.pkg.naps (tileIsland t)).any (fun e => decide (e.1 ≤ per) && decide (per < e.2))

/-- The live neighbours of a tile, by the states at the start of a period; one that was dormant in it is a neighbour of none (R372,
R376). -/
def State.liveNeighbours (s : State) (t : TileId) (per : Nat) : List TileId :=
  (s.neighbours t).filter (fun n => tileLive ((s.tile n).stateAt per) && !(s.napped n per))

/-- The router that watches a tile with fewer than two live neighbours: the region router, or the die router for a region
router (R377, R378). -/
def observer (t : TileId) : TileId := if t.2 = routerTile then (48 * dieOf t.1, dieRouterTile) else (t.1, routerTile)

/-- The tiles that a tile's beats reach: its neighbours, its peers, and its router (R371, R372). -/
def State.audience (s : State) (t : TileId) : List TileId :=
  if t.2 = dieRouterTile then []
  else
    let ns := s.neighbours t
    ((ns ++ ns.flatMap s.neighbours ++ [observer t]).filter (fun x => x != t)).eraseDups

/-! ## The state digest (R373) -/

/-- The logical cell at a physical position, if it holds one while column `s` is out of service (R383). -/
def logicalCell (s t : Nat) : Option Nat :=
  let x := t % 17
  let y := t / 17
  if x = s then none else some (16 * y + if x < s then x else x - 1)

/-- One bit of CRC-32C, the least significant first. -/
def crcBit (c : BitVec 32) : BitVec 32 := if c.getLsbD 0 then (c >>> 1) ^^^ 0x82F63B78#32 else c >>> 1
/-- One byte of CRC-32C. -/
def crcByte (c : BitVec 32) (b : Byte) : BitVec 32 := (List.range 8).foldl (fun x _ => crcBit x) (c ^^^ b.zeroExtend 32)
/-- CRC-32C, the Castagnoli code with all ones before and after (R373, log 16). -/
def crc32c (bs : List Byte) : BitVec 32 := bs.foldl crcByte 0xFFFFFFFF#32 ^^^ 0xFFFFFFFF#32

/-- The fields of a latched descriptor, as numbers. -/
def Desc.fields (d : Desc) : List Nat :=
  [d.mode, d.dir, d.bmask.toNat, d.width, d.planes, d.tag.toNat, d.burst, d.index, d.filter, (d.scale % 2 ^ 16).toNat, d.base] ++ d.trip ++
    d.stride.map (fun (x : Int) => (x % 2 ^ 32).toNat) ++ [(d.bitmap % 2 ^ 32).toNat, d.seed.toNat]

/-- The configuration state of a tile other than a cell (R373). DESIGN CHOICE (log 16): a memory tile's is the bind entries of the active
bank at its place, an address generator's the descriptors of its streams, an edge unit's its record's words and its bind entries, the
sequencer's its STATUS and TVEC, and a router's the bindings of its region's tags. -/
def Region.tileConf (g : Region) (t : Nat) : List Nat :=
  let binds := fun (l : List (Nat × Nat)) =>
    ((g.bank g.cur).bound.filter (fun e => l.contains (e.kind, e.pos))).flatMap (fun e => [e.stream, e.kind, e.pos, e.idx])
  if t < 288 then binds [(0, t - 272), (2, t - 272)]
  else if t < 304 then binds [(1, t - 288), (3, t - 288)]
  else if t < 336 then (List.range 4).flatMap (fun i =>
    let v := g.stream (4 * (t - 304) + i)
    if v.state = 0 then [0] else v.state :: v.desc.fields)
  else if t < 352 then binds [(4, t - 336), (5, t - 336)] ++
    (match (g.bank g.cur).img.bind (fun b => b.edges.find? (fun e => e.row == t - 336)) with
     | some c => c.ops.map BitVec.toNat ++ c.routes.map BitVec.toNat
     | none => [])
  else if t = 352 then [g.seq.status.toNat, g.seq.tvec.toNat]
  else g.tags.flatMap (fun e => match e.2.task with | some i => [e.1, i] | none => [])

/-- What a tile's state digest covers before the state byte: the words of a cell's record in the active bank, none where it has no record
there, or the configuration state of another tile (R373, log 16). -/
def State.digestBytes (s : State) (t : TileId) : List Byte :=
  let g := s.reg t.1
  let rec' := (if t.2 < 272 then logicalCell g.spare t.2 else none).bind (fun c =>
    (g.bank g.cur).img.bind (fun b => b.cells.find? (fun x => 16 * x.y + x.x == c)))
  match rec' with
  | some x => Config.bankBytes x.ops x.routes x.regs
  | none => if t.2 < 272 then Config.bankBytes [] [] [] else Config.tileBytes (tileIdent t) (g.tileConf t.2)

/-- The state digest of a tile (R373). -/
def State.stateDigest (s : State) (t : TileId) : BitVec 32 := crc32c (s.digestBytes t ++ [BitVec.ofNat 8 (s.tile t).state])

/-! ## Sending beats (R372, R373) -/

/-- A tile sends a beat to its audience, and one about a subject to that tile and its neighbours too (R375, R376). -/
def State.sendBeat (s : State) (t : TileId) (kind : Nat) (subject : Option TileId) (payload : BitVec 32) : State :=
  let x := s.tile t
  let b : Beat := { dst := 0, seq := (x.seq + 1) % 2 ^ 16, kind := kind, state := x.state, zeros := !x.babbling, sender := tileIdent t
                    subject := (subject.map tileIdent).getD 0, payload := payload, per := s.per t }
  let also := match subject with | some u => u :: s.neighbours u | none => []
  let dsts := ((s.audience t ++ also).filter (fun u => u != t)).eraseDups
  (s.modTile t (fun v => { v with seq := (v.seq + 1) % 2 ^ 16 })).modPkg (fun k =>
    { k with beats := k.beats ++ dsts.map (fun u => { b with dst := tileIdent u }) })

/-- A tile has sent its beats of the period (R372, R379, R385). -/
def Tile.beaten (v : Tile) (digest : BitVec 32) : Tile :=
  { v with sent := v.period + 1, digest := digest, probation := if v.state = 5 then v.probation + 1 else v.probation
           appealBeats := if v.state = 4 then v.appealBeats + 1 else v.appealBeats }

/-- HEARTBEAT_PERIOD: once in every period a tile sends its heartbeat with its digest, whatever its state, and an APPEALING one its
appeal with its signature too; a tile that has fallen silent sends none (R372, R373, R374, R385). -/
def State.heartbeatPeriod (s : State) (t : TileId) : State :=
  let x := s.tile t
  if s.asleep t ∨ x.silent ∨ x.period < x.sent then s
  else
    let s1 := (s.modTile t (fun v => v.beaten (s.stateDigest t))).sendBeat t 0 none (s.stateDigest t)
    if x.state = 4 then s1.sendBeat t 4 none x.sig else s1

/-- HEARTBEAT_PERIOD (R372). -/
def execHeartbeatPeriod (r t : Nat) (s : State) : Out :=
  if r < 192 ∧ t < 354 then .next (s.heartbeatPeriod (r, t)) else .fault .noSuchUnit

/-! ## Receiving beats (R374, R375, R385) -/

/-- Whether a tile keeps counts about another: its voting neighbours, and a router for what has fewer than two live neighbours (R374,
R377, R378). -/
def State.watches (s : State) (x t : TileId) : Bool :=
  (s.neighbours t).contains x || (observer t == x && decide ((s.liveNeighbours t (s.per x)).length ≤ 1))

/-- Whether a beat keeps to R373: the fields that are zero, the type, the state, and a subject and a payload only where the type has
them. -/
def Beat.wellFormed (b : Beat) : Bool :=
  b.zeros && decide (b.kind ≤ 5) && decide (b.state ≤ 6) && (b.subject == 0 || !(b.kind == 0 || b.kind == 4)) &&
    (b.payload == 0 || b.kind == 0 || b.kind == 4)

/-- Counts an event of babble (R374). -/
def Watch.babbleEvent (w : Watch) : Watch := { w with babble := Nat.min 3 (w.babble + 1), babbled := true, appeals := 0 }

/-- What a received beat does to the counts about its sender, and whether the beat counts: one of another period, or a second heartbeat
in a period, comes when none is due. The seq of every beat is that of the last received, one that breaks R373 included (R374). -/
def Watch.receive (w : Watch) (b : Beat) (per : Nat) : Watch × Bool :=
  if !b.wellFormed then ({ w.babbleEvent with lastSeq := b.seq }, false)
  else if b.seq = w.lastSeq then (w, false)
  else if b.seq ≠ (w.lastSeq + 1) % 2 ^ 16 then ({ w.babbleEvent with lastSeq := b.seq }, false)
  else if b.per ≠ per ∨ (b.kind = 0 ∧ w.beat) then ({ w.babbleEvent with lastSeq := b.seq }, true)
  else if b.kind = 0 then ({ w with lastSeq := b.seq, miss := 0, beat := true }, true)
  else ({ w with lastSeq := b.seq }, true)

/-- The oldest beat for a tile, with the others; a beat of a period that has not begun for the tile is still on its way. -/
def State.nextBeat (s : State) (x : TileId) : Option (Beat × List Beat) :=
  takeFirst (fun b => b.dst == tileIdent x && decide (b.per ≤ s.per x)) s.pkg.beats

/-- A tile takes its oldest beat, if it is one that the event is for: the counts are kept, then a beat that counts has its
effect. A router knows the count of beats of the tiles that it may come to observe (R377). -/
def State.takeBeat (s : State) (x : TileId) (mine : Beat → Bool) (f : State → Beat → State) : State :=
  match s.nextBeat x with
  | none => s
  | some (b, rest) =>
    if !(mine b) then s
    else
      let from' := identTile b.sender
      let s1 := s.modPkg (fun k => { k with beats := rest })
      if s.asleep x then s1
      else if s1.watches x from' then
        let y := ((s1.tile x).about from').receive b (s1.per x)
        let s2 := s1.modWatch x from' (fun _ => y.1)
        if y.2 then f s2 b else s2
      else
        let s2 := if observer from' = x then s1.modWatch x from' (fun w => { w with lastSeq := b.seq }) else s1
        if b.wellFormed then f s2 b else s2

/-- Beats of one kind that keep to R373. -/
def Beat.is (kind : Nat) (b : Beat) : Bool := b.wellFormed && b.kind == kind

/-- HEARTBEAT: a heartbeat, or a beat that breaks R373 (R374). -/
def execHeartbeat (r t : Nat) (s : State) : Out :=
  if r < 192 ∧ t < 355 then .next (s.takeBeat (r, t) (fun b => !b.wellFormed || b.kind == 0) (fun st _ => st)) else .fault .noSuchUnit

/-- An accusation is counted, or renewed (R375). -/
def Tile.accused (v : Tile) (by' subject : Nat) : Tile :=
  { v with accusations := v.accusations.filter (fun a => !(a.1 == by' && a.2.1 == subject)) ++ [(by', subject, 0)] }

/-- Whether a router endorses a beat: its sender is another router, which it holds in HEALTHY or PROBATION, and the subject is a tile of
the sender's region without a live neighbour (R377). -/
def State.endorses (s : State) (x : TileId) (b : Beat) : Bool :=
  let o := identTile b.sender
  let t := identTile b.subject
  let st := (s.tile o).stateAt (s.per x)
  x.2 == routerTile && o.2 == routerTile && o.1 != x.1 && t.1 == o.1 && t.2 != routerTile && (st == 0 || st == 5) &&
    (s.liveNeighbours t (s.per x)).isEmpty

/-- An endorsing router forwards the beat to its sender (R377). -/
def State.forward (s : State) (x : TileId) (b : Beat) : State :=
  if s.endorses x b then s.sendBeat x b.kind (some (identTile b.subject)) 0 else s

/-- ACCUSE (R375, R377). -/
def execAccuse (r t : Nat) (s : State) : Out :=
  if r < 192 ∧ t < 355 then
    .next (s.takeBeat (r, t) (Beat.is 1) (fun st b => (st.modTile (r, t) (fun v => v.accused b.sender b.subject)).forward (r, t) b))
  else .fault .noSuchUnit

/-- WITHDRAW (R375). -/
def execWithdraw (r t : Nat) (s : State) : Out :=
  if r < 192 ∧ t < 355 then
    .next (s.takeBeat (r, t) (Beat.is 2) (fun st b => st.modTile (r, t) (fun v =>
      { v with accusations := v.accusations.filter (fun a => !(a.1 == b.sender && a.2.1 == b.subject)) })))
  else .fault .noSuchUnit

/-- FENCE_BEAT: the subject learns that it is isolated and goes to its self-test; another tile closes its links at the end of the
period (R376, R379). -/
def State.fenced (s : State) (x : TileId) (b : Beat) : State :=
  if b.subject = tileIdent x then s.modTile x (fun v => if v.state = 2 then { v.become (s.per x) 3 with since := 0 } else v)
  else s.modTile x (fun v => { v with fenced := natInsert v.fenced b.subject })

/-- FENCE_BEAT (R376). -/
def execFenceBeat (r t : Nat) (s : State) : Out :=
  if r < 192 ∧ t < 355 then .next (s.takeBeat (r, t) (Beat.is 3) (fun st b => st.fenced (r, t) b)) else .fault .noSuchUnit

/-- An appeal beat: a signature that matches the golden value adds 1, another resets the count (R385). -/
def State.appealHeard (s : State) (x : TileId) (b : Beat) : State :=
  let t := identTile b.sender
  let good := s.pkg.golden.any (fun e => e.1 == tileKind t.2 && e.2 == b.payload)
  if s.watches x t then s.modWatch x t (fun w => { w with appealed := true, appeals := if good then w.appeals + 1 else 0 }) else s

/-- APPEAL (R385). -/
def execAppeal (r t : Nat) (s : State) : Out :=
  if r < 192 ∧ t < 355 then .next (s.takeBeat (r, t) (Beat.is 4) (fun st b => st.appealHeard (r, t) b)) else .fault .noSuchUnit

/-- ADMIT: a vote for the re-admission of the subject (R377, R385). -/
def execAdmitBeat (r t : Nat) (s : State) : Out :=
  if r < 192 ∧ t < 355 then
    .next (s.takeBeat (r, t) (Beat.is 5) (fun st b => (st.modTile (r, t) (fun v =>
      { v with admits := v.admits.filter (fun a => a != (b.sender, b.subject)) ++ [(b.sender, b.subject)] })).forward (r, t) b))
  else .fault .noSuchUnit

/-! ## The self-test of an isolated tile (R379, R385) -/

/-- BIST_END: a tile in TESTING has its signature and appeals; whether a tile that fell silent or babbled still does is free (R379,
R385, log 13). -/
def State.bistEnd (s : State) (t : TileId) : State :=
  s.modTile t (fun v =>
    if v.state = 3 then
      { v.become (s.per t) 4 with sig := Config.bist (tileIdent t) s.steps, appealBeats := 0
                                  silent := v.silent && Config.freeBool s.steps 0, babbling := v.babbling && Config.freeBool s.steps 1 }
    else v)

/-- BIST_END (R379). -/
def execBistEnd (r t : Nat) (s : State) : Out := if r < 192 ∧ t < 354 then .next (s.bistEnd (r, t)) else .fault .noSuchUnit

/-- APPEAL_LIMIT: after 4,096 appeal beats without admission the tile tests itself again (R379). -/
def State.appealLimit (s : State) (t : TileId) : State :=
  s.modTile t (fun v => if v.state = 4 ∧ 4096 ≤ v.appealBeats then { v.become (s.per t) 3 with appealBeats := 0 } else v)

/-- APPEAL_LIMIT (R379). -/
def execAppealLimit (r t : Nat) (s : State) : Out := if r < 192 ∧ t < 354 then .next (s.appealLimit (r, t)) else .fault .noSuchUnit

/-- PROBATION_END: 2^20 heartbeats with no isolation (R379). -/
def State.probationEnd (s : State) (t : TileId) : State :=
  s.modTile t (fun v => if v.state = 5 ∧ 2 ^ 20 ≤ v.probation then { v.become (s.per t) 0 with probation := 0 } else v)

/-- PROBATION_END (R379). -/
def execProbationEnd (r t : Nat) (s : State) : Out := if r < 192 ∧ t < 354 then .next (s.probationEnd (r, t)) else .fault .noSuchUnit

/-- TILE_FALLS_SILENT: a tile fails and sends no heartbeats any more, or starts to babble (R374). -/
def execTileFallsSilent (r t : Nat) (babble : Bool) (s : State) : Out :=
  if r < 192 ∧ t < 354 then
    .next (s.modTile (r, t) (fun v => if babble then { v with babbling := true } else { v with silent := true }))
  else .fault .noSuchUnit

/-! ## Errors on links (R222, R374, R387) -/

/-- A babble event that a tile counts about another. -/
def State.babbleAt (s : State) (x t : TileId) : State := if s.watches x t then s.modWatch x t Watch.babbleEvent else s

/-- The physical position of a logical cell while column `s` is out of service (R383). -/
def physicalCell (s c : Nat) : Nat := 17 * (c / 16) + if c % 16 < s then c % 16 else c % 16 + 1

/-- A data word that fails on a link is poison; a bubble is no word. -/
def GWord.failed (w : GWord) : GWord := if w.kind.toNat ≤ 1 then { w with kind := 3 } else w
/-- The same for a word of a FIFO. -/
def QWord.failed (q : QWord) : QWord := { q with w := q.w.failed }

/-- Changes the word at a place of a FIFO, or every word where no place is given. -/
def changeWord (f : QWord → QWord) (l : List QWord) (i : Option Nat) : List QWord :=
  l.zipIdx.map (fun (e : QWord × Nat) => if i = none ∨ i = some e.2 then f e.1 else e.1)

/-- A word in a memory tile's output FIFO fails, but for one of a round that has been computed and is committing: a fault of such a
round can only be one of its held stores (R352, R380). -/
def Region.failOut (g : Region) (q : QWord) : QWord :=
  if (g.bank q.bank).running && decide (q.rnd < (g.bank q.bank).computing) then q else q.failed

/-- The word in a cell's link register fails (R224, R233). -/
def Region.failReg (g : Region) (c dir : Nat) : Region :=
  let v := g.cell c
  g.setCell c { v with links := v.links.zipIdx.map (fun (e : GWord × Nat) => if e.2 = dir then e.1.failed else e.1) }

/-- A word fails, or every word, of the retiming FIFO of a directed link, of a memory tile's output or input FIFO, or of an edge unit's
lane or cell FIFO (R224, R233). -/
def Region.failRetim (g : Region) (k : Nat) (i : Option Nat) : Region :=
  { g with retim := spInsert g.retim k (changeWord QWord.failed (spGet [] g.retim k) i) }
def Region.failMemOut (g : Region) (n : Nat) (i : Option Nat) : Region :=
  { g with memOut := spInsert g.memOut n (changeWord g.failOut (spGet [] g.memOut n) i) }
def Region.failMemIn (g : Region) (n : Nat) (i : Option Nat) : Region :=
  { g with memIn := spInsert g.memIn n (changeWord QWord.failed (spGet [] g.memIn n) i) }
def Region.failLane (g : Region) (y : Nat) (i : Option Nat) : Region :=
  g.setEdge y { g.edge y with lane := changeWord QWord.failed (g.edge y).lane i }
def Region.failEdge (g : Region) (y : Nat) (i : Option Nat) : Region :=
  g.setEdge y { g.edge y with cell := changeWord QWord.failed (g.edge y).cell i }

/-- The word of a data link that fails is poison to its consumer (R222, R233, R374). -/
def Region.failLink (g : Region) : Link → Region
  | .sideBand _ _ => g
  | .routerBand _ => g
  | .routers _ none => g
  | .routers _ (some i) => { g with mesh := changeWord QWord.failed g.mesh (some i) }
  | .cells c dir none => g.failReg c dir
  | .cells c dir (some i) => g.failRetim (4 * c + dir) (some i)
  | .memory n true i => g.failMemOut n (some i)
  | .memory n false i => g.failMemIn n (some i)
  | .generator n true i => g.failMemIn n (some i)
  | .generator n false i => g.failMemOut n (some i)
  | .lane y i => g.failLane y (some i)
  | .edge y i => g.failEdge y (some i)
  | .router y true i => { g with rows := spInsert g.rows y (changeWord QWord.failed (spGet [] g.rows y) (some i)) }
  | .router _ false i => { g with loc := changeWord QWord.failed g.loc (some i) }

/-- The tiles that a link of region `r` joins, from and to. -/
def Region.linkTiles (g : Region) (r : Nat) : Link → Option (TileId × TileId)
  | .sideBand a b => some ((r, a), (r, b))
  | .cells c dir _ => (neighbour c dir).map (fun d => ((r, physicalCell g.spare c), (r, physicalCell g.spare d)))
  | .memory n fromCell _ =>
    let cell := physicalCell g.spare (if n < 16 then n else 240 + (n - 16))
    if n < 32 then some (if fromCell then ((r, cell), (r, 272 + n)) else ((r, 272 + n), (r, cell))) else none
  | .generator n toTile _ => if n < 32 then some (if toTile then ((r, 304 + n), (r, 272 + n)) else ((r, 272 + n), (r, 304 + n))) else none
  | .lane y _ => if y < 16 then some ((r, physicalCell g.spare (16 * y + 15)), (r, 336 + y)) else none
  | .edge y _ => if y < 16 then some ((r, 336 + y), (r, physicalCell g.spare (16 * y + 15))) else none
  | .router y toCell _ =>
    let cell := physicalCell g.spare (16 * y)
    if y < 16 then some (if toCell then ((r, routerTile), (r, cell)) else ((r, cell), (r, routerTile))) else none
  | .routers a _ => if (routerNeighbours r).contains a then some ((a, routerTile), (r, routerTile)) else none
  | .routerBand a => if (routerNeighbours r).contains a then some ((a, routerTile), (r, routerTile)) else none

/-- Whether a link belongs to the side band. -/
def Link.isBand : Link → Bool
  | .sideBand _ _ => true
  | .routerBand _ => true
  | _ => false

/-- A beat or a word on a link fails its ECC, or the word is of a reserved kind: the beat, the oldest under way, is lost, the word is
poison to its consumer, and the tile that receives it counts an event of babble about the one that sent it (R222, R233, R374, R378,
R387). -/
def State.linkError (s : State) (r : Nat) (l : Link) : State :=
  match (s.reg r).linkTiles r l with
  | none => s
  | some (a, b) =>
    let s1 := if l.isBand then
        s.modPkg (fun k => { k with beats := k.beats.eraseP (fun x => x.dst == tileIdent b && x.sender == tileIdent a) })
      else s.modReg r (fun g => g.failLink l)
    s1.babbleAt b a

end Sys2Proof.Machine
end

