-- ==== Sys2Proof/Machine/Isolation.lean ====
section
/-!
DEFINITION. What an isolation brings (R380 to R384, R386), the remap (R383), and the end of a period with its votes (R374 to R379,
R385).
-/
namespace Sys2Proof.Machine

/-! ## Columns (R383) -/

/-- Whether the spare is free: every cell of the column out of service is HEALTHY (R384). -/
def Region.spareFree (g : Region) : Bool := (List.range 16).all (fun y => g.tileState (17 * y + g.spare) == 0)

/-- Whether a cell's ring words name its pad or load an accumulator entry: its block cannot be replayed elsewhere (R383). -/
def CellRec.pinned (c : CellRec) : Bool :=
  c.ops.any (fun w => opCode w == 0x31 || opCode w == 0x26) || c.routes.any (fun w => routeA w == 6 || routeB w == 6)

/-- Whether a bank's block uses a cell in a way that cannot be replayed (R383). -/
def Bank.pinnedBy (b : Bank) (cell : Nat) : Bool :=
  b.running && (b.img.any (fun i => i.cells.any (fun c => 16 * c.y + c.x == cell && c.pinned)))

/-- NEIGHBOUR_ISOLATED (R380). -/
def isolatedCause (t : TileId) (lost : Bool) : Pend :=
  { cause := Cause.neighbourIsolated, finfo := BitVec.ofNat 64 (tileIdent t + if lost then 2 ^ 32 else 0) }

/-! ## The retirement of a region (R384) -/

/-- A partition is reset with SELF_ISOLATED; when the router went, a detour may not be found (R384). -/
def State.selfIsolated (s : State) (p : Nat) (detour : Bool) : State :=
  s.fatal p { cause := Cause.selfIsolated, delivered := Cause.selfIsolated, region := 255, resume := 0, first := 0, fva := 0, detour := detour }

/-- A region retires: it leaves the partitionable set, and every partition with a die graph on it is reset; when its router is
isolated, so is every partition whose route crosses it, for which slots on a detour are reserved; a migration source, which has no
regions, keeps the slots that it has elsewhere (R144, R384, R398, log 84). -/
def State.retire (s : State) (r : Nat) (router : Bool) : State :=
  let bit := BitVec.ofNat 192 (2 ^ r)
  let cut := fun (v : Part) => router && v.crosses r
  let hit := fun (v : Part) => v.dieGraphs.any (fun e => e.2.2.reserves r) || cut v
  let s1 := (s.parts.filter (fun e => hit e.2)).foldl (fun (st : State) (e : Nat × Part) =>
    if cut e.2 then match (if e.2.set = 48 then some (e.2.slots.filter (fun x => x.1.router != some r))
        else st.reserveSlots e.1 (e.2.regions &&& ~~~bit)) with
      | none => st.selfIsolated e.1 false
      | some l => (st.modPart e.1 (fun v => { v with slots := l })).selfIsolated e.1 true
    else st.selfIsolated e.1 true) s
  let s2 := s1.modPkg (fun k => { k with retired := k.retired ||| bit })
  { s2 with parts := s2.parts.map (fun e => (e.1, { e.2 with regions := e.2.regions &&& ~~~bit }))
            sets := s2.sets.map (fun e => (e.1, { e.2 with regions := e.2.regions &&& ~~~bit })) }

/-! ## Fold windows of an isolated edge unit (R381, R382) -/

/-- Operations on their way to the owner come back, one that it had accepted and not written through is lost, its shadows are lost, and
its windows are to be re-homed (R381, R382). A fold with r = 1 that is lost so is a return that the owner cannot make: it comes back as an
orphan, which empties its slot (R327; DEDUCED, log 118). -/
def State.loseOwner (s : State) (o : Nat × Nat) : State :=
  let mine := s.parts.flatMap (fun e => (e.2.windows.zipIdx.filter (fun (w : Window × Nat) => w.1.owner == some o)).map (fun w => (e.1, w.2)))
  s.modPkg (fun k =>
    { k.setShadows o [] with
      folds := (k.folds.filter (fun (m : FoldMsg) => !(m.held && m.owner == o && !m.r))).map (fun (m : FoldMsg) =>
        if m.owner = o then { m with orphan := true, held := false } else m)
      rehoming := k.rehoming ++ mine.filter (fun x => !(k.rehoming.contains x)) })

/-! ## An isolation (R380, R386) -/

/-- Whether an isolation retires the tile: it is in PROBATION, or this is its fourth in 24 hours (R386). -/
def Tile.retires (v : Tile) (now : Nat) : Bool :=
  v.state == 5 || decide (3 ≤ (v.isolations.filter (fun t => decide (now - t < 86400 * 10 ^ 9))).length)

/-- The cause of an isolation goes to the sequencer of the tile's region, or of the regions beside an isolated router (R380). -/
def State.tellIsolation (s : State) (t : TileId) (lost : Bool) : State :=
  if t.2 = routerTile then (routerNeighbours t.1).foldl (fun (st : State) (r : Nat) => st.queueCause r (isolatedCause t false)) s
  else s.queueCause t.1 (isolatedCause t lost)

/-- The data words that a tile owes to its closed links are poison to their consumers (R380). -/
def Region.owePoison (g : Region) (t : Nat) : Region :=
  if t < 272 then match logicalCell g.spare t with
    | none => g
    | some c =>
      let g1 := (List.range 4).foldl (fun (x : Region) (dir : Nat) => (x.failReg c dir).failRetim (4 * c + dir) none) g
      let g2 := if c / 16 = 0 then g1.failMemOut c none else if c / 16 = 15 then g1.failMemOut (16 + c % 16) none else g1
      if c % 16 = 15 then g2.failLane (c / 16) none else g2
  else if t < 304 then g.failMemIn (t - 272) none
  else if 336 ≤ t ∧ t < 352 then g.failEdge (t - 336) none
  else g

/-- What becomes of the region: an isolated cell that holds a logical position is remapped while the spare is free, or else the region
retires; FINFO says in both cases whether a block cannot be replayed (R380, R383, R384). -/
def State.regionAfter (s : State) (t : TileId) (retired : Bool) : State :=
  let g := s.reg t.1
  if isSpareCell g.spare t.2 then s.tellIsolation t false
  else
    let c := if t.2 < 272 then logicalCell g.spare t.2 else none
    let lostA := c.any g.bankA.pinnedBy
    let lostB := c.any g.bankB.pinnedBy
    match c with
    | some cell =>
      if g.spareFree ∧ !retired then
        let s1 := s.modReg t.1 (fun x0 =>
          let x := x0.owePoison t.2
          let y := if lostA then x.abortBank false else x
          let z := if lostB then y.abortBank true else y
          { z.voidBlocks with remapping := z.remapping ++ [cell] })
        s1.tellIsolation t (lostA || lostB)
      else ((s.modReg t.1 (fun x => (x.owePoison t.2).voidBlocks)).tellIsolation t (lostA || lostB)).retire t.1 false
    | none => ((s.modReg t.1 (fun x => (x.owePoison t.2).voidBlocks)).tellIsolation t false).retire t.1 (t.2 == routerTile)

/-- A tile is isolated by vote at the end of a period; TD logs it with the digest of its last heartbeat (R379, R380, R386). -/
def State.isolate (s : State) (t : TileId) (per : Nat) : State :=
  let x := s.tile t
  if !(tileLive x.state) then s
  else
    let retired := x.retires s.tick
    let s1 := (s.modTile t (fun v => { v.become per (if retired then 6 else 2) with
      since := 0, probation := 0, isolations := v.isolations ++ [s.tick] })).modPkg (fun k =>
        { k with log := k.log ++ [.isolation (tileIdent t) s.tick x.digest]
                 retiredTiles := if retired then natInsert k.retiredTiles (tileIdent t) else k.retiredTiles })
    let s2 := if 336 ≤ t.2 ∧ t.2 < 352 then s1.loseOwner (t.1, t.2 - 336) else s1
    s2.regionAfter t retired

/-! ## REMAP (R383) -/

/-- The pad of a cell goes from what a bank's rounds start from (R349, R383). -/
def Bank.dropPad (b : Bank) (c : Nat) : Bank :=
  { b with checks := b.checks.map (fun k => { k with cells := k.cells.map (fun e => if e.1 = c then (e.1, { e.2 with pad := [] }) else e) }) }

/-- The cell that takes a logical position starts from the mirrored checkpoint with a pad of zeros (R383). The other cells stand at
theirs: every block that runs was voided at the isolation, or waits for the remap since it was started or restored (R353, R387, log 119). -/
def Region.remapCell (g : Region) (c : Nat) : Region :=
  { g.setCell c { spGet {} g.mirrors c with pad := [] } with bankA := g.bankA.dropPad c, bankB := g.bankB.dropPad c }

/-- The isolated cells of a column are remapped, and the column goes out of service (R383). -/
def Region.remapColumn (g : Region) (x : Nat) : Region :=
  { (g.remapping.filter (fun c => c % 16 == x)).foldl Region.remapCell g with spare := if x < g.spare then x else x + 1, remapping := [] }

/-- REMAP: the column of the cell that was isolated first goes out of service; a cell of another column that waits finds the spare
taken, and the region retires (R383, R384). -/
def State.remap (s : State) (r : Nat) : State :=
  let g := s.reg r
  match g.remapping with
  | [] => s
  | c :: l =>
    let s1 := s.setReg r (g.remapColumn (c % 16))
    if l.any (fun d => d % 16 != c % 16) then (s1.modReg r Region.voidBlocks).retire r false else s1

/-- REMAP (R383). -/
def execRemap (r : Nat) (s : State) : Out := if r < 192 then .next (s.remap r) else .fault .noSuchUnit

/-! ## PERIOD_END: counts (R374, R375) -/

/-- The counts about one tile at the end of a period; `due` says that the tile sends heartbeats (R374, R385). -/
def Watch.periodEnd (w : Watch) (due appealing : Bool) : Watch :=
  let quiet := if w.babbled then 0 else w.quiet + 1
  { w with
    miss := if !due then w.miss else if w.beat then 0 else Nat.min 3 (w.miss + 1)
    babble := if 16 ≤ quiet then 0 else w.babble
    quiet := if 16 ≤ quiet then 0 else quiet
    appeals := if appealing && !w.appealed then 0 else w.appeals
    beat := false, babbled := false, appealed := false }

/-- Whether the counts accuse (R375). -/
def Watch.accuses (w : Watch) : Bool := w.miss == 3 || w.babble == 3

/-- The tiles about which a tile keeps counts; one that was dormant in the period is a neighbour of none (R372, R374, R377, R378). -/
def State.watched (s : State) (x : TileId) (per : Nat) : List TileId :=
  let few := fun (t : TileId) => decide ((s.liveNeighbours t per).length ≤ 1)
  (if x.2 = dieRouterTile then ((List.range 48).map (fun j => (x.1 + j, routerTile))).filter few
   else if x.2 = routerTile then s.neighbours x ++ ((List.range 353).map (fun i => (x.1, i))).filter few
   else s.neighbours x).filter (fun t => !(s.napped t per))

/-- Whether a heartbeat of a tile is due in every period (R372, R386). -/
def State.beatDue (s : State) (t : TileId) : Bool := !(s.asleep t) && !(s.tile t).absent

/-- The end of a period for what a tile holds about another: counts and flag, and the beats that these call for in the period that
begins; a tile that is not live sends none of these (R374, R375, R379, R385). -/
def State.endWatch (s : State) (x t : TileId) (voter : Bool) : State :=
  let st := (s.tile t).state
  let w := (s.tile x).about t
  let w1 := w.periodEnd (s.beatDue t) (st == 4)
  let s1 := s.modWatch x t (fun _ => { w1 with accuse := w1.accuses })
  if !voter then s1
  else
    let s2 := if w1.accuses then s1.sendBeat x 1 (some t) 0 else if w.accuse then s1.sendBeat x 2 (some t) 0 else s1
    if st = 4 ∧ 64 ≤ w1.appeals then s2.sendBeat x 5 (some t) 0 else s2

/-! ## PERIOD_END: votes (R375 to R379, R385) -/

/-- The tiles whose accusations of a subject a tile has counted, its own among them. -/
def State.accusers (s : State) (x t : TileId) : List TileId :=
  let v := s.tile x
  (if (v.about t).accuse then [x] else []) ++ (v.accusations.filter (fun a => a.2.1 == tileIdent t && identTile a.1 != x)).map (fun a => identTile a.1)

/-- Whether a receiver ignores an accuser: two or more of that tile's own neighbours are counted as accusing it (R375). -/
def State.ignored (s : State) (x a : TileId) : Bool := decide (2 ≤ ((s.accusers x a).filter (fun b => (s.neighbours a).contains b)).length)

/-- The accusers of a tile that count for a receiver. -/
def State.counted (s : State) (x t : TileId) : List TileId := (s.accusers x t).filter (fun a => !(s.ignored x a))

/-- Whether votes reach a majority of some voters. -/
def reaches (l votes : List TileId) : Bool := decide (l.length / 2 + 1 ≤ (l.filter (fun a => votes.contains a)).length)

/-- Whether votes reach the majority that a tile's live neighbours need, or that of its last neighbour and its observer, or its
observer's with the endorsement of a majority of that router's neighbours (R376 to R378, R385). -/
def State.majority (s : State) (t : TileId) (votes : List TileId) (per : Nat) : Bool :=
  let l := s.liveNeighbours t per
  let o := observer t
  let st := (s.tile o).stateAt per
  if 2 ≤ l.length then reaches l votes
  else if l.length = 1 then l.all (fun a => votes.contains a) && votes.contains o
  else votes.contains o && (t.2 == routerTile || ((st == 0 || st == 5) && reaches (s.liveNeighbours o per) votes))

/-- The tiles that vote on a tile: its live neighbours, with its observer where they are fewer than two (R376 to R378). -/
def State.voters (s : State) (t : TileId) (per : Nat) : List TileId :=
  let l := s.liveNeighbours t per
  if l.length ≤ 1 then l ++ [observer t] else l

/-- A tile's links to another close, and every neighbour is told (R376). -/
def State.closeLinks (s : State) (x t : TileId) : State := (s.modWatch x t (fun w => { w with closed := true })).sendBeat x 3 (some t) 0

/-- A tile is re-admitted: links reopen and it enters PROBATION (R379, R385). -/
def State.readmit (s : State) (t : TileId) (per : Nat) : State :=
  let s1 := s.modTile t (fun v => { v.become per 5 with probation := 0, appealBeats := 0 })
  (observer t :: s1.neighbours t).foldl (fun (st : State) (x : TileId) =>
    st.modWatch x t (fun w => { w with closed := false, appeals := 0 })) s1

/-- The vote of a tile on another at the end of a period, by the states at its start: every tile that finds the majority closes its
links and sends a fence beat (R376 to R379, R385). -/
def State.vote (s : State) (x t : TileId) (per : Nat) : State :=
  let v := s.tile t
  let c := s.counted x t
  if tileLive (v.stateAt per) then
    if s.majority t c per then (s.isolate t per).closeLinks x t
    else if v.state = 0 ∧ !c.isEmpty then s.modTile t (fun u => u.become per 1)
    else if v.state = 1 ∧ (s.voters t per).all (fun y => (s.counted y t).isEmpty) then s.modTile t (fun u => u.become per 0)
    else s
  else if v.state = 4 then
    let own := if 64 ≤ ((s.tile x).about t).appeals then [x] else []
    let votes := own ++ ((s.tile x).admits.filter (fun a => a.2 == tileIdent t)).map (fun a => identTile a.1)
    if s.majority t votes per then s.readmit t per else s
  else s

/-- Accusations grow older: one counts for 16 periods after its last beat (R375). -/
def Tile.ageVotes (v : Tile) : Tile :=
  { v with accusations := (v.accusations.map (fun (a : Nat × Nat × Nat) => (a.1, a.2.1, a.2.2 + 1))).filter (fun a => decide (a.2.2 ≤ 16)) }

/-- The links to tiles of which a fence beat has told close, and the next period begins (R376). -/
def Tile.nextPeriod (v : Tile) : Tile :=
  { v with
    watch := v.fenced.foldl (fun l i => spInsert l i { spGet {} l i with closed := true }) v.watch
    fenced := [], period := v.period + 1 }

/-- An isolated tile that finds all its links closed for two periods goes to its self-test (R379). -/
def State.alone (s : State) (t : TileId) (per : Nat) : State :=
  let shut := (s.neighbours t).all (fun x => ((s.tile x).about t).closed)
  s.modTile t (fun v =>
    if v.state ≠ 2 then v
    else if !shut then { v with since := 0 }
    else if 1 ≤ v.since then { v.become per 3 with since := 0 }
    else { v with since := v.since + 1 })

/-- Whether a tile has sent its heartbeat of a period, or sends none: the die router has none, and a tile whose clock stands or which has
failed sends none (R372, R378). -/
def State.beatSent (s : State) (t : TileId) (per : Nat) : Bool :=
  t.2 == dieRouterTile || s.asleep t || (s.tile t).silent || decide (per < s.per t) ||
    (decide (s.per t = per) && decide ((s.tile t).period < (s.tile t).sent))

/-- Whether a period is over for a tile: its clock says so, it and every tile that it watches have sent their heartbeats of the period or
send none, and every beat of the period has reached it (R372, R374, log 16). -/
def State.periodOver (s : State) (x : TileId) : Bool :=
  let per := s.per x
  decide (per < periodsOf s.tick) &&
    (x :: s.watched x per).all (fun t => s.beatSent t per) &&
    s.pkg.beats.all (fun b => b.dst != tileIdent x || decide (per < b.per))

/-- PERIOD_END: a tile updates its counts and flags and evaluates the tiles that it watches; the beats that follow belong to the period
that begins (R374 to R379). -/
def State.periodEnd (s : State) (x : TileId) : State :=
  if s.asleep x ∨ !(s.periodOver x) then s
  else
    let per := s.per x
    let voter := tileLive ((s.tile x).stateAt per)
    let ts := s.watched x per
    let s1 := s.modTile x Tile.nextPeriod
    let s2 := (ts.foldl (fun (st : State) (t : TileId) => st.endWatch x t voter) s1).modTile x Tile.ageVotes
    let s3 := if voter then ts.foldl (fun (st : State) (t : TileId) => st.vote x t per) s2 else s2
    (s3.alone x per).modTile x (fun v => { v with admits := [] })

/-- PERIOD_END (R376). -/
def execPeriodEnd (r t : Nat) (s : State) : Out := if r < 192 ∧ t < 355 then .next (s.periodEnd (r, t)) else .fault .noSuchUnit

end Sys2Proof.Machine
end

