-- ==== Sys2Proof/Machine/Agenda.lean ====
section
/-!
DEFINITION. What a step adds around the meaning of an instruction: time, the stores of host threads, the
temperatures of the dies and what else the world outside does, and the smallest set-up under which a given instruction is the next to be fetched.
-/
namespace Sys2Proof.Machine

/-- Time passes: TICK grows by a free amount, and the model's counter of steps by one (R27, log 4). DESIGN CHOICE (log 106): one counter
serves every die, so TICK on two dies never differs. -/
def State.timePasses (s : State) : State := { s with tick := s.tick + Config.stepTicks s.steps, steps := s.steps + 1 }

/-- A store of a host thread to its own memory (R127, log 3). -/
def State.hostStore (s : State) (pa : Nat) (bytes : List Byte) : State :=
  if pa + bytes.length ≤ 2 ^ 46 then s.modMem (fun m => m.writeN (hostBase + pa) bytes) else s

/-- The junction temperature of a die changes zone (R388, log 3). -/
def State.temperature (s : State) (die : Nat) (zone : TempZone) : State :=
  s.modPkg (fun k => { k with thermal := spInsert k.thermal die { spGet {} k.thermal die with zone := zone, since := s.tick } })

/-- The host's access control refuses other addresses from now on (R127, log 3). -/
def State.hostAccess (s : State) (denied : List (Nat × Nat)) : State := s.modPkg (fun k => { k with denied := denied })

/-- Another package has signed a ticket (R398, log 3, log 11). -/
def State.signature (s : State) (cert ticket : List Byte) : State := s.modPkg (fun k => { k with signed := k.signed ++ [(cert, ticket)] })

/-- Whether an instruction belongs to the sequencer, which only a fetch executes. -/
def isSequencer (i : Instr) : Bool := !(encode i).isEmpty

/-! ## A program for the next step (log 5) -/

/-- Where the set-up keeps its 2 MiB frame and its stage-2 array. -/
def setupFrame : Nat := 0x200000
def setupS2 : Nat := 0x400000

/-- The set-up's memory: a stage-2 entry for the frame, a root table, a table with one 1 GiB leaf, and the bytes at
GPA 0 (R161, R162, R166). -/
def Memory.setup (m : Memory) (bytes : List Byte) : Memory :=
  (((m.writeN setupS2 (toBytes 8 (2 ^ 62 + setupFrame + 2 ^ 8 + 2 ^ 7))).writeN (setupFrame + 0x1000) (toBytes 8 (0x2000 + 1))).writeN
    (setupFrame + 0x2000) (toBytes 8 (1 + 2 + 4 + 8))).writeN setupFrame bytes

/-- A partition for the set-up (R141). -/
def setupPart : Part :=
  { regions := 1, set := 0, keys := 0, keyBase := 0, hostWin := false, key := 0, s2 := setupS2, entries := 1, s1root := 0x1000 }

/-- The sequencer of region 0 stands at VA 0 of partition 0, in normal mode and with nothing pending. -/
def State.setup (s : State) (bytes : List Byte) : State :=
  let s1 := s.modReg 0 (fun g =>
    { g with
      place := some { part := 0, replay := 1, dg := 0, stage := 0, number := 0, lane := 0, width := 1, graph := 0, save := 0 }
      icache := [], tlb := [], marker := false
      seq := { g.seq with pc := 0, run := .boundary, pending := [], waitFrom := none, status := g.seq.status &&& ~~~(1 : Word) } })
  let s2 := s1.setPart 0 { setupPart with ranks := ((s.part? 0).map Part.ranks).getD [] }
  { s2 with agenda := [], cur := 0, mem := s2.mem.setup bytes }

end Sys2Proof.Machine
end

