-- ==== Sys2Proof/Machine/Control.lean ====
section
/-!
DEFINITION. The compare, predicate and control groups (R204 to R210).
-/
namespace Sys2Proof.Machine

/-- A cmp instruction (R204). -/
def State.cmp (s : State) (d : BitVec 3) (a b : BitVec 5) (k : BitVec 3) (f : Word → Word → Bool) : Out :=
  s.guarded k 4 fun s => .next (s.setK d (f (s.seq.gr a) (s.seq.gr b)) 4)

/-- A cmpi or cmpiu instruction (R205). -/
def State.cmpImm (s : State) (d : BitVec 3) (a : BitVec 5) (f : Word → Bool) : Out :=
  .next (s.setK d (f (s.seq.gr a)) 4)

/-- A pred instruction: the sources are read before kd is written (R206). -/
def State.pred (s : State) (d a b k : BitVec 3) (f : Bool → Bool → Bool) : Out :=
  s.guarded k 4 fun s => .next (s.setK d (f (s.seq.kr a) (s.seq.kr b)) 4)

/-- cmp.eq (R204). -/
def execCmpEq (d : BitVec 3) (a b : BitVec 5) (k : BitVec 3) (s : State) : Out := s.cmp d a b k cmpEq
/-- cmp.ne (R204). -/
def execCmpNe (d : BitVec 3) (a b : BitVec 5) (k : BitVec 3) (s : State) : Out := s.cmp d a b k cmpNe
/-- cmp.lt (R204). -/
def execCmpLt (d : BitVec 3) (a b : BitVec 5) (k : BitVec 3) (s : State) : Out := s.cmp d a b k cmpLt
/-- cmp.ltu (R204). -/
def execCmpLtu (d : BitVec 3) (a b : BitVec 5) (k : BitVec 3) (s : State) : Out := s.cmp d a b k cmpLtu
/-- cmp.ge (R204). -/
def execCmpGe (d : BitVec 3) (a b : BitVec 5) (k : BitVec 3) (s : State) : Out := s.cmp d a b k cmpGe
/-- cmp.geu (R204). -/
def execCmpGeu (d : BitVec 3) (a b : BitVec 5) (k : BitVec 3) (s : State) : Out := s.cmp d a b k cmpGeu
/-- cmp.bit (R204). -/
def execCmpBit (d : BitVec 3) (a b : BitVec 5) (k : BitVec 3) (s : State) : Out := s.cmp d a b k cmpBit
/-- cmpi.eq (R205). -/
def execCmpiEq (d : BitVec 3) (a : BitVec 5) (i : BitVec 14) (s : State) : Out := s.cmpImm d a fun x => cmpEq x (i.signExtend 64)
/-- cmpi.ne (R205). -/
def execCmpiNe (d : BitVec 3) (a : BitVec 5) (i : BitVec 14) (s : State) : Out := s.cmpImm d a fun x => cmpNe x (i.signExtend 64)
/-- cmpi.lt (R205). -/
def execCmpiLt (d : BitVec 3) (a : BitVec 5) (i : BitVec 14) (s : State) : Out := s.cmpImm d a fun x => cmpLt x (i.signExtend 64)
/-- cmpi.ge (R205). -/
def execCmpiGe (d : BitVec 3) (a : BitVec 5) (i : BitVec 14) (s : State) : Out := s.cmpImm d a fun x => cmpGe x (i.signExtend 64)
/-- cmpiu.lt (R205). -/
def execCmpiuLt (d : BitVec 3) (a : BitVec 5) (i : BitVec 14) (s : State) : Out := s.cmpImm d a fun x => cmpLtu x (i.setWidth 64)
/-- cmpiu.ge (R205). -/
def execCmpiuGe (d : BitVec 3) (a : BitVec 5) (i : BitVec 14) (s : State) : Out := s.cmpImm d a fun x => cmpGeu x (i.setWidth 64)
/-- pand (R206). -/
def execPand (d a b k : BitVec 3) (s : State) : Out := s.pred d a b k fun x y => x && y
/-- por (R206). -/
def execPor (d a b k : BitVec 3) (s : State) : Out := s.pred d a b k fun x y => x || y
/-- pxor (R206). -/
def execPxor (d a b k : BitVec 3) (s : State) : Out := s.pred d a b k fun x y => xor x y
/-- pandn (R206). -/
def execPandn (d a b k : BitVec 3) (s : State) : Out := s.pred d a b k fun x y => x && !y
/-- pnot (R206). -/
def execPnot (d a k : BitVec 3) (s : State) : Out := s.pred d a a k fun x _ => !x
/-- kmov (R206). -/
def execKmov (d a k : BitVec 3) (s : State) : Out := s.pred d a a k fun x _ => x
/-- kset (R206). -/
def execKset (d : BitVec 3) (a : BitVec 5) (k : BitVec 3) (s : State) : Out :=
  s.guarded k 4 fun s => .next (s.setK d (s.seq.gr a != 0) 4)

/-- br: its condition is a predicate, or its negation (R207). -/
def execBr (c : BitVec 3) (n : BitVec 1) (i : BitVec 20) (s : State) : Out :=
  .next (s.mod fun q => if xor (q.kr c) (n == 1) then q.goto (q.pc + i.signExtend 64 * 4) else q.advance 4)

/-- jmp (R208). -/
def execJmp (i : BitVec 24) (s : State) : Out := .next (s.mod fun q => q.goto (q.pc + i.signExtend 64 * 4))

/-- jal (R208). -/
def execJal (d : BitVec 5) (i : BitVec 19) (s : State) : Out :=
  .next (s.mod fun q => (q.gw d (q.pc + 4)).goto (q.pc + i.signExtend 64 * 4))

/-- jalr: the target is read before d is written, and must be a multiple of 4 (R209). -/
def execJalr (d a : BitVec 5) (i : BitVec 14) (s : State) : Out :=
  let t := s.seq.gr a + i.signExtend 64
  if t &&& 3 != 0 then .next (s.trap Cause.misaligned t (leadOf (.jalr d a i)))
  else .next (s.mod fun q => (q.gw d (q.pc + 4)).goto t)

/-- dbnz (R210). -/
def execDbnz (a : BitVec 5) (i : BitVec 14) (s : State) : Out :=
  let v := s.seq.gr a - 1
  .next (s.mod fun q => let q' := q.gw a v; if v != 0 then q'.goto (q.pc + i.signExtend 64 * 4) else q'.advance 4)

end Sys2Proof.Machine
end

