-- ==== Sys2Proof/Machine/Int.lean ====
section
/-!
DEFINITION. The int, immediate, li and addpc groups (R200 to R203).
-/
namespace Sys2Proof.Machine

/-- An int instruction of three registers (R200). -/
def State.int3 (s : State) (d a b : BitVec 5) (k : BitVec 3) (f : Word → Word → Word) : Out :=
  s.guarded k 4 fun s => .next (s.setG d (f (s.seq.gr a) (s.seq.gr b)) 4)

/-- An int instruction of two registers (R200). -/
def State.int2 (s : State) (d a : BitVec 5) (k : BitVec 3) (f : Word → Word) : Out :=
  s.guarded k 4 fun s => .next (s.setG d (f (s.seq.gr a)) 4)

/-- Bits [127:64] of the signed product (R200). -/
def mulHigh (a b : Word) : Word := BitVec.ofInt 64 (a.toInt * b.toInt / 2 ^ 64)
/-- Bits [127:64] of the unsigned product (R200). -/
def mulHighU (a b : Word) : Word := BitVec.ofNat 64 (a.toNat * b.toNat / 2 ^ 64)
/-- The quotient of div (R201). -/
def quotS (a b : Word) : Word := if b = 0 then BitVec.allOnes 64 else BitVec.ofInt 64 (a.toInt.tdiv b.toInt)
/-- The quotient of divu (R201). -/
def quotU (a b : Word) : Word := if b = 0 then BitVec.allOnes 64 else BitVec.ofNat 64 (a.toNat / b.toNat)
/-- The remainder of rem (R201). -/
def remS (a b : Word) : Word := if b = 0 then a else BitVec.ofInt 64 (a.toInt.tmod b.toInt)
/-- The remainder of remu (R201). -/
def remU (a b : Word) : Word := if b = 0 then a else BitVec.ofNat 64 (a.toNat % b.toNat)
/-- The shift count of a register (R200). -/
def shiftCount (b : Word) : Nat := b.toNat % 64
/-- The bits of a number from bit `lo` up to `n` bits, lowest first. -/
def bitList (v : Nat) : Nat → List Bool
  | 0 => []
  | n + 1 => v.testBit 0 :: bitList (v / 2) n
/-- The set bits of the low `n` bits of a number. -/
def popCount (n v : Nat) : Nat := ((bitList v n).filter id).length
/-- The zero bits above the highest set bit of the low `n` bits. -/
def leadingZeros (n v : Nat) : Nat := ((bitList v n).reverse.takeWhile (fun b => !b)).length
/-- The zero bits below the lowest set bit of the low `n` bits. -/
def trailingZeros (n v : Nat) : Nat := ((bitList v n).takeWhile (fun b => !b)).length
/-- The bytes of a word in the opposite order (R200). -/
def byteSwap (a : Word) : Word := BitVec.ofNat 64 (ofBytes (toBytes 8 a.toNat).reverse)

/-- div, divu, rem and remu: a zero divisor traps when STATUS.dz is set (R201). -/
def State.divide (s : State) (d a b : BitVec 5) (k : BitVec 3) (f : Word → Word → Word) (info : Word) : Out :=
  s.guarded k 4 fun s =>
    if s.seq.gr b == 0 && s.seq.dz then .next (s.trap Cause.divTrap 0 info)
    else .next (s.setG d (f (s.seq.gr a) (s.seq.gr b)) 4)

/-- addsat and subsat: a clamp sets STATUS.sat whatever d holds (R200). -/
def State.saturate (s : State) (d a b : BitVec 5) (k : BitVec 3) (f : Int → Int → Int) : Out :=
  s.guarded k 4 fun s =>
    let r := satWord (f (s.seq.gr a).toInt (s.seq.gr b).toInt)
    .next (s.mod fun q => ((if r.2 then q.setSat else q).gw d r.1).advance 4)

/-- add (R200). -/
def execAdd (d a b : BitVec 5) (k : BitVec 3) (s : State) : Out := s.int3 d a b k fun a b => a + b
/-- sub (R200). -/
def execSub (d a b : BitVec 5) (k : BitVec 3) (s : State) : Out := s.int3 d a b k fun a b => a - b
/-- mul (R200). -/
def execMul (d a b : BitVec 5) (k : BitVec 3) (s : State) : Out := s.int3 d a b k fun a b => a * b
/-- mulh (R200). -/
def execMulh (d a b : BitVec 5) (k : BitVec 3) (s : State) : Out := s.int3 d a b k fun a b => mulHigh a b
/-- mulhu (R200). -/
def execMulhu (d a b : BitVec 5) (k : BitVec 3) (s : State) : Out := s.int3 d a b k fun a b => mulHighU a b
/-- div (R201). -/
def execDiv (d a b : BitVec 5) (k : BitVec 3) (s : State) : Out := s.divide d a b k quotS (leadOf (.div d a b k))
/-- divu (R201). -/
def execDivu (d a b : BitVec 5) (k : BitVec 3) (s : State) : Out := s.divide d a b k quotU (leadOf (.divu d a b k))
/-- rem (R201). -/
def execRem (d a b : BitVec 5) (k : BitVec 3) (s : State) : Out := s.divide d a b k remS (leadOf (.rem d a b k))
/-- remu (R201). -/
def execRemu (d a b : BitVec 5) (k : BitVec 3) (s : State) : Out := s.divide d a b k remU (leadOf (.remu d a b k))
/-- and (R200). -/
def execAnd (d a b : BitVec 5) (k : BitVec 3) (s : State) : Out := s.int3 d a b k fun a b => a &&& b
/-- or (R200). -/
def execOr (d a b : BitVec 5) (k : BitVec 3) (s : State) : Out := s.int3 d a b k fun a b => a ||| b
/-- xor (R200). -/
def execXor (d a b : BitVec 5) (k : BitVec 3) (s : State) : Out := s.int3 d a b k fun a b => a ^^^ b
/-- andn (R200). -/
def execAndn (d a b : BitVec 5) (k : BitVec 3) (s : State) : Out := s.int3 d a b k fun a b => a &&& ~~~b
/-- shl (R200). -/
def execShl (d a b : BitVec 5) (k : BitVec 3) (s : State) : Out := s.int3 d a b k fun a b => a <<< shiftCount b
/-- shr (R200). -/
def execShr (d a b : BitVec 5) (k : BitVec 3) (s : State) : Out := s.int3 d a b k fun a b => a >>> shiftCount b
/-- sar (R200). -/
def execSar (d a b : BitVec 5) (k : BitVec 3) (s : State) : Out := s.int3 d a b k fun a b => a.sshiftRight (shiftCount b)
/-- rol (R200). -/
def execRol (d a b : BitVec 5) (k : BitVec 3) (s : State) : Out := s.int3 d a b k fun a b => a.rotateLeft (shiftCount b)
/-- min (R200). -/
def execMin (d a b : BitVec 5) (k : BitVec 3) (s : State) : Out := s.int3 d a b k fun a b => if a.toInt ≤ b.toInt then a else b
/-- max (R200). -/
def execMax (d a b : BitVec 5) (k : BitVec 3) (s : State) : Out := s.int3 d a b k fun a b => if a.toInt ≤ b.toInt then b else a
/-- minu (R200). -/
def execMinu (d a b : BitVec 5) (k : BitVec 3) (s : State) : Out := s.int3 d a b k fun a b => if a.toNat ≤ b.toNat then a else b
/-- maxu (R200). -/
def execMaxu (d a b : BitVec 5) (k : BitVec 3) (s : State) : Out := s.int3 d a b k fun a b => if a.toNat ≤ b.toNat then b else a
/-- clz (R200). -/
def execClz (d a : BitVec 5) (k : BitVec 3) (s : State) : Out := s.int2 d a k fun a => BitVec.ofNat 64 (leadingZeros 64 a.toNat)
/-- ctz (R200). -/
def execCtz (d a : BitVec 5) (k : BitVec 3) (s : State) : Out := s.int2 d a k fun a => BitVec.ofNat 64 (trailingZeros 64 a.toNat)
/-- popc (R200). -/
def execPopc (d a : BitVec 5) (k : BitVec 3) (s : State) : Out := s.int2 d a k fun a => BitVec.ofNat 64 (popCount 64 a.toNat)
/-- bswap (R200). -/
def execBswap (d a : BitVec 5) (k : BitVec 3) (s : State) : Out := s.int2 d a k fun a => byteSwap a
/-- sextB (R200). -/
def execSextB (d a : BitVec 5) (k : BitVec 3) (s : State) : Out := s.int2 d a k fun a => sext 8 a.toNat
/-- sextH (R200). -/
def execSextH (d a : BitVec 5) (k : BitVec 3) (s : State) : Out := s.int2 d a k fun a => sext 16 a.toNat
/-- sextW (R200). -/
def execSextW (d a : BitVec 5) (k : BitVec 3) (s : State) : Out := s.int2 d a k fun a => sext 32 a.toNat
/-- addsat (R200). -/
def execAddsat (d a b : BitVec 5) (k : BitVec 3) (s : State) : Out := s.saturate d a b k fun x y => x + y
/-- subsat (R200). -/
def execSubsat (d a b : BitVec 5) (k : BitVec 3) (s : State) : Out := s.saturate d a b k fun x y => x - y
/-- sel: g[a] if the predicate is true, g[b] otherwise (R200). -/
def execSel (d a b : BitVec 5) (p : BitVec 3) (s : State) : Out :=
  .next (s.setG d (if s.seq.kr p then s.seq.gr a else s.seq.gr b) 4)

/-- An I-format operation (R202). -/
def State.imm (s : State) (d a : BitVec 5) (f : Word → Word) : Out := .next (s.setG d (f (s.seq.gr a)) 4)

/-- addi (R202). -/
def execAddi (d a : BitVec 5) (i : BitVec 14) (s : State) : Out := s.imm d a fun x => x + i.signExtend 64
/-- andi (R202). -/
def execAndi (d a : BitVec 5) (i : BitVec 14) (s : State) : Out := s.imm d a fun x => x &&& i.signExtend 64
/-- ori (R202). -/
def execOri (d a : BitVec 5) (i : BitVec 14) (s : State) : Out := s.imm d a fun x => x ||| i.signExtend 64
/-- xori (R202). -/
def execXori (d a : BitVec 5) (i : BitVec 14) (s : State) : Out := s.imm d a fun x => x ^^^ i.signExtend 64
/-- shli (R202). -/
def execShli (d a : BitVec 5) (n : BitVec 6) (s : State) : Out := s.imm d a fun x => x <<< n.toNat
/-- shri (R202). -/
def execShri (d a : BitVec 5) (n : BitVec 6) (s : State) : Out := s.imm d a fun x => x >>> n.toNat
/-- sari (R202). -/
def execSari (d a : BitVec 5) (n : BitVec 6) (s : State) : Out := s.imm d a fun x => x.sshiftRight n.toNat
/-- li in its 8-byte form (R203). -/
def execLi8 (d : BitVec 5) (i : BitVec 32) (s : State) : Out := .next (s.setG d (i.signExtend 64) 8)
/-- li in its 12-byte form (R203). -/
def execLi12 (d : BitVec 5) (i : BitVec 64) (s : State) : Out := .next (s.setG d i 12)
/-- addpc in its 4-byte form (R203). -/
def execAddpc4 (d : BitVec 5) (i : BitVec 14) (s : State) : Out := .next (s.setG d (s.seq.pc + i.signExtend 64 * 4) 4)
/-- addpc in its 8-byte form (R203). -/
def execAddpc8 (d : BitVec 5) (i : BitVec 32) (s : State) : Out := .next (s.setG d (s.seq.pc + i.signExtend 64) 8)

end Sys2Proof.Machine
end

