-- ==== Sys2Proof/Machine/Mem.lean ====
section
/-!
DEFINITION. ld, st and fence (R211 to R216).
-/
namespace Sys2Proof.Machine

/-- ld: alignment, then the read with its faults in the order of R212 (R211). -/
def execLd (d a : BitVec 5) (size : BitVec 3) (order : BitVec 2) (scope k : BitVec 3) (off : BitVec 32) (s : State) : Out :=
  s.guarded k 8 fun s =>
    let info := leadOf (.ld d a size order scope k off)
    let ea := s.seq.addr32 a off
    if s.held s.cur then .next s.wait
    else if !(aligned (sizeBytes size) ea) then .next (s.trap Cause.misaligned (BitVec.ofNat 64 ea) info)
    else
      match s.readNum (s.seqWho s.cur) ea (sizeBytes size) with
      | (s1, .ok v) => .next (s1.setG d (loadExtend size v) 8)
      | (s1, .fault c va) => .next (s1.trap c (BitVec.ofNat 64 va) info)
      | (s1, .held) => .next s1.wait

/-- st: alignment, then the fold windows, then the write with its faults in the order of R212 (R211). -/
def execSt (d a : BitVec 5) (size : BitVec 3) (order : BitVec 2) (scope k : BitVec 3) (off : BitVec 32) (s : State) : Out :=
  s.guarded k 8 fun s =>
    let info := leadOf (.st d a size order scope k off)
    let ea := s.seq.addr32 a off
    if s.held s.cur then .next s.wait
    else if !(aligned (sizeBytes size) ea) then .next (s.trap Cause.misaligned (BitVec.ofNat 64 ea) info)
    else
      match s.writeNum (s.seqWho s.cur) ea (sizeBytes size) (s.seq.gr d).toNat with
      | (s1, .ok ()) => .next (s1.advance 8)
      | (s1, .fault c va) => .next (s1.trap c (BitVec.ofNat 64 va) info)
      | (s1, .held) => .next s1.wait

/-- fence: it waits until every earlier engine command has performed; every earlier ld and st has performed at its own step
(R216, log 6). -/
def execFence (_scope k : BitVec 3) (s : State) : Out :=
  s.guarded k 4 fun s => if s.engineBusy s.cur then .next s.wait else .next (s.advance 4)

/-- The acquire and the release fence: every ld and st has performed at its own step, so they are complete at once (R216,
log 6). -/
def State.accessFence (s : State) (k : BitVec 3) : Out := s.guarded k 4 fun s => .next (s.advance 4)

/-- fence.acq (R216). -/
def execFenceAcq (_scope k : BitVec 3) (s : State) : Out := s.accessFence k
/-- fence.rel (R216). -/
def execFenceRel (_scope k : BitVec 3) (s : State) : Out := s.accessFence k
/-- fence.strm: until every earlier engine command has performed no later one begins; ld and st are not held (R216). -/
def execFenceStrm (_scope k : BitVec 3) (s : State) : Out :=
  s.guarded k 4 fun s =>
    .next (s.mod fun q => ({ q.begun with holds := q.begun.holds ++ (if s.engineBusy s.cur then [.engines] else []) } : Seq).advance 4)

end Sys2Proof.Machine
end

