-- ==== Sys2Proof/Machine/Dispatch.lean ====
section
/-!
DEFINITION. What each instruction of the opcode table does: one arm per constructor, one call of its meaning.
-/
namespace Sys2Proof.Machine

def exec (i : Instr) (s : State) : Host.Outcome State Fault Refusal :=
  match i with
  | .coldReset stage => Sys2Proof.Machine.execColdReset stage s
  | .getVersion => Sys2Proof.Machine.execGetVersion s
  | .getCapabilities => Sys2Proof.Machine.execGetCapabilities s
  | .negotiateAlgorithms => Sys2Proof.Machine.execNegotiateAlgorithms s
  | .getCertificate slot => Sys2Proof.Machine.execGetCertificate slot s
  | .getMeasurements which => Sys2Proof.Machine.execGetMeasurements which s
  | .tdLinkMessage die msg code => Sys2Proof.Machine.execTdLinkMessage die msg code s
  | .ucieModuleRemoval link => Sys2Proof.Machine.execUcieModuleRemoval link s
  | .fabricPortDownshift port => Sys2Proof.Machine.execFabricPortDownshift port s
  | .pseudoChannelMapOut pc => Sys2Proof.Machine.execPseudoChannelMapOut pc s
  | .islandStateChange vf st => Sys2Proof.Machine.execIslandStateChange vf st s
  | .cfwq pa => Sys2Proof.Machine.execCfwq pa s
  | .headerLineChange q => Sys2Proof.Machine.execHeaderLineChange q s
  | .badCommand => Sys2Proof.Machine.execBadCommand s
  | .devInfo => Sys2Proof.Machine.execDevInfo s
  | .devHealth => Sys2Proof.Machine.execDevHealth s
  | .queueReg => Sys2Proof.Machine.execQueueReg s
  | .queueUnreg => Sys2Proof.Machine.execQueueUnreg s
  | .partCreate => Sys2Proof.Machine.execPartCreate s
  | .partDestroy => Sys2Proof.Machine.execPartDestroy s
  | .partQuery => Sys2Proof.Machine.execPartQuery s
  | .partSuspend fin => Sys2Proof.Machine.execPartSuspend fin s
  | .partResume fin => Sys2Proof.Machine.execPartResume fin s
  | .partMigrateOut => Sys2Proof.Machine.execPartMigrateOut s
  | .partMigrateIn => Sys2Proof.Machine.execPartMigrateIn s
  | .s2Update => Sys2Proof.Machine.execS2Update s
  | .s2Resume => Sys2Proof.Machine.execS2Resume s
  | .s2Abort => Sys2Proof.Machine.execS2Abort s
  | .rankSet => Sys2Proof.Machine.execRankSet s
  | .meterArm => Sys2Proof.Machine.execMeterArm s
  | .meterRead => Sys2Proof.Machine.execMeterRead s
  | .nopPacket p q => Sys2Proof.Machine.execNopPacket p q s
  | .launchPacket p q => Sys2Proof.Machine.execLaunchPacket p q s
  | .gate p q => Sys2Proof.Machine.execGate p q s
  | .patch p q => Sys2Proof.Machine.execPatch p q s
  | .inval p q => Sys2Proof.Machine.execInval p q s
  | .hcopy p q => Sys2Proof.Machine.execHcopy p q s
  | .signal p q => Sys2Proof.Machine.execSignal p q s
  | .packetMalformed p q => Sys2Proof.Machine.execPacketMalformed p q s
  | .gateEvaluation p q => Sys2Proof.Machine.execGateEvaluation p q s
  | .gateTimeout p q => Sys2Proof.Machine.execGateTimeout p q s
  | .hcopyCompletion p q sector => Sys2Proof.Machine.execHcopyCompletion p q sector s
  | .signalAfterReplays p q => Sys2Proof.Machine.execSignalAfterReplays p q s
  | .replayBegin p n => Sys2Proof.Machine.execReplayBegin p n s
  | .replayComplete p n => Sys2Proof.Machine.execReplayComplete p n s
  | .gangTick set => Sys2Proof.Machine.execGangTick set s
  | .regionCompletion r => Sys2Proof.Machine.execRegionCompletion r s
  | .markerArrival r => Sys2Proof.Machine.execMarkerArrival r s
  | .regionSaveComplete r => Sys2Proof.Machine.execRegionSaveComplete r s
  | .saveDeadline p n dg => Sys2Proof.Machine.execSaveDeadline p n dg s
  | .partitionReset p => Sys2Proof.Machine.execPartitionReset p s
  | .causeDelivery r => Sys2Proof.Machine.execCauseDelivery r s
  | .yieldTimeout r => Sys2Proof.Machine.execYieldTimeout r s
  | .replicaCreation p => Sys2Proof.Machine.execReplicaCreation p s
  | .collapse p => Sys2Proof.Machine.execCollapse p s
  | .remotePage p data => Sys2Proof.Machine.execRemotePage p data s
  | .remotePullTimeout p => Sys2Proof.Machine.execRemotePullTimeout p s
  | .remainingFramePull p data => Sys2Proof.Machine.execRemainingFramePull p data s
  | .pullServe p frame session => Sys2Proof.Machine.execPullServe p frame session s
  | .migrationSourceEnd p session => Sys2Proof.Machine.execMigrationSourceEnd p session s
  | .extentMiss r st => Sys2Proof.Machine.execExtentMiss r st s
  | .streamAccess r st => Sys2Proof.Machine.execStreamAccess r st s
  | .copySector r c sector => Sys2Proof.Machine.execCopySector r c sector s
  | .copyCompletion r c => Sys2Proof.Machine.execCopyCompletion r c s
  | .remoteSignal src dst => Sys2Proof.Machine.execRemoteSignal src dst s
  | .doneToken r => Sys2Proof.Machine.execDoneToken r s
  | .armEvaluation r t => Sys2Proof.Machine.execArmEvaluation r t s
  | .routerWordArrival r mesh => Sys2Proof.Machine.execRouterWordArrival r mesh s
  | .keyMismatch port key => Sys2Proof.Machine.execKeyMismatch port key s
  | .rankFrameArrival port key region body => Sys2Proof.Machine.execRankFrameArrival port key region body s
  | .rankAck p frame => Sys2Proof.Machine.execRankAck p frame s
  | .foldOperation issuer owner row => Sys2Proof.Machine.execFoldOperation issuer owner row s
  | .foldReturn r => Sys2Proof.Machine.execFoldReturn r s
  | .orphanReturn src dst => Sys2Proof.Machine.execOrphanReturn src dst s
  | .windowRehome p w => Sys2Proof.Machine.execWindowRehome p w s
  | .islandSlot r bank isl => Sys2Proof.Machine.execIslandSlot r bank isl s
  | .islandSwitch r isl => Sys2Proof.Machine.execIslandSwitch r isl s
  | .roundFence r bank => Sys2Proof.Machine.execRoundFence r bank s
  | .roundCommit r bank => Sys2Proof.Machine.execRoundCommit r bank s
  | .roundReplay r bank => Sys2Proof.Machine.execRoundReplay r bank s
  | .bankDrain r bank => Sys2Proof.Machine.execBankDrain r bank s
  | .edgeStep r row => Sys2Proof.Machine.execEdgeStep r row s
  | .throttleLevelSet vf level => Sys2Proof.Machine.execThrottleLevelSet vf level s
  | .thermalTrip die => Sys2Proof.Machine.execThermalTrip die s
  | .thermalRecovery die => Sys2Proof.Machine.execThermalRecovery die s
  | .heartbeatPeriod r t => Sys2Proof.Machine.execHeartbeatPeriod r t s
  | .heartbeat r t => Sys2Proof.Machine.execHeartbeat r t s
  | .accuse r t => Sys2Proof.Machine.execAccuse r t s
  | .withdraw r t => Sys2Proof.Machine.execWithdraw r t s
  | .fenceBeat r t => Sys2Proof.Machine.execFenceBeat r t s
  | .appeal r t => Sys2Proof.Machine.execAppeal r t s
  | .admitBeat r t => Sys2Proof.Machine.execAdmitBeat r t s
  | .periodEnd r t => Sys2Proof.Machine.execPeriodEnd r t s
  | .remap r => Sys2Proof.Machine.execRemap r s
  | .bistEnd r t => Sys2Proof.Machine.execBistEnd r t s
  | .appealLimit r t => Sys2Proof.Machine.execAppealLimit r t s
  | .probationEnd r t => Sys2Proof.Machine.execProbationEnd r t s
  | .meterWindow die codeOk => Sys2Proof.Machine.execMeterWindow die codeOk s
  | .usageRecord p => Sys2Proof.Machine.execUsageRecord p s
  | .keyQuarantineEnd key => Sys2Proof.Machine.execKeyQuarantineEnd key s
  | .decodeFault => Sys2Proof.Machine.execDecodeFault s
  | .rankFrameRetransmission p frame => Sys2Proof.Machine.execRankFrameRetransmission p frame s
  | .suspendTimeout p => Sys2Proof.Machine.execSuspendTimeout p s
  | .tileFallsSilent r t babble => Sys2Proof.Machine.execTileFallsSilent r t babble s
  | .memoryPoison pa len => Sys2Proof.Machine.execMemoryPoison pa len s
  | .nop k => Sys2Proof.Machine.execNop k s
  | .brk k => Sys2Proof.Machine.execBrk k s
  | .seqEnd k => Sys2Proof.Machine.execEnd k s
  | .yield k => Sys2Proof.Machine.execYield k s
  | .eret k => Sys2Proof.Machine.execEret k s
  | .time d k => Sys2Proof.Machine.execTime d k s
  | .whoami d k => Sys2Proof.Machine.execWhoami d k s
  | .add d a b k => Sys2Proof.Machine.execAdd d a b k s
  | .sub d a b k => Sys2Proof.Machine.execSub d a b k s
  | .mul d a b k => Sys2Proof.Machine.execMul d a b k s
  | .mulh d a b k => Sys2Proof.Machine.execMulh d a b k s
  | .mulhu d a b k => Sys2Proof.Machine.execMulhu d a b k s
  | .div d a b k => Sys2Proof.Machine.execDiv d a b k s
  | .divu d a b k => Sys2Proof.Machine.execDivu d a b k s
  | .rem d a b k => Sys2Proof.Machine.execRem d a b k s
  | .remu d a b k => Sys2Proof.Machine.execRemu d a b k s
  | .and d a b k => Sys2Proof.Machine.execAnd d a b k s
  | .or d a b k => Sys2Proof.Machine.execOr d a b k s
  | .xor d a b k => Sys2Proof.Machine.execXor d a b k s
  | .andn d a b k => Sys2Proof.Machine.execAndn d a b k s
  | .shl d a b k => Sys2Proof.Machine.execShl d a b k s
  | .shr d a b k => Sys2Proof.Machine.execShr d a b k s
  | .sar d a b k => Sys2Proof.Machine.execSar d a b k s
  | .rol d a b k => Sys2Proof.Machine.execRol d a b k s
  | .min d a b k => Sys2Proof.Machine.execMin d a b k s
  | .max d a b k => Sys2Proof.Machine.execMax d a b k s
  | .minu d a b k => Sys2Proof.Machine.execMinu d a b k s
  | .maxu d a b k => Sys2Proof.Machine.execMaxu d a b k s
  | .clz d a k => Sys2Proof.Machine.execClz d a k s
  | .ctz d a k => Sys2Proof.Machine.execCtz d a k s
  | .popc d a k => Sys2Proof.Machine.execPopc d a k s
  | .bswap d a k => Sys2Proof.Machine.execBswap d a k s
  | .sextB d a k => Sys2Proof.Machine.execSextB d a k s
  | .sextH d a k => Sys2Proof.Machine.execSextH d a k s
  | .sextW d a k => Sys2Proof.Machine.execSextW d a k s
  | .addsat d a b k => Sys2Proof.Machine.execAddsat d a b k s
  | .subsat d a b k => Sys2Proof.Machine.execSubsat d a b k s
  | .sel d a b p => Sys2Proof.Machine.execSel d a b p s
  | .addi d a imm => Sys2Proof.Machine.execAddi d a imm s
  | .andi d a imm => Sys2Proof.Machine.execAndi d a imm s
  | .ori d a imm => Sys2Proof.Machine.execOri d a imm s
  | .xori d a imm => Sys2Proof.Machine.execXori d a imm s
  | .shli d a n => Sys2Proof.Machine.execShli d a n s
  | .shri d a n => Sys2Proof.Machine.execShri d a n s
  | .sari d a n => Sys2Proof.Machine.execSari d a n s
  | .li8 d imm => Sys2Proof.Machine.execLi8 d imm s
  | .li12 d imm => Sys2Proof.Machine.execLi12 d imm s
  | .addpc4 d imm => Sys2Proof.Machine.execAddpc4 d imm s
  | .addpc8 d imm => Sys2Proof.Machine.execAddpc8 d imm s
  | .cmpEq d a b k => Sys2Proof.Machine.execCmpEq d a b k s
  | .cmpNe d a b k => Sys2Proof.Machine.execCmpNe d a b k s
  | .cmpLt d a b k => Sys2Proof.Machine.execCmpLt d a b k s
  | .cmpLtu d a b k => Sys2Proof.Machine.execCmpLtu d a b k s
  | .cmpGe d a b k => Sys2Proof.Machine.execCmpGe d a b k s
  | .cmpGeu d a b k => Sys2Proof.Machine.execCmpGeu d a b k s
  | .cmpBit d a b k => Sys2Proof.Machine.execCmpBit d a b k s
  | .cmpiEq d a imm => Sys2Proof.Machine.execCmpiEq d a imm s
  | .cmpiNe d a imm => Sys2Proof.Machine.execCmpiNe d a imm s
  | .cmpiLt d a imm => Sys2Proof.Machine.execCmpiLt d a imm s
  | .cmpiGe d a imm => Sys2Proof.Machine.execCmpiGe d a imm s
  | .cmpiuLt d a imm => Sys2Proof.Machine.execCmpiuLt d a imm s
  | .cmpiuGe d a imm => Sys2Proof.Machine.execCmpiuGe d a imm s
  | .pand d a b k => Sys2Proof.Machine.execPand d a b k s
  | .por d a b k => Sys2Proof.Machine.execPor d a b k s
  | .pxor d a b k => Sys2Proof.Machine.execPxor d a b k s
  | .pandn d a b k => Sys2Proof.Machine.execPandn d a b k s
  | .pnot d a k => Sys2Proof.Machine.execPnot d a k s
  | .kmov d a k => Sys2Proof.Machine.execKmov d a k s
  | .kset d a k => Sys2Proof.Machine.execKset d a k s
  | .br c n imm => Sys2Proof.Machine.execBr c n imm s
  | .jmp imm => Sys2Proof.Machine.execJmp imm s
  | .jal d imm => Sys2Proof.Machine.execJal d imm s
  | .jalr d a imm => Sys2Proof.Machine.execJalr d a imm s
  | .dbnz a imm => Sys2Proof.Machine.execDbnz a imm s
  | .ld d a size order scope k off => Sys2Proof.Machine.execLd d a size order scope k off s
  | .st d a size order scope k off => Sys2Proof.Machine.execSt d a size order scope k off s
  | .fence scope k => Sys2Proof.Machine.execFence scope k s
  | .fenceAcq scope k => Sys2Proof.Machine.execFenceAcq scope k s
  | .fenceRel scope k => Sys2Proof.Machine.execFenceRel scope k s
  | .fenceStrm scope k => Sys2Proof.Machine.execFenceStrm scope k s
  | .cfgLoad a k => Sys2Proof.Machine.execCfgLoad a k s
  | .cfgRun k => Sys2Proof.Machine.execCfgRun k s
  | .cfgDrain k => Sys2Proof.Machine.execCfgDrain k s
  | .cfgParam a b k => Sys2Proof.Machine.execCfgParam a b k s
  | .cfgUnbind a k => Sys2Proof.Machine.execCfgUnbind a k s
  | .cfgQuery d a k => Sys2Proof.Machine.execCfgQuery d a k s
  | .cfgAbort k => Sys2Proof.Machine.execCfgAbort k s
  | .strmOpen st a nw off => Sys2Proof.Machine.execStrmOpen st a nw off s
  | .strmGo st nw acq rel scope => Sys2Proof.Machine.execStrmGo st nw acq rel scope s
  | .strmBar st a b nw => Sys2Proof.Machine.execStrmBar st a b nw s
  | .strmClose st nw => Sys2Proof.Machine.execStrmClose st nw s
  | .strmPos st a => Sys2Proof.Machine.execStrmPos st a s
  | .strmSeek st a nw off => Sys2Proof.Machine.execStrmSeek st a nw off s
  | .strmBind st kind pos idx nw => Sys2Proof.Machine.execStrmBind st kind pos idx nw s
  | .strmFilt st f nw => Sys2Proof.Machine.execStrmFilt st f nw s
  | .strmStat st a => Sys2Proof.Machine.execStrmStat st a s
  | .push a b n acq rel scope k off m t => Sys2Proof.Machine.execPush a b n acq rel scope k off m t s
  | .pull a b n acq rel scope k off m t => Sys2Proof.Machine.execPull a b n acq rel scope k off m t s
  | .pushn a b n acq rel scope k off m t region => Sys2Proof.Machine.execPushn a b n acq rel scope k off m t region s
  | .tagBlk t k => Sys2Proof.Machine.execTagBlk t k s
  | .tagUbk t k => Sys2Proof.Machine.execTagUbk t k s
  | .tagWait t k => Sys2Proof.Machine.execTagWait t k s
  | .tagTest t d k => Sys2Proof.Machine.execTagTest t d k s
  | .tagCnt t imm k => Sys2Proof.Machine.execTagCnt t imm k s
  | .tagBind t isl k => Sys2Proof.Machine.execTagBind t isl k s
  | .tagArm t a b k => Sys2Proof.Machine.execTagArm t a b k s
  | .tagSig t a mode acq rel scope k => Sys2Proof.Machine.execTagSig t a mode acq rel scope k s
  | .tagClr t k => Sys2Proof.Machine.execTagClr t k s
  | .fold a b c op r slot off size acq rel scope k => Sys2Proof.Machine.execFold a b c op r slot off size acq rel scope k s
  | .commit d n => Sys2Proof.Machine.execCommit d n s
  | .landTest d n => Sys2Proof.Machine.execLandTest d n s
  | .chnOpen k ch => Sys2Proof.Machine.execChnOpen k ch s
  | .chnSend a b k ch => Sys2Proof.Machine.execChnSend a b k ch s
  | .chnRecv d a b k ch => Sys2Proof.Machine.execChnRecv d a b k ch s
  | .chnClose k ch => Sys2Proof.Machine.execChnClose k ch s
  | .chnStat d k ch => Sys2Proof.Machine.execChnStat d k ch s
  | .launch d a b prio nw k immG immF => Sys2Proof.Machine.execLaunch d a b prio nw k immG immF s
  | .csrr d c => Sys2Proof.Machine.execCsrr d c s
  | .csrw d a c => Sys2Proof.Machine.execCsrw d a c s
  | .csrs d a c => Sys2Proof.Machine.execCsrs d a c s
  | .csrc d a c => Sys2Proof.Machine.execCsrc d a c s
  | .trap imm => Sys2Proof.Machine.execTrap imm s

end Sys2Proof.Machine
end

