-- ==== Sys2Proof/Machine/Step.lean ====
section
/-!
DEFINITION. One step of the machine: the next turn of the agenda, or an instruction of the current sequencer (log 3).
-/
namespace Sys2Proof.Machine

/-- The sequencer of region `cur` issues: a pending cause first, then the instruction at pc (R188, R192, R195). DESIGN CHOICE (log 122): a
waiting instruction is fetched and decoded anew at each turn, from the line as the instruction cache then holds it (R196). -/
def State.issue (s : State) : Host.Outcome State Fault Refusal :=
  match s.ready s.cur with
  | .none => .next s
  | .cause => exec (.causeDelivery s.cur) s
  | .fetch =>
    match s.fetch s.cur with
    | (s1, .instr i) => exec i s1
    | (s1, .held) => .next s1.fetchHeld
    | _ => exec .decodeFault s

/-- A turn of the agenda (log 3). -/
def State.turn (s : State) : Turn → Host.Outcome State Fault Refusal
  | .issue r => if r < 192 then ({ s with cur := r } : State).issue else .fault .noSuchUnit
  | .event i => if isSequencer i then .next s else exec i s
  | .hostStore pa bytes => .next (s.hostStore pa bytes)
  | .temperature d z => if d < 4 then .next (s.temperature d z) else .fault .noSuchUnit
  | .linkError r l => if r < 192 then .next (s.linkError r l) else .fault .noSuchUnit
  | .hostAccess d => .next (s.hostAccess d)
  | .signature c t => .next (s.signature c t)

/-- One step: time passes, then the agenda's next turn is taken, or the current sequencer issues. -/
def step (s : State) : Host.Outcome State Fault Refusal :=
  let s0 := s.timePasses
  match s0.agenda with
  | [] => s0.issue
  | t :: ts => ({ s0 with agenda := ts } : State).turn t

/-- The state in which the instruction with bits `w` is the next that the sequencer of region 0 fetches (log 5). -/
def State.withFetchWord (s : State) (_nbits w : Nat) : State := s.setup (toBytes 64 w)

end Sys2Proof.Machine
end

