-- ==== Sys2Proof/Safety.lean ====
section
/-!
DEFINITION. What counts as a safe step.
-/
namespace Sys2Proof.Machine

/-- A state from which the machine takes a step: it neither stops nor lacks a meaning. -/
def Steps (s : State) : Prop := ∃ t, step s = .next t

end Sys2Proof.Machine
end

