-- ==== Sys2Proof/Certificates/Slice0/Obligations.lean ====
section
/-!
DEFINITION. The statements for the provers. The first part gives the words that the statements use.
-/
open Sys2Proof Sys2Proof.Machine

/-! ## The words of the statements -/

/-- `t` differs from `s` in the sequencer of the current region only, which is `q` in `t`; every byte of memory reads as
before. -/
def Sys2Proof.Claims.SeqOnly (s t : State) (q : Seq) : Prop :=
  t.reg s.cur = { s.reg s.cur with seq := q } ∧ (∀ r, r ≠ s.cur → t.reg r = s.reg r) ∧
  (∀ a, t.mem.read a = s.mem.read a) ∧ t.mem = s.mem ∧ t.pkg = s.pkg ∧ t.parts = s.parts ∧ t.sets = s.sets ∧
  t.tick = s.tick ∧ t.steps = s.steps ∧ t.agenda = s.agenda ∧ t.cur = s.cur

/-- `i` completes from `s`, and changes nothing but the current sequencer, which becomes `q`. -/
def Sys2Proof.Claims.RunsTo (i : Instr) (s : State) (q : Seq) : Prop :=
  ∃ t, exec i s = .next t ∧ Claims.SeqOnly s t q

/-- A sequencer that stands at an instruction boundary with its pc at an address (R195). -/
def Sys2Proof.Claims.standsAt (q : Seq) (pc : Word) : Seq := { q with pc := pc, run := .boundary, waitFrom := none }

/-- A sequencer that has entered its handler: the assignments of R185. -/
def Sys2Proof.Claims.entered (q : Seq) (cause : BitVec 9) (resume first fva finfo : Word) : Seq :=
  { q with epc := resume, iva := first, cause := cause.setWidth 64, fva := fva, finfo := finfo,
           status := q.status ||| 1, pc := q.tvec, run := .boundary, waitFrom := none }

/-- Normal mode and a handler: the conditions under which R187 makes no delivery fatal. -/
def Sys2Proof.Claims.canTrap (q : Seq) : Prop := q.handler = false ∧ q.tvec ≠ 0

/-- The lead word of an instruction, zero-extended (R186). -/
def Sys2Proof.Claims.leadWord (i : Instr) : Word := ((encode i).headD 0).setWidth 64

/-! ## Encodings -/

/-- R92 to R110, R58: the decoder reads back every well-formed sequencer instruction from its encoding, whatever bytes
follow it. -/
def Obligations.DecodeOfEncode : Prop :=
  ∀ (i : Instr) (rest : List Byte), WellFormed i = true → encode i ≠ [] → decode (encodeBytes i ++ rest) = .ok (i, rest)

/-- R92 to R110, R58: whatever the decoder accepts is well formed, has an encoding, and is what the encoder writes: no
two words stand for one instruction. -/
def Obligations.EncodeOfDecode : Prop :=
  ∀ (bs rest : List Byte) (i : Instr), decode bs = .ok (i, rest) →
    WellFormed i = true ∧ encode i ≠ [] ∧ bs = encodeBytes i ++ rest

/-- The example words of R199, R201, R204 to R209, R216 to R218. -/
def Sys2Proof.Claims.SpecExampleWords : Prop :=
  [0x00000010, 0x00000020, 0x00480028, 0x00000009, 0x01190A28, 0x01190AF2, 0x10190A18, 0x11D27FFF, 0x13088020, 0x16F80040,
    0x1707C000, 0x1E800100, 0x3C280080, 0x3C018005, 0x3F000125].map (decodeTableWord 32) =
  [some (.seqEnd 0), some (.eret 0), some (.time 9 0), some (.brk 1), some (.div 3 4 5 0), some (.sel 3 4 5 2),
    some (.cmpLtu 3 4 5 0), some (.cmpiGe 2 9 (-1)), some (.pnot 1 2 0), some (.jal 31 64),
    some (.jalr 0 31 0), some (.fenceRel 4 0), some (.csrr 5 0x020), some (.csrw 0 6 0x001), some (.trap 0x125)]

/-- The opcode map of R96: each group's majors with the lengths in bytes that they accept. -/
def Sys2Proof.Claims.opcodeMap : List (List Nat × List Nat) :=
  [([0x00], [4]), ([0x01], [4]), ([0x02, 0x03, 0x04, 0x05, 0x06, 0x07, 0x08], [4]), ([0x09], [8, 12]), ([0x0A], [4, 8]), ([0x10], [4]),
    ([0x11], [4]), ([0x12], [4]), ([0x13], [4]), ([0x14], [4]), ([0x15], [4]), ([0x16], [4]), ([0x17], [4]), ([0x18], [4]),
    ([0x1C, 0x1D], [8]), ([0x1E], [4]), ([0x20], [4]), ([0x24], [8]), ([0x28, 0x29, 0x2A], [12]), ([0x2C], [8]), ([0x30], [8]),
    ([0x31], [4]), ([0x34], [8]), ([0x38], [12]), ([0x3C], [4]), ([0x3F], [4])]

/-- R93, R96: the order of the decode checks. A length code of 3 is LEN_ILLEGAL whatever else the word holds; then a major
outside the opcode map is MAJOR_ILLEGAL; then a length that the major does not accept is LEN_ILLEGAL, and one that it accepts is the
length of the instruction. -/
def Sys2Proof.Claims.DecodeCheckOrder : Prop :=
  ∀ w : IWord,
    (fieldN w 30 2 = 3 → decodeLength w = .error .lenIllegal) ∧
    (fieldN w 30 2 ≠ 3 → fieldN w 24 6 ∈ [0x0B, 0x0C, 0x0D, 0x0E, 0x0F, 0x19, 0x1A, 0x1B, 0x1F, 0x21, 0x22, 0x23, 0x25, 0x26,
        0x27, 0x2B, 0x2D, 0x2E, 0x2F, 0x32, 0x33, 0x35, 0x36, 0x37, 0x39, 0x3A, 0x3B, 0x3D, 0x3E] →
      decodeLength w = .error .majorIllegal) ∧
    (∀ e ∈ Claims.opcodeMap, fieldN w 24 6 ∈ e.1 → fieldN w 30 2 ≠ 3 →
      decodeLength w = if 4 * (fieldN w 30 2 + 1) ∈ e.2 then .ok (4 * (fieldN w 30 2 + 1)) else .error .lenIllegal)

/-! ## A step -/

/-- With nothing on the agenda, a step lets time pass and then executes the instruction that the current sequencer
fetches at its pc: the words at pc, read through its instruction line, decode to `i`, and the step is `exec i`. -/
def Sys2Proof.Claims.StepRunsFetched : Prop :=
  ∀ (s s1 : State) (i : Instr), s.agenda = [] → s.timePasses.ready s.cur = .fetch →
    s.timePasses.fetch s.cur = (s1, .instr i) → step s = exec i s1

/-- The fetch of a 4-byte instruction whose line is cached: if the line yields its own bytes, the word at pc decodes to
`i`, and nothing changes but time, then the step is `exec i` (R191, R192). -/
def Sys2Proof.Claims.StepRunsCachedWord : Prop :=
  ∀ (s : State) (l : ILine) (w : IWord) (i : Instr), s.agenda = [] → s.timePasses.ready s.cur = .fetch →
    (s.reg s.cur).icache.find? (fun x => x.va == s.seq.pc.toNat / 64 * 64) = some l →
    l.bytes = s.mem.readN 64 l.pa →
    w = BitVec.ofNat 32 (ofBytes ((l.bytes.drop (s.seq.pc.toNat % 64)).take 4)) →
    decodeLength w = .ok 4 → decodeWords 4 w 0 0 = .ok i →
    step s = exec i { s with tick := s.tick + Config.stepTicks s.steps, steps := s.steps + 1 }

/-- A turn of the agenda goes before the sequencer: an event of another agent is executed as its own instruction, and a
sequencer instruction on the agenda is passed over, since only a fetch executes one (log 3). -/
def Sys2Proof.Claims.StepTakesAgenda : Prop :=
  ∀ (s : State) (i : Instr) (ts : List Turn), s.agenda = .event i :: ts →
    (encode i = [] → step s = exec i { s.timePasses with agenda := ts }) ∧
    (encode i ≠ [] → step s = .next { s.timePasses with agenda := ts })

/-- R188: a pending cause is taken in place of the next fetch, in normal mode, unless the sequencer issues nothing at
all; a step then executes CAUSE_DELIVERY. -/
def Sys2Proof.Claims.PendingCauseGoesFirst : Prop :=
  ∀ s : State, s.agenda = [] → s.timePasses.ready s.cur ≠ .none → s.seq.handler = false → s.seq.pending ≠ [] →
    step s = exec (.causeDelivery s.cur) s.timePasses

/-- The canonical form of memory holds at reset. -/
def Sys2Proof.Claims.ResetMemoryCanonical : Prop := State.reset.mem.wf = true ∧ State.reset.mem.cells = []

/-- Every step keeps the canonical form of memory. -/
def Obligations.StepKeepsMemoryCanonical : Prop :=
  ∀ s t : State, s.mem.wf = true → step s = .next t → t.mem.wf = true

/-- R27, R35: at the instant TD leaves reset TICK reads 0, no die has been measured, no queue, partition or region set
exists; every sequencer is idle with its control registers zero (STATUS, TVEC, EPC, CAUSE, FVA, IVA, FINFO and SCR0 to SCR15), its
predicates k1 to k7 false and its general registers zero (all of these by log 1). -/
def Sys2Proof.Claims.ResetLeaves : Prop :=
  State.reset.tick = 0 ∧ State.reset.pkg.boot = 0 ∧ State.reset.pkg.measured = [] ∧ State.reset.pkg.cfw = none ∧
  (∀ p, State.reset.part? p = none) ∧ State.reset.sets = [] ∧
  ∀ r, (State.reset.reg r).place = none ∧ (State.reset.reg r).seq.run = .idle ∧ (State.reset.reg r).seq.status = 0 ∧
    (State.reset.reg r).seq.tvec = 0 ∧ (State.reset.reg r).seq.epc = 0 ∧ (State.reset.reg r).seq.cause = 0 ∧
    (State.reset.reg r).seq.fva = 0 ∧ (State.reset.reg r).seq.iva = 0 ∧ (State.reset.reg r).seq.finfo = 0 ∧
    (∀ n : Fin 16, (State.reset.reg r).seq.scr[n] = 0) ∧ (∀ a, (State.reset.reg r).seq.gr a = 0) ∧
    (∀ k, (State.reset.reg r).seq.kr k = (k == 0))

/-! ## Registers and register instructions -/

/-- R183: g0 reads as zero and k0 as true whatever is stored; a write to either is discarded; a write to another
register is what it then reads as, and no other register changes. -/
def Obligations.RegisterFile : Prop :=
  ∀ (q : Seq), q.gr 0 = 0 ∧ q.kr 0 = true ∧ (∀ v, q.gw 0 v = q) ∧ (∀ v, q.kw 0 v = q) ∧
    (∀ d a v, d ≠ 0 → (q.gw d v).gr a = if a = d then v else q.gr a) ∧
    (∀ d a v, d ≠ 0 → (q.kw d v).kr a = if a = d then v else q.kr a) ∧
    (∀ d v, q.gw d v = { q with g := (q.gw d v).g }) ∧ (∀ d v, q.kw d v = { q with k := (q.kw d v).k })

/-- What R200, R202 and R203 and R198's time and R199's whoami write: guard, destination, value, length. -/
def Sys2Proof.Claims.registerResult (s : State) (q : Seq) : Instr → Option (BitVec 3 × BitVec 5 × Word × Nat)
  | .add d a b k => some (k, d, q.gr a + q.gr b, 4)
  | .sub d a b k => some (k, d, q.gr a - q.gr b, 4)
  | .mul d a b k => some (k, d, q.gr a * q.gr b, 4)
  | .mulh d a b k => some (k, d, ((q.gr a).signExtend 128 * (q.gr b).signExtend 128).extractLsb' 64 64, 4)
  | .mulhu d a b k => some (k, d, ((q.gr a).setWidth 128 * (q.gr b).setWidth 128).extractLsb' 64 64, 4)
  | .and d a b k => some (k, d, q.gr a &&& q.gr b, 4)
  | .or d a b k => some (k, d, q.gr a ||| q.gr b, 4)
  | .xor d a b k => some (k, d, q.gr a ^^^ q.gr b, 4)
  | .andn d a b k => some (k, d, q.gr a &&& ~~~(q.gr b), 4)
  | .shl d a b k => some (k, d, q.gr a <<< ((q.gr b).extractLsb' 0 6).toNat, 4)
  | .shr d a b k => some (k, d, q.gr a >>> ((q.gr b).extractLsb' 0 6).toNat, 4)
  | .sar d a b k => some (k, d, (q.gr a).sshiftRight ((q.gr b).extractLsb' 0 6).toNat, 4)
  | .rol d a b k => some (k, d, (q.gr a).rotateLeft ((q.gr b).extractLsb' 0 6).toNat, 4)
  | .min d a b k => some (k, d, if (q.gr b).slt (q.gr a) then q.gr b else q.gr a, 4)
  | .max d a b k => some (k, d, if (q.gr b).slt (q.gr a) then q.gr a else q.gr b, 4)
  | .minu d a b k => some (k, d, if (q.gr b).ult (q.gr a) then q.gr b else q.gr a, 4)
  | .maxu d a b k => some (k, d, if (q.gr b).ult (q.gr a) then q.gr a else q.gr b, 4)
  | .clz d a k => some (k, d, BitVec.ofNat 64 ((List.range 64).findIdx (fun n => (q.gr a).getMsbD n)), 4)
  | .ctz d a k => some (k, d, BitVec.ofNat 64 ((List.range 64).findIdx (fun n => (q.gr a).getLsbD n)), 4)
  | .popc d a k => some (k, d, BitVec.ofNat 64 ((List.range 64).countP (fun n => (q.gr a).getLsbD n)), 4)
  | .bswap d a k =>
    let A := q.gr a
    some (k, d, A.extractLsb' 0 8 ++ A.extractLsb' 8 8 ++ A.extractLsb' 16 8 ++ A.extractLsb' 24 8 ++ A.extractLsb' 32 8 ++
      A.extractLsb' 40 8 ++ A.extractLsb' 48 8 ++ A.extractLsb' 56 8, 4)
  | .sextB d a k => some (k, d, ((q.gr a).setWidth 8).signExtend 64, 4)
  | .sextH d a k => some (k, d, ((q.gr a).setWidth 16).signExtend 64, 4)
  | .sextW d a k => some (k, d, ((q.gr a).setWidth 32).signExtend 64, 4)
  | .sel d a b p => some (0, d, if q.kr p then q.gr a else q.gr b, 4)
  | .addi d a i => some (0, d, q.gr a + i.signExtend 64, 4)
  | .andi d a i => some (0, d, q.gr a &&& i.signExtend 64, 4)
  | .ori d a i => some (0, d, q.gr a ||| i.signExtend 64, 4)
  | .xori d a i => some (0, d, q.gr a ^^^ i.signExtend 64, 4)
  | .shli d a n => some (0, d, q.gr a <<< n.toNat, 4)
  | .shri d a n => some (0, d, q.gr a >>> n.toNat, 4)
  | .sari d a n => some (0, d, (q.gr a).sshiftRight n.toNat, 4)
  | .li8 d i => some (0, d, i.signExtend 64, 8)
  | .li12 d i => some (0, d, i, 12)
  | .addpc4 d i => some (0, d, q.pc + i.signExtend 64 * 4, 4)
  | .addpc8 d i => some (0, d, q.pc + i.signExtend 64, 8)
  | .time d k => some (k, d, BitVec.ofNat 64 s.tick, 4)
  | .whoami d k => some (k, d, match (s.reg s.cur).place with
      | none => 0
      | some p => (0 : BitVec 8) ++ BitVec.ofNat 16 p.stage ++ BitVec.ofNat 8 p.number ++ (0 : BitVec 6) ++
          BitVec.ofNat 2 (s.cur / 48) ++ BitVec.ofNat 8 p.width ++ BitVec.ofNat 8 p.lane ++ BitVec.ofNat 8 s.cur, 4)
  | _ => none

/-- R199 to R203: with its guard true, each of these instructions completes, writes its result to g[d] alone, and moves
pc past itself; nothing else of the machine changes. -/
def Obligations.RegisterInstructions : Prop :=
  ∀ (i : Instr) (s : State) (k : BitVec 3) (d : BitVec 5) (v : Word) (n : Nat),
    Claims.registerResult s s.seq i = some (k, d, v, n) → s.seq.kr k = true →
    Claims.RunsTo i s (Claims.standsAt (s.seq.gw d v) (s.seq.pc + BitVec.ofNat 64 n))

/-- The quotient and remainder of R201: for div, divu, rem and remu, the guard, the operands and the result. -/
def Sys2Proof.Claims.divisionResult (q : Seq) : Instr → Option (BitVec 3 × BitVec 5 × Word × Word)
  | .div d a b k => some (k, d, q.gr b,
      if q.gr b = 0 then BitVec.allOnes 64
      else if q.gr a = BitVec.intMin 64 ∧ (q.gr b).toInt = -1 then BitVec.intMin 64
      else BitVec.ofInt 64 ((q.gr a).toInt.tdiv (q.gr b).toInt))
  | .divu d a b k => some (k, d, q.gr b, if q.gr b = 0 then BitVec.allOnes 64 else BitVec.ofNat 64 ((q.gr a).toNat / (q.gr b).toNat))
  | .rem d a b k => some (k, d, q.gr b,
      if q.gr b = 0 then q.gr a
      else if q.gr a = BitVec.intMin 64 ∧ (q.gr b).toInt = -1 then 0
      else BitVec.ofInt 64 ((q.gr a).toInt - (q.gr a).toInt.tdiv (q.gr b).toInt * (q.gr b).toInt))
  | .remu d a b k => some (k, d, q.gr b, if q.gr b = 0 then q.gr a else BitVec.ofNat 64 ((q.gr a).toNat % (q.gr b).toNat))
  | _ => none

/-- R201: division completes with the quotient or remainder, unless the divisor is 0 and STATUS.dz is 1; then it traps
with DIV_TRAP, even when d is 0, and writes nothing else. -/
def Sys2Proof.Claims.Division : Prop :=
  ∀ (i : Instr) (s : State) (k : BitVec 3) (d : BitVec 5) (b v : Word),
    Claims.divisionResult s.seq i = some (k, d, b, v) → s.seq.kr k = true →
    (¬(b = 0 ∧ s.seq.status.getLsbD 1 = true) →
      Claims.RunsTo i s (Claims.standsAt (s.seq.gw d v) (s.seq.pc + 4))) ∧
    (b = 0 → s.seq.status.getLsbD 1 = true → Claims.canTrap s.seq →
      Claims.RunsTo i s (Claims.entered s.seq 0x008 s.seq.pc s.seq.pc 0 (Claims.leadWord i)))

/-- R200: addsat and subsat write the exact sum or difference clamped to the signed range; STATUS.sat is set exactly
when they clamp, whatever d holds, and no other bit of STATUS changes. -/
def Sys2Proof.Claims.SaturatingSums : Prop :=
  ∀ (s : State) (d a b : BitVec 5) (k : BitVec 3), s.seq.kr k = true →
    ∀ (i : Instr) (x : Int),
      (i = .addsat d a b k ∧ x = (s.seq.gr a).toInt + (s.seq.gr b).toInt) ∨
        (i = .subsat d a b k ∧ x = (s.seq.gr a).toInt - (s.seq.gr b).toInt) →
      ∃ v : Word, v.toInt = max (-(2 ^ 63)) (min x (2 ^ 63 - 1)) ∧
        Claims.RunsTo i s (Claims.standsAt
          ({ s.seq with status := if v.toInt = x then s.seq.status else s.seq.status ||| 4 }.gw d v) (s.seq.pc + 4))

/-- What R204, R205 and R206 write: guard, predicate, value. -/
def Sys2Proof.Claims.predicateResult (q : Seq) : Instr → Option (BitVec 3 × BitVec 3 × Bool)
  | .cmpEq d a b k => some (k, d, decide (q.gr a = q.gr b))
  | .cmpNe d a b k => some (k, d, decide (q.gr a ≠ q.gr b))
  | .cmpLt d a b k => some (k, d, (q.gr a).slt (q.gr b))
  | .cmpLtu d a b k => some (k, d, (q.gr a).ult (q.gr b))
  | .cmpGe d a b k => some (k, d, !(q.gr a).slt (q.gr b))
  | .cmpGeu d a b k => some (k, d, !(q.gr a).ult (q.gr b))
  | .cmpBit d a b k => some (k, d, decide ((q.gr a &&& q.gr b) ≠ 0))
  | .cmpiEq d a i => some (0, d, decide ((q.gr a).toInt = i.toInt))
  | .cmpiNe d a i => some (0, d, decide ((q.gr a).toInt ≠ i.toInt))
  | .cmpiLt d a i => some (0, d, decide ((q.gr a).toInt < i.toInt))
  | .cmpiGe d a i => some (0, d, decide (i.toInt ≤ (q.gr a).toInt))
  | .cmpiuLt d a i => some (0, d, decide ((q.gr a).toNat < i.toNat))
  | .cmpiuGe d a i => some (0, d, decide (i.toNat ≤ (q.gr a).toNat))
  | .pand d a b k => some (k, d, q.kr a && q.kr b)
  | .por d a b k => some (k, d, q.kr a || q.kr b)
  | .pxor d a b k => some (k, d, q.kr a != q.kr b)
  | .pandn d a b k => some (k, d, q.kr a && !q.kr b)
  | .pnot d a k => some (k, d, !q.kr a)
  | .kmov d a k => some (k, d, q.kr a)
  | .kset d a k => some (k, d, decide (q.gr a ≠ 0))
  | _ => none

/-- R204 to R206: compares and predicate instructions complete and write one predicate alone. -/
def Obligations.PredicateInstructions : Prop :=
  ∀ (i : Instr) (s : State) (k d : BitVec 3) (v : Bool),
    Claims.predicateResult s.seq i = some (k, d, v) → s.seq.kr k = true →
    Claims.RunsTo i s (Claims.standsAt (s.seq.kw d v) (s.seq.pc + 4))

/-- R207 to R210: branches and jumps complete, with the link register of jal and jalr and the counter of dbnz; jalr
reads its target before it writes d. -/
def Sys2Proof.Claims.ControlTransfers : Prop :=
  ∀ s : State,
    (∀ c n i, Claims.RunsTo (.br c n i) s
      (Claims.standsAt s.seq (if (s.seq.kr c != (n == 1)) = true then s.seq.pc + i.signExtend 64 * 4 else s.seq.pc + 4))) ∧
    (∀ i, Claims.RunsTo (.jmp i) s (Claims.standsAt s.seq (s.seq.pc + i.signExtend 64 * 4))) ∧
    (∀ d i, Claims.RunsTo (.jal d i) s (Claims.standsAt (s.seq.gw d (s.seq.pc + 4)) (s.seq.pc + i.signExtend 64 * 4))) ∧
    (∀ d a i, (s.seq.gr a + i.signExtend 64).extractLsb' 0 2 = 0 →
      Claims.RunsTo (.jalr d a i) s (Claims.standsAt (s.seq.gw d (s.seq.pc + 4)) (s.seq.gr a + i.signExtend 64))) ∧
    (∀ a i, Claims.RunsTo (.dbnz a i) s (Claims.standsAt (s.seq.gw a (s.seq.gr a - 1))
      (if s.seq.gr a = 1 then s.seq.pc + 4 else s.seq.pc + i.signExtend 64 * 4)))

/-- R209: a jalr whose target is no multiple of 4 traps with MISALIGNED, FVA the target, and writes no link. -/
def Sys2Proof.Claims.JalrMisaligned : Prop :=
  ∀ (s : State) (d a : BitVec 5) (i : BitVec 14), (s.seq.gr a + i.signExtend 64).extractLsb' 0 2 ≠ 0 → Claims.canTrap s.seq →
    Claims.RunsTo (.jalr d a i) s
      (Claims.entered s.seq 0x020 s.seq.pc s.seq.pc (s.seq.gr a + i.signExtend 64) (Claims.leadWord (.jalr d a i)))

/-- The guard and the length of each guarded instruction (R94, R97, R101 to R108, R58). -/
def Sys2Proof.Claims.guardOf : Instr → Option (BitVec 3 × Nat)
  | .nop k | .brk k | .seqEnd k | .yield k | .eret k | .time _ k | .whoami _ k => some (k, 4)
  | .add _ _ _ k | .sub _ _ _ k | .mul _ _ _ k | .mulh _ _ _ k | .mulhu _ _ _ k | .div _ _ _ k | .divu _ _ _ k
  | .rem _ _ _ k | .remu _ _ _ k | .and _ _ _ k | .or _ _ _ k | .xor _ _ _ k | .andn _ _ _ k | .shl _ _ _ k
  | .shr _ _ _ k | .sar _ _ _ k | .rol _ _ _ k | .min _ _ _ k | .max _ _ _ k | .minu _ _ _ k | .maxu _ _ _ k
  | .clz _ _ k | .ctz _ _ k | .popc _ _ k | .bswap _ _ k | .sextB _ _ k | .sextH _ _ k | .sextW _ _ k
  | .addsat _ _ _ k | .subsat _ _ _ k => some (k, 4)
  | .cmpEq _ _ _ k | .cmpNe _ _ _ k | .cmpLt _ _ _ k | .cmpLtu _ _ _ k | .cmpGe _ _ _ k | .cmpGeu _ _ _ k
  | .cmpBit _ _ _ k | .pand _ _ _ k | .por _ _ _ k | .pxor _ _ _ k | .pandn _ _ _ k | .pnot _ _ k | .kmov _ _ k
  | .kset _ _ k => some (k, 4)
  | .ld _ _ _ _ _ k _ | .st _ _ _ _ _ k _ => some (k, 8)
  | .fence _ k | .fenceAcq _ k | .fenceRel _ k | .fenceStrm _ k => some (k, 4)
  | .cfgLoad _ k | .cfgRun k | .cfgDrain k | .cfgParam _ _ k | .cfgUnbind _ k | .cfgQuery _ _ k | .cfgAbort k => some (k, 4)
  | .push _ _ _ _ _ _ k _ _ _ | .pull _ _ _ _ _ _ k _ _ _ | .pushn _ _ _ _ _ _ k _ _ _ _ => some (k, 12)
  | .tagBlk _ k | .tagUbk _ k | .tagWait _ k | .tagTest _ _ k | .tagCnt _ _ k | .tagBind _ _ k | .tagArm _ _ _ k
  | .tagSig _ _ _ _ _ _ k | .tagClr _ k => some (k, 8)
  | .fold _ _ _ _ _ _ _ _ _ _ _ k => some (k, 8)
  | .chnOpen k _ | .chnSend _ _ k _ | .chnRecv _ _ _ k _ | .chnClose k _ | .chnStat _ k _ => some (k, 8)
  | .launch _ _ _ _ _ k _ _ => some (k, 12)
  | _ => none

/-- R94: with its guard false, an instruction changes nothing but pc, which moves past it. -/
def Obligations.FalseGuard : Prop :=
  ∀ (i : Instr) (s : State) (k : BitVec 3) (n : Nat), Claims.guardOf i = some (k, n) → s.seq.kr k = false →
    Claims.RunsTo i s (Claims.standsAt s.seq (s.seq.pc + BitVec.ofNat 64 n))

/-! ## Sys, traps, control registers -/

/-- R198: nop has no effect; end stops fetch at itself; a yield that nothing has yet ended waits where it is, with its wake
mark cleared, and one that a wake event or 4,096 cycles (of 1.3 GHz, against TICK's 1 GHz) has ended goes on. -/
def Sys2Proof.Claims.SysEffects : Prop :=
  ∀ (s : State) (k : BitVec 3), s.seq.kr k = true →
    Claims.RunsTo (.nop k) s (Claims.standsAt s.seq (s.seq.pc + 4)) ∧
    Claims.RunsTo (.seqEnd k) s { s.seq with run := .ended, waitFrom := none } ∧
    (s.seq.waitFrom = none →
      Claims.RunsTo (.yield k) s { s.seq with run := .waiting, waitFrom := some s.tick, wake := false }) ∧
    (∀ t0, s.seq.waitFrom = some t0 → s.seq.wake = true ∨ 4096 * 10 ≤ (s.tick - t0) * 13 →
      Claims.RunsTo (.yield k) s (Claims.standsAt { s.seq with wake := false } (s.seq.pc + 4))) ∧
    (∀ t0, s.seq.waitFrom = some t0 → s.seq.wake = false → (s.tick - t0) * 13 < 4096 * 10 →
      Claims.RunsTo (.yield k) s { s.seq with run := .waiting })

/-- R186, R198, R218: brk and trap take their causes, resuming at the next instruction; IVA is the instruction itself;
FINFO is the lead word for brk and imm14 for trap, whose low four bits choose the cause. -/
def Sys2Proof.Claims.SoftwareTraps : Prop :=
  ∀ s : State, Claims.canTrap s.seq →
    (∀ k, s.seq.kr k = true →
      Claims.RunsTo (.brk k) s (Claims.entered s.seq 0x009 (s.seq.pc + 4) s.seq.pc 0 (Claims.leadWord (.brk k)))) ∧
    (∀ i : BitVec 14,
      Claims.RunsTo (.trap i) s (Claims.entered s.seq (0x010 + BitVec.ofNat 9 (i.toNat % 16)) (s.seq.pc + 4) s.seq.pc 0 (i.setWidth 64)))

/-- What the voided rounds of a bank still wait for when the handler of their cause has ended with an eret (R353). -/
def Sys2Proof.Claims.waitsAfterEret (l : List VoidWait) : List VoidWait :=
  l.filter (fun w => match w with | .eret _ entered => !entered | .answer _ => true | .service => true | .remap => true)

/-- R198, R353: in handler mode eret puts pc at EPC and clears STATUS.mode; of the rest of the machine it ends the waits of the voided
rounds of its region whose cause's handler had been entered, and nothing else: no byte of memory. In normal mode it traps with
ERET_OUTSIDE. -/
def Sys2Proof.Claims.EretReturns : Prop :=
  ∀ (s : State) (k : BitVec 3), s.seq.kr k = true →
    (s.seq.handler = true → ∃ t, exec (.eret k) s = .next t ∧
      t.seq = Claims.standsAt { s.seq with status := s.seq.status &&& ~~~(1 : Word) } s.seq.epc ∧
      t.seq.handler = false ∧ (∀ a, t.mem.read a = s.mem.read a) ∧ t.parts = s.parts ∧ t.pkg = s.pkg ∧
      (∀ r, r ≠ s.cur → t.reg r = s.reg r) ∧
      t.reg s.cur = { s.reg s.cur with
        seq := t.seq
        bankA := { (s.reg s.cur).bankA with voids := Claims.waitsAfterEret (s.reg s.cur).bankA.voids }
        bankB := { (s.reg s.cur).bankB with voids := Claims.waitsAfterEret (s.reg s.cur).bankB.voids } }) ∧
    (s.seq.handler = false → s.seq.tvec ≠ 0 →
      Claims.RunsTo (.eret k) s (Claims.entered s.seq 0x007 s.seq.pc s.seq.pc 0 (Claims.leadWord (.eret k))))

/-- R185: a delivery in normal mode with TVEC nonzero makes exactly the assignments of Deliver: no general register, no
predicate, no landing slot, no byte of memory and no other region changes. -/
def Sys2Proof.Claims.DeliveryRegisters : Prop :=
  ∀ (s : State) (r : Nat) (cause : BitVec 9) (resume first fva finfo : Word), Claims.canTrap (s.reg r).seq →
    let t := s.deliver r cause resume first fva finfo
    let q := (t.reg r).seq
    q.epc = resume ∧ q.iva = first ∧ q.cause = cause.setWidth 64 ∧ q.fva = fva ∧ q.finfo = finfo ∧
    q.handler = true ∧ (∀ n, n ≠ 0 → q.status.getLsbD n = (s.reg r).seq.status.getLsbD n) ∧ q.pc = (s.reg r).seq.tvec ∧
    q.tvec = (s.reg r).seq.tvec ∧ (∀ a, q.gr a = (s.reg r).seq.gr a) ∧ (∀ a, q.kr a = (s.reg r).seq.kr a) ∧
    (∀ n, q.slot n = (s.reg r).seq.slot n) ∧ (∀ a, t.mem.read a = s.mem.read a) ∧ (∀ x, x ≠ r → t.reg x = s.reg x) ∧
    t.parts = s.parts

/-- R187, R355: a delivery in handler mode, or with TVEC 0, is fatal: the sequencer halts, and the partition placed there
starts to reset, with HANDLER_NESTED in handler mode and the cause itself otherwise, and with the cause that was to be
delivered and its resume, first and fva. No control register changes. -/
def Sys2Proof.Claims.FatalDelivery : Prop :=
  ∀ (s : State) (r p : Nat) (v : Part) (cause : BitVec 9) (resume first fva finfo : Word),
    (s.reg r).seq.handler = true ∨ (s.reg r).seq.tvec = 0 → s.owner r = some p → s.part? p = some v → v.reset = none →
    let t := s.deliver r cause resume first fva finfo
    t.part? p = some { v with state := .resetting, reset := some (
        { cause := if (s.reg r).seq.handler then 0x006 else cause, delivered := cause, region := r, resume := resume,
          first := first, fva := fva } : ResetReq) } ∧
    (t.reg r).seq = { (s.reg r).seq with run := .halted } ∧ (∀ a, t.mem.read a = s.mem.read a)

/-- What a control register holds after a write, by R190: the fields that a write changes. -/
def Sys2Proof.Claims.csrAfter (q : Seq) (c : Nat) (v : Word) : Option Seq :=
  match c with
  | 0x000 => some { q with status := (q.status &&& 1) ||| (v &&& 6) }
  | 0x001 => some { q with tvec := v &&& ~~~(3 : Word) }
  | 0x002 => some { q with epc := v &&& ~~~(3 : Word) }
  | 0x003 => some { q with cause := v &&& 0x1FF }
  | 0x004 => some { q with fva := v }
  | 0x005 => some { q with iva := v &&& ~~~(3 : Word) }
  | 0x006 => some { q with finfo := v }
  | n => if h : 0x040 ≤ n ∧ n ≤ 0x04F then some { q with scr := q.scr.set (n - 0x040) v (by omega) } else none

/-- R189, R190, R217: csrr writes the old value of a register of the map to g[d]; csrw, csrs and csrc write g[a], the OR
and the AND-NOT into the register's writable fields and the old value to g[d]. Nothing else changes. -/
def Sys2Proof.Claims.ControlRegisterOps : Prop :=
  ∀ (s : State) (d a : BitVec 5) (c : BitVec 12) (old : Word), s.csr c.toNat = some old →
    Claims.RunsTo (.csrr d c) s (Claims.standsAt (s.seq.gw d old) (s.seq.pc + 4)) ∧
    ∀ (i : Instr) (new : Word) (q : Seq),
      (i = .csrw d a c ∧ new = s.seq.gr a) ∨ (i = .csrs d a c ∧ new = old ||| s.seq.gr a) ∨
        (i = .csrc d a c ∧ new = old &&& ~~~(s.seq.gr a)) →
      Claims.csrAfter s.seq c.toNat new = some q →
      Claims.RunsTo i s (Claims.standsAt (q.gw d old) (s.seq.pc + 4))

/-- R27, R48, R160, R190: what csrr reads: STATUS, TVEC, EPC, CAUSE, FVA, IVA, FINFO and the scratch registers as the sequencer holds
them; of a placed region its number, the graph object, the stage with its number, lane and width, and the replay; TICK; the ticks to
the set's next gang tick; and which landing slots are full and which are owed a value. -/
def Sys2Proof.Claims.ControlRegisterValues : Prop :=
  ∀ s : State,
    let q := s.seq
    s.csr 0x000 = some q.status ∧ s.csr 0x001 = some q.tvec ∧ s.csr 0x002 = some q.epc ∧ s.csr 0x003 = some q.cause ∧ s.csr 0x004 = some q.fva ∧
    s.csr 0x005 = some q.iva ∧ s.csr 0x006 = some q.finfo ∧ (∀ n, (h : n < 16) → s.csr (0x040 + n) = some q.scr[n]) ∧
    (∀ pl, (s.reg s.cur).place = some pl →
      s.csr 0x010 = some (BitVec.ofNat 64 s.cur) ∧ s.csr 0x011 = some (BitVec.ofNat 64 pl.graph) ∧ s.csr 0x013 = some (BitVec.ofNat 64 pl.replay) ∧
      ∃ v : Word, s.csr 0x012 = some v ∧ v.extractLsb' 0 16 = BitVec.ofNat 16 pl.stage ∧ v.extractLsb' 16 8 = BitVec.ofNat 8 pl.number ∧
        v.extractLsb' 24 8 = BitVec.ofNat 8 pl.lane ∧ v.extractLsb' 32 8 = BitVec.ofNat 8 pl.width ∧ v.extractLsb' 40 24 = 0) ∧
    s.csr 0x020 = some (BitVec.ofNat 64 s.tick) ∧
    (∀ p v t, s.owner s.cur = some p → s.part? p = some v → spFind s.sets v.set = some t →
      s.csr 0x021 = some (BitVec.ofNat 64 (1000 * t.period - s.tick % (1000 * t.period)))) ∧
    ∃ v : Word, s.csr 0x030 = some v ∧ v.extractLsb' 32 32 = 0 ∧ ∀ n, (h : n < 16) →
      (v.getLsbD n = true ↔ ∃ x, q.slots[n] = .full x) ∧ (v.getLsbD (16 + n) = true ↔ q.slots[n] = .owed)

/-- R189, R217: a number outside the map is CSR_ILLEGAL for all four operations; a write to REGIONID, GRAPHID, STAGEID,
REPLAY, TICK, QLEFT or LANDST is CSR_READONLY whatever g[a] holds; and the map is exactly that of R189. -/
def Sys2Proof.Claims.ControlRegisterTraps : Prop :=
  ∀ (s : State) (d a : BitVec 5) (c : BitVec 12),
    (s.csr c.toNat = none ↔ c.toNat ∉ [0, 1, 2, 3, 4, 5, 6, 0x010, 0x011, 0x012, 0x013, 0x020, 0x021, 0x030] ∧
      ¬(0x040 ≤ c.toNat ∧ c.toNat ≤ 0x04F)) ∧
    (Claims.canTrap s.seq → s.csr c.toNat = none → ∀ i ∈ [Instr.csrr d c, .csrw d a c, .csrs d a c, .csrc d a c],
      Claims.RunsTo i s (Claims.entered s.seq 0x004 s.seq.pc s.seq.pc 0 (Claims.leadWord i))) ∧
    (Claims.canTrap s.seq → c.toNat ∈ [0x010, 0x011, 0x012, 0x013, 0x020, 0x021, 0x030] →
      ∀ i ∈ [Instr.csrw d a c, .csrs d a c, .csrc d a c],
        Claims.RunsTo i s (Claims.entered s.seq 0x005 s.seq.pc s.seq.pc 0 (Claims.leadWord i)))

/-! ## Memory -/

/-- The bytes that a size code of ld accesses (R101): b, h, w, d, bu, hu, wu. -/
def Sys2Proof.Claims.width (size : BitVec 3) : Nat := [1, 2, 4, 8, 1, 2, 4, 8].getD size.toNat 8

/-- The little-endian number in `n` bytes of memory (R5). -/
def Sys2Proof.Claims.number (m : Memory) (pa n : Nat) : Nat := ((List.range n).map (fun i => (m.read (pa + i)).toNat * 256 ^ i)).sum

/-- What ld makes of the number it reads: sizes b, h and w extend the sign, the others zero-extend (R211). -/
def Sys2Proof.Claims.extended (size : BitVec 3) (v : Nat) : Word :=
  match size.toNat with
  | 0 => (BitVec.ofNat 8 v).signExtend 64
  | 1 => (BitVec.ofNat 16 v).signExtend 64
  | 2 => (BitVec.ofNat 32 v).signExtend 64
  | _ => BitVec.ofNat 64 v

/-- `n` is the sum of a register and an offset, as integers (R8, R101). -/
def Sys2Proof.Claims.Sum (x : Word) (off : Int) (n : Nat) : Prop := (x.toNat : Int) + off = n

/-- R211: an aligned ld whose address is reachable for reading and holds no poison completes: g[d] is the number read,
extended by its size; memory, the predicates and every other region stay as they are. -/
def Sys2Proof.Claims.LoadCompletes : Prop :=
  ∀ (s s1 : State) (d a : BitVec 5) (size : BitVec 3) (order : BitVec 2) (scope k : BitVec 3) (off : BitVec 32) (ea pa : Nat),
    size ≠ 7 → s.seq.kr k = true → s.held s.cur = false → Claims.Sum (s.seq.gr a) off.toInt ea →
    ea % Claims.width size = 0 → s.reach (s.seqWho s.cur) ea .read = (s1, .ok pa) →
    s1.physFault pa (Claims.width size) .read = none →
    ∃ t, exec (.ld d a size order scope k off) s = .next t ∧
      t.seq = Claims.standsAt (s.seq.gw d (Claims.extended size (Claims.number s.mem pa (Claims.width size)))) (s.seq.pc + 8) ∧
      (∀ x, t.mem.read x = s.mem.read x) ∧ (∀ r, r ≠ s.cur → t.reg r = s.reg r) ∧
      t.reg s.cur = { s.reg s.cur with seq := t.seq, tlb := (t.reg s.cur).tlb }

/-- R211: an aligned st whose address is outside the fold windows and reachable for writing completes: the bytes from the
physical address up are the low bytes of g[d], every other byte of memory reads as before, and no register changes but
pc. -/
def Sys2Proof.Claims.StoreCompletes : Prop :=
  ∀ (s s1 : State) (v : Part) (d a : BitVec 5) (size : BitVec 3) (order : BitVec 2) (scope k : BitVec 3) (off : BitVec 32) (ea pa : Nat),
    size.toNat < 4 → s.seq.kr k = true → s.held s.cur = false → Claims.Sum (s.seq.gr a) off.toInt ea →
    s.part? (s.seqWho s.cur).part = some v →
    inWindow v ea (Claims.width size) = false → ea % Claims.width size = 0 →
    s.reach (s.seqWho s.cur) ea .write = (s1, .ok pa) →
    s1.physFault pa (Claims.width size) .write = none →
    ∃ t, exec (.st d a size order scope k off) s = .next t ∧
      t.seq = Claims.standsAt s.seq (s.seq.pc + 8) ∧
      (∀ i, i < Claims.width size → t.mem.read (pa + i) = BitVec.ofNat 8 ((s.seq.gr d).toNat / 256 ^ i)) ∧
      (∀ x, ¬(pa ≤ x ∧ x < pa + Claims.width size) → t.mem.read x = s.mem.read x) ∧
      (∀ r, r ≠ s.cur → t.reg r = s.reg r) ∧
      t.reg s.cur = { s.reg s.cur with seq := t.seq, tlb := (t.reg s.cur).tlb }

/-- R186, R211, R212: a misaligned ld or st traps with MISALIGNED, FVA the effective address; a plain st into a fold
window of its partition traps with FOLD_FOREIGN_WRITE before any translation. Neither changes memory or a general
register. FVA holds the address modulo 2^64. -/
def Obligations.LoadStoreTraps : Prop :=
  ∀ (s : State) (d a : BitVec 5) (size : BitVec 3) (order : BitVec 2) (scope k : BitVec 3) (off : BitVec 32),
    Claims.canTrap s.seq → s.seq.kr k = true → s.held s.cur = false →
    let ea := s.seq.gr a + off.signExtend 64
    (ea.toNat % Claims.width size ≠ 0 →
      (size ≠ 7 → Claims.RunsTo (.ld d a size order scope k off) s
        (Claims.entered s.seq 0x020 s.seq.pc s.seq.pc ea (Claims.leadWord (.ld d a size order scope k off)))) ∧
      (size.toNat < 4 → Claims.RunsTo (.st d a size order scope k off) s
        (Claims.entered s.seq 0x020 s.seq.pc s.seq.pc ea (Claims.leadWord (.st d a size order scope k off))))) ∧
    (∀ v n, s.part? (s.seqWho s.cur).part = some v → size.toNat < 4 → Claims.Sum (s.seq.gr a) off.toInt n → n % Claims.width size = 0 →
      (∃ w ∈ v.windows, n < w.va + 2 ^ w.log2 ∧ w.va < n + Claims.width size) →
      Claims.RunsTo (.st d a size order scope k off) s
        (Claims.entered s.seq 0x024 s.seq.pc s.seq.pc ea (Claims.leadWord (.st d a size order scope k off))))

/-- Every engine command of the program that stands at a region has performed: the region has no copy outstanding, and no signal, fold
or rank frame that it has sent for the replay placed there (R215, R216). -/
def Sys2Proof.Claims.enginesIdle (s : State) (r : Nat) : Prop :=
  (s.reg r).copies = [] ∧ ∀ pl, (s.reg r).place = some pl →
    (∀ g ∈ s.openSignals, g.src = r → ¬(g.part = pl.part ∧ g.replay = pl.replay)) ∧
    (∀ f ∈ s.pkg.folds, f.issuer = r → f.part = pl.part → f.replay = pl.replay → f.rmw = true) ∧
    ∀ e ∈ s.parts, e.1 = pl.part → ∀ f ∈ e.2.frames, f.src = r → f.replay ≠ pl.replay

/-- The instruction has no effect yet and is executed again. -/
def Sys2Proof.Claims.Waits (i : Instr) (s : State) : Prop :=
  Claims.RunsTo i s { s.seq with run := .waiting, waitFrom := s.seq.waitFrom.or (some s.tick) }

/-- R216: an acquire or release fence completes at once, since a ld or st performs at its own step (log 6). A full fence completes when no copy of
the region and no signal, fold or rank frame of the replay that is placed there is outstanding, and waits while one is. A stream-only fence completes
at once, and while one of those is outstanding it holds back the engine commands behind it, here fold and tag.sig, but no ld or st: it leaves a hold
that `held`, which ld and st look at, does not count. -/
def Obligations.Fences : Prop :=
  ∀ (s : State) (scope k : BitVec 3), s.seq.kr k = true →
    (∀ i ∈ [Instr.fenceAcq scope k, .fenceRel scope k], Claims.RunsTo i s (Claims.standsAt s.seq (s.seq.pc + 4))) ∧
    (Claims.enginesIdle s s.cur → Claims.RunsTo (.fence scope k) s (Claims.standsAt s.seq (s.seq.pc + 4))) ∧
    (¬ Claims.enginesIdle s s.cur → Claims.Waits (.fence scope k) s) ∧
    (∃ hs, Claims.RunsTo (.fenceStrm scope k) s (Claims.standsAt { s.seq with holds := hs } (s.seq.pc + 4)) ∧
      (∀ h, h ≠ .engines → (h ∈ hs ↔ h ∈ s.seq.holds)) ∧ (Hold.engines ∈ hs ↔ ¬ Claims.enginesIdle s s.cur)) ∧
    (Hold.engines ∈ s.seq.holds → ¬ Claims.enginesIdle s s.cur →
      (∀ a b c op r slot off size acq rel, Claims.Waits (.fold a b c op r slot off size acq rel scope k) s) ∧
      (∀ t a mode acq rel, Claims.Waits (.tagSig t a mode acq rel scope k) s) ∧
      ((∀ h ∈ s.seq.holds, h = .engines) → s.held s.cur = false))

/-- R280: the tier window. The palette alias reaches the region's own 2 MiB; a vat address reaches the slice of a region
of the partition and no other; the rest of the palette range and of the window has its cause. -/
def Obligations.TierWindow : Prop :=
  ∀ (s : State) (r p va : Nat) (v : Part) (k : AKind), s.part? p = some v → k ≠ .fetch →
    (0xFF0000000000 ≤ va → va < 0xFF0000200000 →
      s.reach { part := p, region := some r, unit := 255 } va k = (s, .ok (2 ^ 52 + r * 2 ^ 21 + (va - 0xFF0000000000)))) ∧
    (0xFF0000200000 ≤ va → va < 0xFF1000000000 →
      s.reach { part := p, region := some r, unit := 255 } va k = (s, .fault 0x023 va)) ∧
    (∀ die n off, va = 0xFF1000000000 + die * 2 ^ 27 + n * 2 ^ 21 + off → die < 4 → n < 64 → off < 2 ^ 21 →
      s.reach { part := p, region := some r, unit := 255 } va k =
        if n < 48 ∧ v.regions.getLsbD (48 * die + n) = true then (s, .ok (0x010000000000 + die * 2 ^ 27 + n * 2 ^ 21 + off)) else (s, .fault 0x0E0 va)) ∧
    (0xFF1020000000 ≤ va → va < 2 ^ 48 → s.reach { part := p, region := some r, unit := 255 } va k = (s, .fault 0x0E0 va))

/-! ## Instructions that change their own region -/

/-- `i` completes from `s`: the current region becomes `g`, no other region, no partition and no byte of memory changes. -/
def Sys2Proof.Claims.RegionRunsTo (i : Instr) (s : State) (g : Region) : Prop :=
  ∃ t, exec i s = .next t ∧ t.reg s.cur = g ∧ (∀ r, r ≠ s.cur → t.reg r = s.reg r) ∧ (∀ a, t.mem.read a = s.mem.read a) ∧
    t.pkg = s.pkg ∧ t.parts = s.parts ∧ t.sets = s.sets ∧ t.cur = s.cur

/-- The current region with its sequencer past an instruction of `n` bytes. -/
def Sys2Proof.Claims.past (s : State) (n : Nat) (g : Region) : Region :=
  { g with seq := Claims.standsAt g.seq (s.seq.pc + BitVec.ofNat 64 n) }

/-- R273, R274, R277: cfg.drain empties the bank other(cur) if it is loaded and does nothing otherwise; cfg.param writes one
of the 32 parameter registers; cfg.abort with no block running does nothing. -/
def Sys2Proof.Claims.CfgDrainParamAbort : Prop :=
  ∀ (s : State) (k : BitVec 3) (a b : BitVec 5), s.seq.kr k = true →
    let r := s.reg s.cur
    ((r.bank (!r.cur)).state = 1 → Claims.RegionRunsTo (.cfgDrain k) s (Claims.past s 4 (r.setBank (!r.cur) {}))) ∧
    ((r.bank (!r.cur)).state ≠ 1 → Claims.RegionRunsTo (.cfgDrain k) s (Claims.past s 4 r)) ∧
    ((s.seq.gr a).toNat < 32 →
      Claims.RegionRunsTo (.cfgParam a b k) s (Claims.past s 4 { r with params := spInsert r.params (s.seq.gr a).toNat (s.seq.gr b) })) ∧
    (r.bankA.state ≠ 2 ∧ r.bankA.state ≠ 3 → r.bankB.state ≠ 2 ∧ r.bankB.state ≠ 3 →
      Claims.RegionRunsTo (.cfgAbort k) s (Claims.past s 4 r))

/-- R277: after cfg.abort no block is running: a bank that was in state 2 or 3 is empty with no bindings and no image, and
a loaded bank is kept. No byte of memory changes, and no other region. -/
def Sys2Proof.Claims.CfgAbortEndsBlocks : Prop :=
  ∀ (s : State) (k : BitVec 3), s.seq.kr k = true →
    ∃ t, exec (.cfgAbort k) s = .next t ∧ t.seq.pc = s.seq.pc + 4 ∧ (∀ a, t.seq.gr a = s.seq.gr a) ∧ (∀ a, t.seq.kr a = s.seq.kr a) ∧
      (∀ b : Bool, let o := (s.reg s.cur).bank b; let n := (t.reg s.cur).bank b
        (o.state = 2 ∨ o.state = 3 → n.state = 0 ∧ n.img = none ∧ n.bound = [] ∧ n.islands = [] ∧ n.holds = []) ∧
        (o.state = 1 → n.state = 1 ∧ n.img = o.img)) ∧
      (t.reg s.cur).cur = (s.reg s.cur).cur ∧ (t.reg s.cur).params = (s.reg s.cur).params ∧
      (∀ a, t.mem.read a = s.mem.read a) ∧ (∀ r, r ≠ s.cur → t.reg r = s.reg r)

/-- R275, R285: cfg.unbind takes the stream's entry out of a loaded block; the binding of a running block ends at once if the
stream has performed its last element, and otherwise stays, marked; an unbound stream is left alone. Of the streams only the elements
of a memory word that is not full may go, with a binding that ends. -/
def Sys2Proof.Claims.CfgUnbindEndsBindings : Prop :=
  ∀ (s : State) (k : BitVec 3) (a : BitVec 5), s.seq.kr k = true → (s.seq.gr a).toNat < 128 →
    let n := (s.seq.gr a).toNat
    ∃ t, exec (.cfgUnbind a k) s = .next t ∧ t.seq = Claims.standsAt s.seq (s.seq.pc + 4) ∧
      (∀ b : Bool, let o := (s.reg s.cur).bank b; let u := (t.reg s.cur).bank b
        (o.state = 1 → ∀ i, o.img = some i →
          u.img.map Block.binds = some (i.binds.filter (fun e => e.stream != n)) ∧ u.state = 1) ∧
        (o.state = 2 ∨ o.state = 3 → o.bound.any (fun e => e.stream == n) = true →
          (((s.reg s.cur).stream n).state = 3 → ((s.reg s.cur).stream n).ahead = [] →
            ((s.reg s.cur).stream n).desc.dir = 1 ∨ (((s.reg s.cur).stream n).elems = [] ∧ ((s.reg s.cur).stream n).part = []) → u.bound.any (fun e => e.stream == n) = false) ∧
          (((s.reg s.cur).stream n).state ≠ 3 → u.bound.any (fun e => e.stream == n) = true ∧ n ∈ u.unbinding))) ∧
      (∀ m, (t.reg s.cur).stream m = { (s.reg s.cur).stream m with part := ((t.reg s.cur).stream m).part }) ∧
      (∀ m, m ≠ n → m ∉ (s.reg s.cur).bankA.unbinding → m ∉ (s.reg s.cur).bankB.unbinding →
        (t.reg s.cur).stream m = (s.reg s.cur).stream m) ∧
      (∀ x, t.mem.read x = s.mem.read x) ∧ (∀ r, r ≠ s.cur → t.reg r = s.reg r)

/-- R276: the item that cfg.query writes for each value of g[a] in its table: BANKS, STICKY, STICKY read and cleared, ROUNDS
and the parameter registers. -/
def Sys2Proof.Claims.CfgQueryItems : Prop :=
  ∀ (s : State) (k : BitVec 3) (d a : BitVec 5), s.seq.kr k = true →
    let r := s.reg s.cur
    let sticky : Word := (if r.sat then 1 else 0) ||| (if r.snan then 2 else 0)
    (s.seq.gr a = 0 → r.bankA.state < 4 → r.bankB.state < 4 → (r.bank r.cur).islands.length ≤ 16 →
      ∃ v : Word, Claims.RegionRunsTo (.cfgQuery d a k) s (Claims.past s 4 { r with seq := s.seq.gw d v }) ∧
        (v.extractLsb' 0 2).toNat = r.bankA.state ∧ (v.extractLsb' 2 2).toNat = r.bankB.state ∧ v.getLsbD 4 = r.cur ∧
        v.extractLsb' 5 3 = 0 ∧ v.extractLsb' 40 24 = 0 ∧
        ∀ i, i < 16 → v.getLsbD (8 + i) = (((r.bank r.cur).islands[i]?.map Island.started).getD false) ∧
          v.getLsbD (24 + i) = (((r.bank r.cur).islands[i]?.map Island.complete).getD false)) ∧
    (s.seq.gr a = 1 → Claims.RegionRunsTo (.cfgQuery d a k) s (Claims.past s 4 { r with seq := s.seq.gw d sticky })) ∧
    (s.seq.gr a = 2 →
      Claims.RegionRunsTo (.cfgQuery d a k) s (Claims.past s 4 { r with sat := false, snan := false, seq := s.seq.gw d sticky })) ∧
    (s.seq.gr a = 3 →
      Claims.RegionRunsTo (.cfgQuery d a k) s (Claims.past s 4 { r with seq := s.seq.gw d (BitVec.ofNat 64 (r.bank r.cur).rounds) })) ∧
    (∀ n, n < 32 → s.seq.gr a = BitVec.ofNat 64 (0x20 + n) →
      Claims.RegionRunsTo (.cfgQuery d a k) s (Claims.past s 4 { r with seq := s.seq.gw d (spGet 0 r.params n) }))

/-- R186, R271, R272, R274 to R276: the refusals of the cfg group take their causes and change nothing else. What FVA and FINFO hold where no rule of
the cause says it is the model's choice (log 21). -/
def Sys2Proof.Claims.CfgTraps : Prop :=
  ∀ (s : State) (k : BitVec 3) (d a b : BitVec 5), s.seq.kr k = true → Claims.canTrap s.seq →
    let r := s.reg s.cur
    let A := s.seq.gr a
    let traps := fun (i : Instr) (c : BitVec 9) (fva : Word) => Claims.RunsTo i s (Claims.entered s.seq c s.seq.pc s.seq.pc fva (Claims.leadWord i))
    (A.extractLsb' 0 6 ≠ 0 → traps (.cfgLoad a k) 0x020 A) ∧
    ((r.bank (!r.cur)).state ≠ 1 → traps (.cfgRun k) 0x069 0) ∧
    (32 ≤ A.toNat → traps (.cfgParam a b k) 0x06A 0) ∧
    (128 ≤ A.toNat → traps (.cfgUnbind a k) 0x06A 0) ∧
    (A.toNat ∉ [0, 1, 2, 3] → ¬(0x20 ≤ A.toNat ∧ A.toNat ≤ 0x3F) → traps (.cfgQuery d a k) 0x06A 0)

/-- R271: cfg.load of an image that reads without a fault and passes the checks of R118 completes: the bank it goes to holds
the block in state 1; the other bank, the cells, the edge units, the tags and all of memory stay as they are. -/
def Sys2Proof.Claims.CfgLoadCompletes : Prop :=
  ∀ (s s1 s2 : State) (a : BitVec 5) (k : BitVec 3) (header rest : List Byte) (b : Block) (t : Bool),
    s.seq.kr k = true → (s.seq.gr a).extractLsb' 0 6 = 0 →
    s.readVA { s.seqWho s.cur with unit := 0xFB } (s.seq.gr a).toNat 64 = (s1, .ok header) →
    numAt header 0 4 = 0x4B434C42 → checkHeader header = .ok () →
    s1.readMany { s1.seqWho s1.cur with unit := 0xFB } 8 ((numAt header 12 4 - 64) / 8) ((s.seq.gr a).toNat + 64) = (s2, .ok rest) →
    (s2.reg s2.cur).checkImage (s.seq.gr a).toNat (header ++ rest) = .ok (b, t) →
    ∃ u, exec (.cfgLoad a k) s = .next u ∧ u.seq = Claims.standsAt s.seq (s.seq.pc + 4) ∧
      (u.reg s.cur).bank t = { state := 1, img := some b } ∧ (u.reg s.cur).bank (!t) = (s.reg s.cur).bank (!t) ∧
      t = (b.pinned.getD (!(s.reg s.cur).cur)) ∧ t ≠ (s.reg s.cur).cur ∧
      (u.reg s.cur).cur = (s.reg s.cur).cur ∧ (u.reg s.cur).cells = (s.reg s.cur).cells ∧ (u.reg s.cur).edges = (s.reg s.cur).edges ∧
      (u.reg s.cur).tags = (s.reg s.cur).tags ∧ (∀ x, u.mem.read x = s.mem.read x) ∧ (∀ r, r ≠ s.cur → u.reg r = s.reg r)

/-- A stream is bound by a block of the region, or is the source of one that is, at any depth: it then counts as bound to it too (R272,
R289). -/
def Sys2Proof.Claims.boundBy (r : Region) (n : Nat) : Prop :=
  ∃ e ∈ r.bankA.bound ++ r.bankB.bound, n = e.stream ∨ n ∈ (r.srcsOf 128 e.stream).map Prod.fst

/-- R272: cfg.run of a loaded block none of whose streams, or of their sources, is taken and all of whose streams are open in the right
direction: its bank runs and becomes cur, its constants are the 32 parameter registers, its bindings are those of the
image; of its streams those in state 1 or 4 are then in state 2, and one in state 3 stays there; nothing outside the region changes. -/
def Sys2Proof.Claims.CfgRunStartsBlock : Prop :=
  ∀ (s : State) (k : BitVec 3) (img : Block), s.seq.kr k = true →
    let r := s.reg s.cur
    (r.bank (!r.cur)).state = 1 → (r.bank (!r.cur)).img = some img →
    (∀ e ∈ img.binds, (∀ n, n = e.stream ∨ n ∈ (r.srcsOf 128 e.stream).map Prod.fst → ¬ Claims.boundBy r n) ∧ (∀ x ∈ r.streams, x.2.usesSource e.stream = true → x.2.state ≠ 2) ∧
      (r.stream e.stream).state ≠ 0 ∧ kindIn e.kind = ((r.stream e.stream).desc.dir == 0) ∧
      (r.stream e.stream).desc.dir < 2) →
    ∃ t, exec (.cfgRun k) s = .next t ∧ t.seq = Claims.standsAt s.seq (s.seq.pc + 4) ∧
      let u := t.reg s.cur
      u.cur = (!r.cur) ∧ (u.bank u.cur).state = 2 ∧ (u.bank u.cur).img = some img ∧ (u.bank u.cur).bound = img.binds ∧
      (u.bank u.cur).consts = (List.range 32).map (fun i => spGet 0 r.params i) ∧
      (u.bank u.cur).islands.length = img.islands.length ∧ (∀ i ∈ (u.bank u.cur).islands, i.started = false ∧ i.complete = false) ∧
      u.bank r.cur = r.bank r.cur ∧
      (∀ e ∈ img.binds, (u.stream e.stream).state ≠ 1 ∧ (u.stream e.stream).state ≠ 4 ∧
        ((r.stream e.stream).state = 1 ∨ (r.stream e.stream).state = 2 ∨ (r.stream e.stream).state = 4 → (u.stream e.stream).state = 2) ∧
        ((r.stream e.stream).state = 3 → (u.stream e.stream).state = 3)) ∧
      (∀ a, t.mem.read a = s.mem.read a) ∧ (∀ x, x ≠ s.cur → t.reg x = s.reg x) ∧ t.parts = s.parts

/-! ## Streams -/

/-- No block in state 2 or 3 binds the stream, and neither it nor a stream that it is a source of is running (R283). -/
def Sys2Proof.Claims.idleStream (r : Region) (n : Nat) : Prop :=
  r.binding n = none ∧ (r.stream n).state ≠ 2 ∧ ∀ e ∈ r.streams, e.2.usesSource n = true → e.2.state ≠ 2

/-- A stream is held by strm.bar: a mask that it has been given names a stream that is in none of the states 0, 3 and 4 (R299). -/
def Sys2Proof.Claims.heldByBar (r : Region) (n : Nat) : Prop :=
  ∃ m ∈ (r.stream n).bars, ∃ i, i < 128 ∧ m.testBit i = true ∧ (r.stream i).state ≠ 0 ∧ (r.stream i).state ≠ 3 ∧ (r.stream i).state ≠ 4

/-- Stream `n` of `g`, whose holds are gone if they were satisfied when a stream of the region was about to leave one of the states
0, 3 and 4: a hold that has once been satisfied does not come back (R299). -/
def Sys2Proof.Claims.Settled (g : Region) (n : Nat) (v : Stream) : Prop :=
  (Claims.heldByBar g n → v = g.stream n) ∧ (¬ Claims.heldByBar g n → v = { g.stream n with bars := [] })

/-- R297, R299, R313: strm.open of a legal descriptor that reads without a fault completes: the stream is in state 1 at position 0 with
its LFSR at the seed, and in a channel mode, which needs the right end of the channel open here, at the channel's next slot, with that
end handed to the stream. The other streams keep all but the holds that are satisfied, and the banks and memory stay as they are. -/
def Obligations.StrmOpenCompletes : Prop :=
  ∀ (s s1 : State) (n : BitVec 7) (a : BitVec 5) (nw : BitVec 1) (off : BitVec 32) (va : Nat) (bs : List Byte),
    let r := s.reg s.cur
    let d := parseDesc va bs
    let opens := fun (own : Nat) => ∃ t, exec (.strmOpen n a nw off) s = .next t ∧ t.seq = Claims.standsAt s.seq (s.seq.pc + 8) ∧
      (((t.reg s.cur).stream n.toNat).state = 1 ∧ ((t.reg s.cur).stream n.toNat).desc = d ∧
        ((t.reg s.cur).stream n.toNat).cur = { pos := 0, lfsr := d.seed, chan := own }) ∧
      (∀ m, m ≠ n.toNat → Claims.Settled (r.closeStream n.toNat) m ((t.reg s.cur).stream m)) ∧
      (d.mode = 6 ∨ d.mode = 7 → ∃ e, (t.reg s.cur).chan? d.base = some e ∧ e.stream = some n.toNat) ∧
      (∀ b, (t.reg s.cur).bank b = r.bank b) ∧ (∀ x, t.mem.read x = s.mem.read x) ∧ (∀ x, x ≠ s.cur → t.reg x = s.reg x)
    Claims.idleStream r n.toNat → Claims.Sum (s.seq.gr a) off.toInt va → va % 64 = 0 →
    s.readVA { s.seqWho s.cur with unit := 0xFB } va 64 = (s1, .ok bs) →
    descIllegal bs d = false → (∀ x ∈ d.trip, x ≠ 0) → descModeIllegal d = false →
    (d.mode ≠ 6 → d.mode ≠ 7 → opens 0) ∧
    (∀ y e, d.mode = 6 ∨ d.mode = 7 → d.base < 4096 → s.replayOf s.cur = some y → d.base < y.chcount → r.chan? d.base = some e →
      e.producer = (d.mode == 7) → opens e.own)

/-- R298 to R304: on an idle stream strm.go (alone, and with its sources, which start with it), strm.close, strm.seek of the modes that have one and
strm.filt complete, and strm.bar on any open stream: the stream's new state, position and filter. Of the other streams only holds that are satisfied
go, and no bank or byte of memory changes. strm.seek in another mode, and past the last step, traps. That these traps leave FVA 0 and give FINFO the
lead word (log 21), and that a position below 0 traps as one past the last step does (log 91), is the model's choice. -/
def Sys2Proof.Claims.StrmCommands : Prop :=
  ∀ (s : State) (n : BitVec 7) (a b : BitVec 5) (nw acq rel : BitVec 1) (scope : BitVec 3) (off : BitVec 32) (f : BitVec 8),
    let r := s.reg s.cur
    let v := r.stream n.toNat
    let m := (s.seq.gr a).toNat + (s.seq.gr b).toNat * 2 ^ 64
    let p : Int := (s.seq.gr a).toNat + off.toInt
    let ends := fun (i : Instr) (w : Stream → Stream) => ∃ t u, exec i s = .next t ∧ t.seq = Claims.standsAt s.seq (s.seq.pc + 8) ∧
      Claims.Settled r n.toNat u ∧ (t.reg s.cur).stream n.toNat = w u ∧
      (∀ m, m ≠ n.toNat → Claims.Settled r m ((t.reg s.cur).stream m)) ∧
      (∀ b, (t.reg s.cur).bank b = r.bank b) ∧ (∀ x, t.mem.read x = s.mem.read x) ∧ (∀ x, x ≠ s.cur → t.reg x = s.reg x)
    let only := fun (i : Instr) (w : Stream) => ∃ t, exec i s = .next t ∧ t.seq = Claims.standsAt s.seq (s.seq.pc + 8) ∧
      (t.reg s.cur).stream n.toNat = w ∧ (∀ m, m ≠ n.toNat → (t.reg s.cur).stream m = r.stream m) ∧
      (∀ b, (t.reg s.cur).bank b = r.bank b) ∧ (∀ x, t.mem.read x = s.mem.read x) ∧ (∀ x, x ≠ s.cur → t.reg x = s.reg x)
    (Claims.idleStream r n.toNat → v.sources = [] →
      (v.state = 1 ∨ v.state = 4 → ends (.strmGo n nw acq rel scope) (fun u => { u with
        state := 2, acq := acq == 1, rel := rel == 1, scope := if scope = 0 then 1 else scope.toNat, paused := false, need := none,
        ended := false })) ∧
      (v.state = 3 → only (.strmGo n nw acq rel scope) v)) ∧
    (Claims.idleStream r n.toNat → v.state = 1 ∨ v.state = 4 → v.sources.all (r.sourceOk n.toNat) = true →
      ∃ t, exec (.strmGo n nw acq rel scope) s = .next t ∧ t.seq = Claims.standsAt s.seq (s.seq.pc + 8) ∧ ((t.reg s.cur).stream n.toNat).state = 2 ∧
        (∀ m ∈ v.sources, (r.stream m).state = 1 ∨ (r.stream m).state = 4 → ((t.reg s.cur).stream m).state = 2 ∧
          ((t.reg s.cur).stream m).desc = (r.stream m).desc) ∧ (∀ x, t.mem.read x = s.mem.read x) ∧ (∀ x, x ≠ s.cur → t.reg x = s.reg x)) ∧
    (Claims.idleStream r n.toNat → only (.strmClose n nw) {}) ∧
    (Claims.idleStream r n.toNat → v.state ≠ 0 → v.desc.mode = 0 ∨ v.desc.mode = 5 → 0 ≤ p → p ≤ v.desc.total →
      ∃ x, ends (.strmSeek n a nw off) (fun u => { u with
        state := 1, extents := x, ahead := [], part := [], elems := [], marks := [], need := none, paused := false, ended := false,
        cur := ({ pos := p.toNat, lfsr := v.cur.lfsr } : Cursor) })) ∧
    (Claims.idleStream r n.toNat → v.state ≠ 0 → Claims.canTrap s.seq →
      let traps := fun (c : BitVec 9) => Claims.RunsTo (.strmSeek n a nw off) s
        (Claims.entered s.seq c s.seq.pc s.seq.pc 0 (Claims.leadWord (.strmSeek n a nw off)))
      (v.desc.mode ≠ 0 → v.desc.mode ≠ 5 → traps 0x080) ∧ (v.desc.mode = 0 ∨ v.desc.mode = 5 → v.desc.total < 2 ^ 48 → (v.desc.total : Int) < p ∨ p < 0 → traps 0x086)) ∧
    (Claims.idleStream r n.toNat → v.state ≠ 0 → filterLegal v.desc.mode v.desc.dir f.toNat = true →
      only (.strmFilt n f nw) { v with desc := { v.desc with filter := f.toNat } }) ∧
    (v.state ≠ 0 → m ≠ 0 → m.testBit n.toNat = false → (∀ j, j < 128 → m.testBit j = true → (r.stream j).state ≠ 0) →
      ends (.strmBar n a b nw) (fun u => { u with bars := u.bars ++ [m] }))

/-- R303: strm.bind puts its entry into the loaded block of the bank other(cur), in place of any entry of the same stream. -/
def Sys2Proof.Claims.StrmBindAddsEntry : Prop :=
  ∀ (s : State) (n : BitVec 7) (kind pos idx : BitVec 8) (nw : BitVec 1) (img : Block),
    let r := s.reg s.cur
    Claims.idleStream r n.toNat → (r.bank (!r.cur)).state = 1 → (r.bank (!r.cur)).img = some img →
    kind.toNat ≤ 5 → pos.toNat ≤ 15 → idx.toNat ≤ 15 →
    (∀ e ∈ img.binds, e.stream ≠ n.toNat → ¬(e.kind = kind.toNat ∧ e.pos = pos.toNat)) →
    (img.binds.filter (fun e => e.stream != n.toNat)).length < 128 →
    let added : Block := { img with
      binds := img.binds.filter (fun e => e.stream != n.toNat) ++ [{ stream := n.toNat, kind := kind.toNat, pos := pos.toNat, idx := idx.toNat }] }
    ∃ t, exec (.strmBind n kind pos idx nw) s = .next t ∧ t.seq = Claims.standsAt s.seq (s.seq.pc + 8) ∧
      (t.reg s.cur).bank (!r.cur) = { r.bank (!r.cur) with img := some added } ∧
      (t.reg s.cur).bank r.cur = r.bank r.cur ∧ (∀ m, m ≠ n.toNat → (t.reg s.cur).stream m = r.stream m) ∧
      (∀ x, t.mem.read x = s.mem.read x) ∧ (∀ x, x ≠ s.cur → t.reg x = s.reg x)

/-- R301: strm.pos and strm.stat read a stream without a fault, open or closed: the position, and the fields of the status
word. -/
def Sys2Proof.Claims.StrmReads : Prop :=
  ∀ (s : State) (n : BitVec 7) (a : BitVec 5),
    let r := s.reg s.cur
    let v := r.stream n.toNat
    Claims.RunsTo (.strmPos n a) s (Claims.standsAt (s.seq.gw a (BitVec.ofNat 64 v.cur.pos)) (s.seq.pc + 8)) ∧
    (v.state < 5 → v.desc.dir < 2 → v.desc.mode < 8 → v.cur.pos < 2 ^ 48 →
      ∃ w : Word, Claims.RunsTo (.strmStat n a) s (Claims.standsAt (s.seq.gw a w) (s.seq.pc + 8)) ∧
        (w.extractLsb' 0 3).toNat = v.state ∧ w.getLsbD 3 = (r.binding n.toNat).isSome ∧
        w.getLsbD 4 = r.streams.any (fun e => e.2.usesSource n.toNat) ∧
        (v.state ≠ 0 → (w.getLsbD 5 = true ↔ Claims.heldByBar r n.toNat) ∧ w.getLsbD 6 = v.paused ∧ (w.extractLsb' 7 1).toNat = v.desc.dir ∧ (w.extractLsb' 8 3).toNat = v.desc.mode ∧
          w.extractLsb' 11 5 = 0 ∧ (w.extractLsb' 16 48).toNat = v.cur.pos) ∧
        (v.state = 0 → w.extractLsb' 5 59 = 0))

/-- R296 to R304: the refusals of the strm group, each with the sequencer's own entry into its handler and nothing else: a busy stream with .nw, and
a closed stream for go, bar, seek and filt; a command on a busy stream without .nw waits. What FVA and FINFO hold where no rule of the cause says it
is the model's choice (log 21). -/
def Sys2Proof.Claims.StrmTraps : Prop :=
  ∀ (s : State) (n : BitVec 7) (a b : BitVec 5) (nw acq rel : BitVec 1) (scope : BitVec 3) (off : BitVec 32) (f kind pos idx : BitVec 8),
    Claims.canTrap s.seq →
    let r := s.reg s.cur
    let traps := fun (i : Instr) (c : BitVec 9) (fva : Word) => Claims.RunsTo i s (Claims.entered s.seq c s.seq.pc s.seq.pc fva (Claims.leadWord i))
    let waits := fun (i : Instr) => Claims.RunsTo i s { s.seq with run := .waiting, waitFrom := s.seq.waitFrom.or (some s.tick) }
    let all := fun (nw : BitVec 1) => [Instr.strmOpen n a nw off, .strmGo n nw acq rel scope, .strmClose n nw, .strmSeek n a nw off,
      .strmFilt n f nw, .strmBind n kind pos idx nw]
    (¬ Claims.idleStream r n.toNat → (∀ i ∈ all 1, traps i 0x081 0) ∧ (∀ i ∈ all 0, waits i)) ∧
    (Claims.idleStream r n.toNat → (r.stream n.toNat).state = 0 →
      ∀ i ∈ [Instr.strmGo n nw acq rel scope, .strmSeek n a nw off, .strmFilt n f nw], traps i 0x082 0) ∧
    ((r.stream n.toNat).state = 0 → traps (.strmBar n a b nw) 0x082 0) ∧
    (Claims.idleStream r n.toNat → (s.seq.gr a + off.signExtend 64).extractLsb' 0 6 ≠ 0 →
      traps (.strmOpen n a nw off) 0x020 (s.seq.gr a + off.signExtend 64)) ∧
    ((r.stream n.toNat).state ≠ 0 →
      (let m := (s.seq.gr a).toNat + (s.seq.gr b).toNat * 2 ^ 64
       m = 0 ∨ m.testBit n.toNat = true ∨ ∃ j, j < 128 ∧ m.testBit j = true ∧ (r.stream j).state = 0) →
      traps (.strmBar n a b nw) 0x085 0) ∧
    (Claims.idleStream r n.toNat → (r.bank (!r.cur)).state ≠ 1 → traps (.strmBind n kind pos idx nw) 0x069 0)

/-! ## Tags, landing slots, folds -/

/-- R318, R323 to R325: the tag instructions that change a tag of their own region. Each gives the tag its new state and
leaves every other tag, the other regions and memory as they are; a tag that changes ends a yield (R198). -/
def Sys2Proof.Claims.TagInstructions : Prop :=
  ∀ (s : State) (t : BitVec 8) (k : BitVec 3) (imm : BitVec 16) (isl : BitVec 4), s.seq.kr k = true →
    let r := s.reg s.cur
    let v := r.tag t.toNat
    let becomes := fun (i : Instr) (w : TagState) => Claims.RegionRunsTo i s
      { Claims.past s 8 { r with tags := spInsert r.tags t.toNat w } with
        seq := { (Claims.past s 8 r).seq with wake := s.seq.wake || decide (w ≠ v) } }
    let c := v.count.toInt + imm.toInt
    becomes (.tagBlk t k) { v with b := true } ∧
    becomes (.tagUbk t k) { v with b := false, count := 0, arm := none } ∧
    becomes (.tagClr t k) { b := false, count := 0, task := none, arm := none } ∧
    (-32768 ≤ c → c ≤ 32767 → becomes (.tagCnt t imm k) { v with count := BitVec.ofInt 16 c, b := decide (0 < c) }) ∧
    (v.task = none → becomes (.tagBind t isl k) { v with task := some isl.toNat }) ∧
    (v.task = some isl.toNat → Claims.RunsTo (.tagBind t isl k) s (Claims.standsAt s.seq (s.seq.pc + 8)))

/-- R323: tag.wait completes when b is 0 and waits while it is 1; tag.test writes whether b is 0 and never waits. -/
def Sys2Proof.Claims.TagWaitAndTest : Prop :=
  ∀ (s : State) (t : BitVec 8) (d k : BitVec 3), s.seq.kr k = true →
    let v := (s.reg s.cur).tag t.toNat
    (v.b = false → Claims.RunsTo (.tagWait t k) s (Claims.standsAt s.seq (s.seq.pc + 8))) ∧
    (v.b = true → Claims.RunsTo (.tagWait t k) s { s.seq with run := .waiting, waitFrom := s.seq.waitFrom.or (some s.tick) }) ∧
    Claims.RunsTo (.tagTest t d k) s (Claims.standsAt (s.seq.kw d (!v.b)) (s.seq.pc + 8))

/-- R325: tag.arm of an aligned bitmap word that can be read: the tag is armed and blocked, and its first evaluation, on the
word as it stands, unblocks it exactly when every bit of the mask is set. -/
def Sys2Proof.Claims.TagArmEvaluates : Prop :=
  ∀ (s s1 : State) (t : BitVec 8) (a b : BitVec 5) (k : BitVec 3) (w : Nat), s.seq.kr k = true →
    (s.seq.gr a).extractLsb' 0 3 = 0 →
    (let armed := s.modReg s.cur (fun g => g.setTag t.toNat { g.tag t.toNat with arm := some ⟨(s.seq.gr a).toNat, s.seq.gr b⟩, b := true })
     armed.readNum { part := (s.owner s.cur).getD 48, region := some s.cur, unit := 0xF9 } (s.seq.gr a).toNat 8 = (s1, .ok w)) →
    ∃ u, exec (.tagArm t a b k) s = .next u ∧ u.seq.pc = s.seq.pc + 8 ∧
      (u.reg s.cur).tag t.toNat = (if BitVec.ofNat 64 w &&& s.seq.gr b = s.seq.gr b
        then { (s.reg s.cur).tag t.toNat with b := false, count := 0, arm := none }
        else { (s.reg s.cur).tag t.toNat with b := true, arm := some ⟨(s.seq.gr a).toNat, s.seq.gr b⟩ }) ∧
      (∀ m, m ≠ t.toNat → (u.reg s.cur).tag m = (s.reg s.cur).tag m) ∧
      (∀ x, u.mem.read x = s.mem.read x) ∧ (∀ r, r ≠ s.cur → u.reg r = s.reg r)

/-- The sequencer holds of an engine command that completes: those of the stream-only fences before it have ended, and one more is
there if it acquires (R216, R326, R333). -/
def Sys2Proof.Claims.holdsAfter (q : Seq) (acq : BitVec 1) (h : Hold) : List Hold :=
  q.holds.filter (fun x => x != .engines) ++ (if acq = 1 then [h] else [])

/-- R147, R326: tag.sig from a placed stage that is held back by nothing. To a region, or to a lane of its own stage, where a stage in
its scope stands: the signal joins the partition's network behind those already sent, aimed at the stage that is placed there if that
is in scope. To a rank of this package, with scope code 6: a signal to the rank's region. To a rank of another package: a frame, which
follows the pushes that the region has sent to the same rank. With acq the sequencer's later accesses are held until the signal has
been applied or the frame acknowledged. Nothing changes at the target yet. -/
def Sys2Proof.Claims.TagSigSends : Prop :=
  ∀ (s : State) (t : BitVec 8) (a : BitVec 5) (mode acq rel : BitVec 1) (scope k : BitVec 3) (pl : Placement) (v : Part),
    s.seq.kr k = true → s.engineHeld s.cur = false → (s.reg s.cur).place = some pl → s.part? pl.part = some v →
    rel = 0 ∨ s.engineBusy s.cur = false →
    let x := (s.seq.gr a).toNat
    let i : Instr := .tagSig t a mode acq rel scope k
    let after := fun (h : Hold) => Claims.standsAt { s.seq with holds := Claims.holdsAfter s.seq acq h } (s.seq.pc + 8)
    let frame := fun (u : State) => (u.reg s.cur).tags = (s.reg s.cur).tags ∧ (∀ x, x ≠ s.cur → u.reg x = s.reg x) ∧ ∀ x, u.mem.read x = s.mem.read x
    let sends := fun (r : Nat) (target : Option (Nat × Nat)) => ∃ u, exec i s = .next u ∧
      u.pkg = { s.pkg with msgCount := s.pkg.msgCount + 1, signals := s.pkg.signals ++
        [{ part := pl.part, src := s.cur, dst := r, tag := t.toNat, mode := mode.toNat, num := s.pkg.msgCount, target := target, replay := pl.replay }] } ∧
      u.seq = after (.signal r s.pkg.msgCount) ∧ frame u ∧ u.parts = s.parts
    (∀ r, (x = r ∧ r < 192) ∨ (0x100 ≤ x ∧ x ≤ 0x12F ∧ ∃ g, v.stageOf pl = some g ∧ g.regions[x - 0x100]? = some r) →
      (v.standingAt r).any (inScope scope.toNat s.cur r pl) = true →
      ∃ g ∈ v.standingAt r, inScope scope.toNat s.cur r pl g = true ∧ sends r (some (g.replay, g.stage)) ∧
        ∀ y, (s.reg r).place = some y → y.part = pl.part →
          (∃ h ∈ v.standingAt r, inScope scope.toNat s.cur r pl h = true ∧ h.replay = y.replay ∧ h.stage = y.stage) →
          g.replay = y.replay ∧ g.stage = y.stage) ∧
    (0x400 ≤ x → x ≤ 0x7FF →
      let e := spGet 0 v.ranks (x - 0x400)
      e.getLsbD 63 = true → scope = 6 →
      (e.extractLsb' 8 12 = Config.packageId → sends (e.extractLsb' 0 8).toNat none) ∧
      (e.extractLsb' 8 12 ≠ Config.packageId → ∃ u w f, exec i s = .next u ∧ u.part? pl.part = some w ∧ w.frames = v.frames ++ [f] ∧
        f.id = v.nextFrame ∧ f.src = s.cur ∧ f.replay = pl.replay ∧ f.package = (e.extractLsb' 8 12).toNat ∧ f.key = (e.extractLsb' 20 16).toNat ∧
        f.region = (e.extractLsb' 0 8).toNat ∧ f.body = .signal t mode (BitVec.ofNat 8 s.cur) ∧ f.copy = none ∧
        (∀ n, n ∈ f.after ↔ ∃ c ∈ (s.reg s.cur).copies, c.index = n ∧ c.rank = some e.toNat ∧ c.done.length ≠ c.len / 32) ∧
        u.seq = after (.frame v.nextFrame) ∧ frame u ∧ u.pkg = s.pkg))

/-- R323 to R326: the refusals of the tag group; tag.sig refuses numbers 192 to 255, a lane that its stage does not have, and a region where no stage
in its scope stands. What FVA and FINFO hold where no rule of the cause says it is the model's choice (log 21). -/
def Sys2Proof.Claims.TagTraps : Prop :=
  ∀ (s : State) (t : BitVec 8) (a b : BitVec 5) (imm : BitVec 16) (isl : BitVec 4) (mode acq rel : BitVec 1) (scope k : BitVec 3),
    s.seq.kr k = true → Claims.canTrap s.seq →
    let v := (s.reg s.cur).tag t.toNat
    let c := v.count.toInt + imm.toInt
    let traps := fun (i : Instr) (c : BitVec 9) (fva : Word) => Claims.RunsTo i s (Claims.entered s.seq c s.seq.pc s.seq.pc fva (Claims.leadWord i))
    (c < -32768 ∨ 32767 < c → traps (.tagCnt t imm k) 0x0C1 0) ∧
    (∀ j, v.task = some j → j ≠ isl.toNat → traps (.tagBind t isl k) 0x0C0 0) ∧
    ((s.seq.gr a).extractLsb' 0 3 ≠ 0 → traps (.tagArm t a b k) 0x020 (s.seq.gr a)) ∧
    (s.engineHeld s.cur = false → 0x130 ≤ (s.seq.gr a).toNat → ¬(0x400 ≤ (s.seq.gr a).toNat ∧ (s.seq.gr a).toNat ≤ 0x7FF) →
      traps (.tagSig t a mode acq rel scope k) 0x0C2 (s.seq.gr a)) ∧
    (∀ pl v, s.engineHeld s.cur = false → (s.reg s.cur).place = some pl → s.part? pl.part = some v →
      let x := (s.seq.gr a).toNat
      (x < 192 → (v.standingAt x).any (inScope scope.toNat s.cur x pl) = false → traps (.tagSig t a mode acq rel scope k) 0x0C2 (s.seq.gr a)) ∧
      (192 ≤ x → x < 0x100 → traps (.tagSig t a mode acq rel scope k) 0x0C2 (s.seq.gr a)) ∧
      (0x100 ≤ x → x ≤ 0x12F → (∀ g, v.stageOf pl = some g → ∀ r, g.regions[x - 0x100]? = some r →
        (v.standingAt r).any (inScope scope.toNat s.cur r pl) = false) → traps (.tagSig t a mode acq rel scope k) 0x0C2 (s.seq.gr a)) ∧
      (0x400 ≤ x → x ≤ 0x7FF →
        ((spGet 0 v.ranks (x - 0x400)).getLsbD 63 = false → traps (.tagSig t a mode acq rel scope k) 0x101 (s.seq.gr a)) ∧
        ((spGet 0 v.ranks (x - 0x400)).getLsbD 63 = true → scope ≠ 6 → traps (.tagSig t a mode acq rel scope k) 0x0C2 (s.seq.gr a))))

/-- R327, R328: commit of a full slot claims it, even when d is 0; an owed slot makes it wait; an empty one is LAND_EMPTY. land.test writes whether
the slot is full, and never waits. That LAND_EMPTY leaves FVA 0 and gives FINFO the lead word is the model's choice (log 21). -/
def Sys2Proof.Claims.LandingSlots : Prop :=
  ∀ (s : State) (d : BitVec 5) (e : BitVec 3) (n : BitVec 4),
    (∀ v, s.seq.slot n = .full v → Claims.RunsTo (.commit d n) s (Claims.standsAt ((s.seq.setSlot n .empty).gw d v) (s.seq.pc + 4))) ∧
    (s.seq.slot n = .owed → Claims.RunsTo (.commit d n) s { s.seq with run := .waiting, waitFrom := s.seq.waitFrom.or (some s.tick) }) ∧
    (s.seq.slot n = .empty → Claims.canTrap s.seq →
      Claims.RunsTo (.commit d n) s (Claims.entered s.seq 0x026 s.seq.pc s.seq.pc 0 (Claims.leadWord (.commit d n)))) ∧
    Claims.RunsTo (.landTest e n) s (Claims.standsAt
      (s.seq.kw e (match s.seq.slot n with | .full _ => true | .owed => false | .empty => false)) (s.seq.pc + 4)) ∧
    (∀ (v : Slot) (m : BitVec 4), (s.seq.setSlot n v).slot m = if m = n then v else s.seq.slot m)

/-- R333: a fold whose word is aligned and lies in a window with an owner is sent to that owner with its operands cut to the
word's size; with r = 1 its slot, which must be empty, becomes owed. No byte of memory changes at issue. -/
def Sys2Proof.Claims.FoldIsSent : Prop :=
  ∀ (s : State) (a b c : BitVec 5) (op : BitVec 4) (r : BitVec 1) (slot : BitVec 4) (off : BitVec 20) (size : BitVec 2)
    (acq rel : BitVec 1) (scope k : BitVec 3) (p ea : Nat) (v : Part) (w : Window) (o : Nat × Nat),
    let z := match size.toNat with | 0 => 4 | 1 => 8 | _ => 2
    Claims.Sum (s.seq.gr a) off.toInt ea → s.seq.kr k = true → s.engineHeld s.cur = false → s.owner s.cur = some p → s.part? p = some v → ea % z = 0 →
    v.windows.find? (fun w => decide (w.va ≤ ea) && decide (ea + z ≤ w.va + 2 ^ w.log2)) = some w → w.owner = some o →
    (r = 1 → s.seq.slot slot = .empty) → rel = 0 ∨ s.engineBusy s.cur = false →
    ∃ (t : State) (m : FoldMsg), exec (.fold a b c op r slot off size acq rel scope k) s = .next t ∧
      t.pkg = { s.pkg with msgCount := s.pkg.msgCount + 1, folds := s.pkg.folds ++ [m] } ∧
      m.num = s.pkg.msgCount ∧ m.part = p ∧ m.issuer = s.cur ∧ m.owner = o ∧ m.op = op.toNat ∧ m.addr = ea ∧ m.z = z ∧
      m.b.toNat = (s.seq.gr b).toNat % 2 ^ (8 * z) ∧ m.c.toNat = (s.seq.gr c).toNat % 2 ^ (8 * z) ∧ m.r = (r == 1) ∧ m.slot = slot.toNat ∧
      t.seq.pc = s.seq.pc + 8 ∧ (∀ x, t.seq.gr x = s.seq.gr x) ∧ (∀ x, t.seq.kr x = s.seq.kr x) ∧
      (∀ x, t.seq.slot x = if x = slot ∧ r = 1 then .owed else s.seq.slot x) ∧
      m.rmw = false ∧ m.orphan = false ∧ m.held = false ∧ (∀ y, (s.reg s.cur).place = some y → m.replay = y.replay) ∧
      t.seq.holds = Claims.holdsAfter s.seq acq (.fold s.pkg.msgCount) ∧
      (∀ x, t.mem.read x = s.mem.read x) ∧ (∀ x, x ≠ s.cur → t.reg x = s.reg x) ∧ t.parts = s.parts

/-- R333: a misaligned fold, a fold outside every window, and a fold with r = 1 to a slot that is owed or full trap, in that order, and send nothing.
FVA holds the address modulo 2^64. What FVA and FINFO hold where no rule of the cause says it is the model's choice (log 21). -/
def Sys2Proof.Claims.FoldTraps : Prop :=
  ∀ (s : State) (a b c : BitVec 5) (op : BitVec 4) (r : BitVec 1) (slot : BitVec 4) (off : BitVec 20) (size : BitVec 2)
    (acq rel : BitVec 1) (scope k : BitVec 3) (p : Nat) (v : Part),
    let i : Instr := .fold a b c op r slot off size acq rel scope k
    let ea := s.seq.gr a + off.signExtend 64
    let z := match size.toNat with | 0 => 4 | 1 => 8 | _ => 2
    s.seq.kr k = true → s.engineHeld s.cur = false → Claims.canTrap s.seq → s.owner s.cur = some p → s.part? p = some v →
    let inside := fun (n : Nat) => v.windows.any (fun w => decide (w.va ≤ n) && decide (n + z ≤ w.va + 2 ^ w.log2))
    let none' := Claims.RunsTo i s (Claims.entered s.seq 0x0C3 s.seq.pc s.seq.pc ea (Claims.leadWord i))
    (ea.toNat % z ≠ 0 → Claims.RunsTo i s (Claims.entered s.seq 0x020 s.seq.pc s.seq.pc ea (Claims.leadWord i))) ∧
    (∀ n, Claims.Sum (s.seq.gr a) off.toInt n → n % z = 0 → inside n = false → none') ∧
    ((s.seq.gr a).toNat + off.toInt < 0 → ea.toNat % z = 0 → (∀ w ∈ v.windows, w.va + 2 ^ w.log2 ≤ 2 ^ 48) → none') ∧
    (∀ n, Claims.Sum (s.seq.gr a) off.toInt n → n % z = 0 → inside n = true → r = 1 → s.seq.slot slot ≠ .empty →
      Claims.RunsTo i s (Claims.entered s.seq 0x027 s.seq.pc s.seq.pc 0 (Claims.leadWord i)))

/-! ## Copies and channels -/

/-- Nothing but the region's copy queue and its sequencer's pc changes: the end of a copy instruction that was accepted
(R305, R306). -/
def Sys2Proof.Claims.Queues (i : Instr) (s : State) (c : Copy) : Prop :=
  Claims.RegionRunsTo i s (Claims.past s 12 { s.reg s.cur with
    copies := (s.reg s.cur).copies ++ [{ c with index := (s.reg s.cur).copyIndex }], copyIndex := ((s.reg s.cur).copyIndex + 1) % 2 ^ 16
    seq := { s.seq with holds := Claims.holdsAfter s.seq 0 .engines } })

/-- R147, R305, R306: push from the own palette, pull into it and pushn between two palettes of one die graph, with aligned
operands inside the palettes and room in the queue, enter the copy queue with their sides, length, bitmap (none for m = g0), tag and
flags, and complete without moving a byte; a push to a rank carries the rank's entry, acquires and releases at scope code 6. A pushn
that names its own region is a push. With 16 entries in the queue each of them waits, whatever its target. -/
def Sys2Proof.Claims.CopyInstructionsQueue : Prop :=
  ∀ (s : State) (p : Nat) (a b n m : BitVec 5) (acq rel : BitVec 1) (scope k : BitVec 3) (off : BitVec 32) (t region : BitVec 8) (dst : Nat),
    let src := s.seq.gr a
    let len := (s.seq.gr n).toNat
    let bm := if m = 0 then none else some (s.seq.gr m).toNat
    let own := fun (va : Nat) => 0xFF0000000000 ≤ va ∧ va + len ≤ 0xFF0000200000 ∧ va < 0xFF0000200000
    let rank := fun (va : Nat) => 0xFF2000000000 ≤ va ∧ va < 0xFF2080000000
    let far := fun (va : Nat) => va < 0xFF0000000000 ∨ (0xFF1000000000 ≤ va ∧ ¬ rank va)
    let c : Copy :=
      { index := 0, src := src.toNat, dst := dst, len := len, bitmap := bm, tag := some t.toNat, acq := acq == 1, rel := rel == 1
        scope := if acq = 1 ∨ rel = 1 then (if scope = 0 then 1 else scope.toNat) else 1, region := s.cur, part := p }
    let queues := fun (i : Instr) (c : Copy) =>
      ((s.reg s.cur).copies.length < 16 → Claims.Queues i s c) ∧ (16 ≤ (s.reg s.cur).copies.length → Claims.Waits i s)
    s.seq.kr k = true → s.engineHeld s.cur = false → s.owner s.cur = some p → Claims.Sum (s.seq.gr b) off.toInt dst →
    src.toNat % 32 = 0 → dst % 32 = 0 → len % 32 = 0 → (∀ x, bm = some x → x % 8 = 0) →
    (own src.toNat → own dst ∨ far dst → queues (.push a b n acq rel scope k off m t) c ∧
      (region.toNat = s.cur → queues (.pushn a b n acq rel scope k off m t region) c)) ∧
    (∀ v, own src.toNat → rank dst → (dst - 0xFF2000000000) % 0x200000 + len ≤ 0x200000 → s.part? p = some v →
      let e := spGet 0 v.ranks ((dst - 0xFF2000000000) / 0x200000)
      e.getLsbD 63 = true →
      queues (.push a b n acq rel scope k off m t) { c with acq := true, rel := true, scope := 6, rank := some e.toNat }) ∧
    (far src.toNat → own dst → queues (.pull a b n acq rel scope k off m t) c) ∧
    (own src.toNat → own dst → region.toNat ≠ s.cur →
      (∀ x, (s.reg s.cur).place = some x → ∃ y, (s.reg region.toNat).place = some y ∧
        y.part = x.part ∧ y.replay = x.replay ∧ y.dg = x.dg) →
      queues (.pushn a b n acq rel scope k off m t region) { c with region := region.toNat })

/-- R305, R306: the refusals of the copy group, in their order: the wrong tier, a region outside the die graph, a misaligned source, destination or
length, and a palette side outside the palette. Nothing is queued. What FVA and FINFO hold where no rule of the cause says it is the model's choice
(log 21). -/
def Sys2Proof.Claims.CopyTraps : Prop :=
  ∀ (s : State) (a b n m : BitVec 5) (acq rel : BitVec 1) (scope k : BitVec 3) (off : BitVec 32) (t region : BitVec 8),
    let src := s.seq.gr a
    let dst := s.seq.gr b + off.signExtend 64
    let x : Int := (s.seq.gr b).toNat + off.toInt
    let pal := fun (va : Int) => 0xFF0000000000 ≤ va ∧ va < 0xFF1000000000
    let traps := fun (i : Instr) (c : BitVec 9) (fva : Word) => Claims.RunsTo i s (Claims.entered s.seq c s.seq.pc s.seq.pc fva (Claims.leadWord i))
    let push : Instr := .push a b n acq rel scope k off m t
    let pull : Instr := .pull a b n acq rel scope k off m t
    let pushn : Instr := .pushn a b n acq rel scope k off m t region
    s.seq.kr k = true → s.engineHeld s.cur = false → Claims.canTrap s.seq →
    (¬ pal src.toNat → traps push 0x087 src) ∧
    (pal src.toNat ∨ (0xFF2000000000 ≤ src.toNat ∧ src.toNat < 0xFF2080000000) → traps pull 0x087 src) ∧
    (¬ pal src.toNat → ¬(0xFF2000000000 ≤ src.toNat ∧ src.toNat < 0xFF2080000000) → ¬ pal x → traps pull 0x087 dst) ∧
    (region.toNat ≠ s.cur → pal src.toNat → ¬ pal x → traps pushn 0x087 dst) ∧
    (region.toNat ≠ s.cur → pal src.toNat → pal x → (s.reg region.toNat).place = none → traps pushn 0x088 dst) ∧
    (pal src.toNat → x < 0xFF0000000000 → src.toNat % 32 ≠ 0 → traps push 0x020 src) ∧
    (pal src.toNat → x < 0xFF0000000000 → src.toNat % 32 = 0 → dst.toNat % 32 ≠ 0 → traps push 0x020 dst) ∧
    (pal src.toNat → x < 0xFF0000000000 → src.toNat % 32 = 0 → dst.toNat % 32 = 0 → (s.seq.gr n).toNat % 32 ≠ 0 →
      traps push 0x020 (s.seq.gr n)) ∧
    (pal src.toNat → x < 0xFF0000000000 → src.toNat % 32 = 0 → dst.toNat % 32 = 0 → (s.seq.gr n).toNat % 32 = 0 →
      0xFF0000200000 < src.toNat + (s.seq.gr n).toNat ∨ 0xFF0000200000 ≤ src.toNat → traps push 0x023 src)

/-- R307: a sector of a copy that neither pauses nor owes a bit, whose source can be read and whose destination can be
written, moves its 32 bytes to the destination and no byte anywhere else; the sector is then done, and no register of any
sequencer changes. -/
def Sys2Proof.Claims.CopySectorMoves : Prop :=
  ∀ (s s1 s2 : State) (r i sector pa p : Nat) (v : Part) (c : Copy) (bytes : List Byte), r < 192 →
    (s.reg r).copies.find? (fun x => x.index == i) = some c → s.owner r = some p → s.part? p = some v →
    c.fault = none → c.bits = [] → c.bitmap = none → c.rank = none → c.region = r → c.chan = none →
    32 * sector < c.len → c.done.contains sector = false → c.dst % 32 = 0 →
    s.readVA { part := p, region := some r, unit := 0xFE } (c.src + 32 * sector) 32 = (s1, .ok bytes) → bytes.length = 32 →
    (∀ w, s1.part? p = some w → inWindow w (c.dst + 32 * sector) 32 = false) →
    s1.reach { part := p, region := some r, unit := 0xFE } (c.dst + 32 * sector) .write = (s2, .ok pa) → s2.physFault pa 32 .write = none →
    ∃ t, exec (.copySector r i sector) s = .next t ∧
      (∀ j, j < 32 → t.mem.read (pa + j) = bytes.getD j 0) ∧ (∀ x, ¬(pa ≤ x ∧ x < pa + 32) → t.mem.read x = s.mem.read x) ∧
      (t.reg r).copies.find? (fun x => x.index == i) = some { c with done := natInsert c.done sector } ∧
      (∀ x, (t.reg x).seq = (s.reg x).seq) ∧ (∀ x, x ≠ r → t.reg x = s.reg x)

/-- R147, R305, R307, R310, R311: where the other copies put a sector: a pushn into the palette of the region it names, a push to a rank
of this package into the palette of the rank's region, where the partition is placed there, a send into the slots of its ring, and a
receive from them; no other byte of memory and no sequencer changes, and the sector is then done. A bit of a completion bitmap that is
due is set in its word, all other bits of which stay, and, while no tag of the region is armed, no other byte of memory changes. -/
def Sys2Proof.Claims.CopySectorPlaces : Prop :=
  ∀ (s s1 : State) (r i sector p : Nat) (v : Part) (c : Copy), r < 192 →
    (s.reg r).copies.find? (fun x => x.index == i) = some c → s.owner r = some p → s.part? p = some v → c.fault = none →
    let who : Who := { part := p, region := some r, unit := 0xFE }
    let slot := fun (g : Nat × Nat × Nat) => g.1 + 0x40 + 64 * ((g.2.2 + 32 * sector / 64) % g.2.1) + 32 * sector % 64
    let lands := fun (bytes : List Byte) (pa : Nat) => ∃ t, exec (.copySector r i sector) s = .next t ∧
      (∀ j, j < 32 → t.mem.read (pa + j) = bytes.getD j 0) ∧ (∀ x, ¬(pa ≤ x ∧ x < pa + 32) → t.mem.read x = s.mem.read x) ∧
      (t.reg r).copies.find? (fun x => x.index == i) = some { c with done := natInsert c.done sector } ∧ (∀ x, (t.reg x).seq = (s.reg x).seq)
    let written := fun (s1 : State) (bytes : List Byte) (va : Nat) => ∀ s2 pa, va % 32 = 0 →
      (∀ w, s1.part? p = some w → inWindow w va 32 = false) → s1.reach who va .write = (s2, .ok pa) → s2.physFault pa 32 .write = none →
      lands bytes pa
    (∀ bytes, c.bits = [] → c.bitmap = none → 32 * sector < c.len → c.done.contains sector = false → bytes.length = 32 →
      (c.chan = none → s.readVA who (c.src + 32 * sector) 32 = (s1, .ok bytes) →
        (c.rank = none → c.region ≠ r → 0xFF0000000000 ≤ c.dst → c.dst + 32 * sector < 0xFF1000000000 →
          lands bytes (2 ^ 52 + c.region * 2 ^ 21 + (c.dst + 32 * sector - 0xFF0000000000))) ∧
        (∀ e : Word, c.rank = some e.toNat → e.extractLsb' 8 12 = Config.packageId → s.owner (e.extractLsb' 0 8).toNat = some c.part →
          lands bytes (2 ^ 52 + (e.extractLsb' 0 8).toNat * 2 ^ 21 + (c.dst + 32 * sector - 0xFF2000000000) % 2 ^ 21))) ∧
      (∀ n g, c.chan = some (n, 0) → c.ring = some g → c.rank = none → c.region = r →
        s.readVA who (c.src + 32 * sector) 32 = (s1, .ok bytes) → written s1 bytes (slot g)) ∧
      (∀ n g, c.chan = some (n, 1) → c.ring = some g → c.rank = none → c.region = r →
        s.readVA who (slot g) 32 = (s1, .ok bytes) → written s1 bytes (c.dst + 32 * sector))) ∧
    (∀ b bs m w s2 pa, c.bits = b :: bs → c.bitmap = some m → m % 8 = 0 →
      s.readNum who (m + 8 * (b / 64)) 8 = (s1, .ok w) → (∀ u, s1.part? p = some u → inWindow u (m + 8 * (b / 64)) 8 = false) →
      s1.reach who (m + 8 * (b / 64)) .write = (s2, .ok pa) → s2.physFault pa 8 .write = none → (∀ e ∈ (s.reg r).tags, e.2.arm = none) →
      ∃ t, exec (.copySector r i sector) s = .next t ∧
        (∀ j, j < 8 → t.mem.read (pa + j) = BitVec.ofNat 8 ((w ||| 2 ^ (b % 64)) / 256 ^ j)) ∧
        (∀ x, ¬(pa ≤ x ∧ x < pa + 8) → t.mem.read x = s.mem.read x) ∧
        (t.reg r).copies.find? (fun x => x.index == i) = some { c with bits := bs })

/-- R325: a bit of a completion bitmap that a copy sets lets the region's armed tag be evaluated, whatever the address under which it is armed: the
word of its arm is read as it then stands, and the tag unblocks exactly when every bit of its mask is set. The other tags stay as they are. -/
def Sys2Proof.Claims.BitmapWriteEvaluates : Prop :=
  ∀ (s s1 s2 s3 : State) (r i sector p b m w x t : Nat) (v : Part) (c : Copy) (bs : List Nat) (g : TagState) (a : Arm), r < 192 →
    (s.reg r).copies.find? (fun x => x.index == i) = some c → s.owner r = some p → s.part? p = some v → c.fault = none →
    let who : Who := { part := p, region := some r, unit := 0xFE }
    c.bits = b :: bs → c.bitmap = some m → s.readNum who (m + 8 * (b / 64)) 8 = (s1, .ok w) →
    s1.writeNum who (m + 8 * (b / 64)) 8 (w ||| 2 ^ (b % 64)) = (s2, .ok ()) →
    (s.reg r).tags.filter (fun e => e.2.arm.isSome) = [(t, g)] → (s.reg r).tag t = g → g.arm = some a →
    s2.readNum { part := p, region := some r, unit := 0xF9 } a.va 8 = (s3, .ok x) →
    ∃ u, exec (.copySector r i sector) s = .next u ∧ u.mem = s3.mem ∧
      (u.reg r).tag t = (if BitVec.ofNat 64 x &&& a.mask = a.mask then { g with b := false, count := 0, arm := none } else g) ∧
      (∀ n, n ≠ t → (u.reg r).tag n = (s.reg r).tag n) ∧ (∀ y, y ≠ r → u.reg y = s.reg y)

/-- R307, R318: when every sector of a copy has settled and every bit is set, the copy leaves the queue and its tag takes a
decrement: the tag unblocks when its count goes from 1 to 0, and otherwise counts down by one. No byte of memory changes. -/
def Sys2Proof.Claims.CopyCompletionDecrements : Prop :=
  ∀ (s : State) (r i n : Nat) (c : Copy), r < 192 → (s.reg r).copies.find? (fun x => x.index == i) = some c →
    c.chan = none → c.rank = none → c.tag = some n → c.done.length = c.len / 32 → c.bits = [] →
    ((s.reg r).tag n).count ≠ BitVec.intMin 16 →
    ∃ t, exec (.copyCompletion r i) s = .next t ∧ (t.reg r).copies = (s.reg r).copies.filter (fun x => x.index != i) ∧
      (t.reg r).tag n = (if ((s.reg r).tag n).count = 1 then { (s.reg r).tag n with b := false, count := 0, arm := none }
        else { (s.reg r).tag n with count := ((s.reg r).tag n).count - 1 }) ∧
      (∀ m, m ≠ n → (t.reg r).tag m = (s.reg r).tag m) ∧ (t.reg r).seq = { (s.reg r).seq with wake := true } ∧
      (∀ x, t.mem.read x = s.mem.read x) ∧ (∀ x, x ≠ r → t.reg x = s.reg x) ∧ t.parts = s.parts

/-- R309 to R311: chn.open by an end of the channel, whose table entry and header can be read and are sound, opens that end, or opens
it again, with the indices of the header; the producer also clears the end mark in the header's word at 0x1C. -/
def Obligations.ChannelOpens : Prop :=
  ∀ (s s1 s2 s3 : State) (k : BitVec 3) (ch : BitVec 12) (v : Replay) (pl : Placement) (bs hd : List Byte),
    let n := ch.toNat
    let prod := (numAt bs 8 2 == pl.stage && numAt bs 12 1 == pl.lane)
    let cons := (numAt bs 10 2 == pl.stage && numAt bs 13 1 == pl.lane)
    let e : ChanEnd :=
      { num := n, producer := prod, header := numAt bs 0 8, size := numAt hd 16 4, own := if prod then numAt hd 0 8 else numAt hd 8 8,
        other := if prod then numAt hd 8 8 else numAt hd 0 8, ended := !prod && numAt hd 28 4 == 1, corrupt := false,
        stream := ((s.reg s.cur).chan? n).bind ChanEnd.stream }
    s.seq.kr k = true → s.replayOf s.cur = some v → (s.reg s.cur).place = some pl → n < v.chcount →
    s.readVA (s.seqWho s.cur) (v.chtab + 32 * n) 32 = (s1, .ok bs) → channelEntryOk v bs = true → (prod || cons) = true →
    s1.readVA (s1.chanWho s1.cur) (numAt bs 0 8) 64 = (s2, .ok hd) → e.bad hd = false →
    (prod = true → (s2.modReg s2.cur (fun g => g.setChan e)).writeNum (s.chanWho s.cur) (numAt bs 0 8 + 0x1C) 4 0 = (s3, .ok ())) →
    ∃ t, exec (.chnOpen k ch) s = .next t ∧ t.seq = Claims.standsAt s.seq (s.seq.pc + 8) ∧ (t.reg s.cur).chan? n = some e ∧
      (prod = true → t.mem = s3.mem) ∧ (prod = false → ∀ x, t.mem.read x = s.mem.read x) ∧ (∀ x, x ≠ s.cur → t.reg x = s.reg x)

/-- R311: chn.send with aligned operands, a sound header and room in the ring and in the copy queue reserves its slots and
queues their transfer, and of no bytes does nothing; chn.recv takes the filled slots, as many as fit, queues their copy and waits; of
an empty ended channel it writes 0, and once the copy of its slots has finished and its index write has performed it writes the bytes
received and frees the slots; chn.close without transfers closes the end. -/
def Sys2Proof.Claims.ChannelTransfers : Prop :=
  ∀ (s s1 : State) (d a b : BitVec 5) (k : BitVec 3) (ch : BitVec 12) (e0 e : ChanEnd),
    let n := ch.toNat
    let len := (s.seq.gr b).toNat
    let r := s.reg s.cur
    let begun : Seq := { s.seq with holds := Claims.holdsAfter s.seq 0 .engines }
    s.seq.kr k = true → r.chan? n = some e0 → e0.corrupt = false → e0.stream = none →
    (s.engineHeld s.cur = false → e0.producer = true → len ≤ 2 ^ e0.size → (s.seq.gr a).toNat % 32 = 0 → len % 64 = 0 →
      s.chanRead s.cur e0 = (s1, .ok (some e)) → len / 64 ≤ 2 ^ e.size / 64 - (e.own + e.inflight - e.other) → r.copies.length < 16 →
      (0 < len → ∃ t c, exec (.chnSend a b k ch) s = .next t ∧ t.seq = Claims.standsAt begun (s.seq.pc + 8) ∧
        (t.reg s.cur).copies = r.copies ++ [c] ∧ c.len = len ∧ c.src = (s.seq.gr a).toNat ∧ c.chan = some (e.num, 0) ∧
        c.ring = some (e.header, 2 ^ e.size / 64, e.own + e.inflight) ∧ c.tag = none ∧
        (t.reg s.cur).chan? e.num = some { e with inflight := e.inflight + len / 64 } ∧ (∀ x, t.mem.read x = s.mem.read x)) ∧
      (len = 0 → ∃ t, exec (.chnSend a b k ch) s = .next t ∧ t.seq = Claims.standsAt s.seq (s.seq.pc + 8) ∧
        (t.reg s.cur).copies = r.copies ∧ (t.reg s.cur).chan? e.num = some e ∧ (∀ x, t.mem.read x = s.mem.read x))) ∧
    (s.engineHeld s.cur = false → e0.producer = false → 64 ≤ len → (s.seq.gr a).toNat % 32 = 0 → len % 64 = 0 →
      (e0.recv = none → s.chanRead s.cur e0 = (s1, .ok (some e)) → e.own < e.other → r.copies.length < 16 →
        let m := Nat.min (e.other - e.own) (len / 64)
        ∃ t c, exec (.chnRecv d a b k ch) s = .next t ∧
          t.seq = { begun with run := .waiting, waitFrom := s.seq.waitFrom.or (some s.tick) } ∧
          (t.reg s.cur).copies = r.copies ++ [c] ∧ c.len = 64 * m ∧ c.dst = (s.seq.gr a).toNat ∧ c.chan = some (e.num, 1) ∧
          c.ring = some (e.header, 2 ^ e.size / 64, e.own) ∧ c.tag = none ∧ (t.reg s.cur).chan? e.num = some { e with recv := some m } ∧
          (∀ x, t.mem.read x = s.mem.read x)) ∧
      (e0.recv = none → s.chanRead s.cur e0 = (s1, .ok (some e)) → e.other ≤ e.own → e.ended = true →
        ∃ t, exec (.chnRecv d a b k ch) s = .next t ∧ t.seq = Claims.standsAt (s.seq.gw d 0) (s.seq.pc + 8) ∧
          (∀ x, t.mem.read x = s.mem.read x)) ∧
      (∀ m, e0.recv = some m → e0.ready = true → s.writeNum (s.chanWho s.cur) (e0.header + 8) 8 (e0.own + m) = (s1, .ok ()) →
        ∃ t, exec (.chnRecv d a b k ch) s = .next t ∧ t.seq = Claims.standsAt (s.seq.gw d (BitVec.ofNat 64 (64 * m))) (s.seq.pc + 8) ∧
          (t.reg s.cur).chan? n = some { e0 with own := e0.own + m, recv := none, ready := false } ∧ t.mem = s1.mem)) ∧
    (e0.inflight = 0 → e0.recv = none →
      (e0.producer = false → ∃ t, exec (.chnClose k ch) s = .next t ∧ t.seq = Claims.standsAt s.seq (s.seq.pc + 8) ∧
        (t.reg s.cur).chan? n = none ∧ (∀ x, t.mem.read x = s.mem.read x)) ∧
      (e0.producer = true → s.writeNum (s.chanWho s.cur) (e0.header + 0x1C) 4 1 = (s1, .ok ()) →
        ∃ t, exec (.chnClose k ch) s = .next t ∧ t.seq = Claims.standsAt s.seq (s.seq.pc + 8) ∧
          (t.reg s.cur).chan? n = none ∧ t.mem = s1.mem))

/-- R311, R312: chn.stat of a channel that is not open here writes 0; of one that is open, its state bits and slots: for the
consumer the filled slots, for the producer the free ones; of one that is corrupt here, or that this read finds corrupt, what the read
found, with the corrupt bit. chn.close of a channel that is not open does nothing. That a number of slots below 0, on a corrupt channel, is taken
modulo 2^56 is the model's choice (log 130). -/
def Sys2Proof.Claims.ChannelStatus : Prop :=
  ∀ (s s1 : State) (d : BitVec 5) (k : BitVec 3) (ch : BitVec 12) (v : Replay) (e0 e : ChanEnd) (bs : List Byte),
    let n := ch.toNat
    s.seq.kr k = true →
    ((s.reg s.cur).chan? n = none → Claims.RunsTo (.chnClose k ch) s (Claims.standsAt s.seq (s.seq.pc + 8))) ∧
    (s.replayOf s.cur = some v → n < v.chcount →
      ((s.reg s.cur).chan? n = none → Claims.RunsTo (.chnStat d k ch) s (Claims.standsAt (s.seq.gw d 0) (s.seq.pc + 8))) ∧
      ((s.reg s.cur).chan? n = some e0 → e0.corrupt = false → s.chanRead s.cur e0 = (s1, .ok (some e)) →
        ∃ (t : State) (w : Word), exec (.chnStat d k ch) s = .next t ∧ t.seq = Claims.standsAt (s.seq.gw d w) (s.seq.pc + 8) ∧
          w.getLsbD 0 = true ∧ w.getLsbD 1 = e.producer ∧ w.getLsbD 2 = e.ended ∧ w.getLsbD 3 = e.corrupt ∧ w.extractLsb' 4 4 = 0 ∧
          (w.extractLsb' 8 56).toNat =
            (if e.producer then 2 ^ e.size / 64 - (e.own - e.other) else e.other - e.own) % 2 ^ 56 ∧
          (∀ x, t.mem.read x = s.mem.read x)) ∧
      ((s.reg s.cur).chan? n = some e0 → e0.corrupt = true → s.readVA (s.chanWho s.cur) e0.header 64 = (s1, .ok bs) →
        let other := if e0.producer then numAt bs 8 8 else numAt bs 0 8
        ∃ (t : State) (w : Word), exec (.chnStat d k ch) s = .next t ∧ t.seq = Claims.standsAt (s.seq.gw d w) (s.seq.pc + 8) ∧
          w.getLsbD 0 = true ∧ w.getLsbD 1 = e0.producer ∧ w.getLsbD 2 = (numAt bs 28 4 == 1) ∧ w.getLsbD 3 = true ∧ w.extractLsb' 4 4 = 0 ∧
          ((w.extractLsb' 8 56).toNat : Int) =
            (if e0.producer then ((2 ^ e0.size / 64 : Nat) : Int) - (e0.own - other) else (other : Int) - e0.own) % 2 ^ 56 ∧
          (∀ x, t.mem.read x = s.mem.read x)) ∧
      ((s.reg s.cur).chan? n = some e0 → e0.corrupt = false → s.readVA (s.chanWho s.cur) e0.header 64 = (s1, .ok bs) → e0.bad bs = true →
        (s.chanRead s.cur e0).2 = .ok none → s.seq.pending.length < 13 → ∃ (t : State) (w : Word), exec (.chnStat d k ch) s = .next t ∧ t.seq.pc = s.seq.pc + 8 ∧
          (∀ x, t.seq.gr x = if x = d ∧ d ≠ 0 then w else s.seq.gr x) ∧
          w.getLsbD 0 = true ∧ w.getLsbD 1 = e0.producer ∧ w.getLsbD 2 = (numAt bs 28 4 == 1) ∧ w.getLsbD 3 = true ∧ w.extractLsb' 4 4 = 0))

/-- R311, R312: the refusals of the channel group: a number outside the table, an end that is not open for the operation, a corrupt channel, a length
out of range, and a misaligned address. What FVA and FINFO hold there is the model's choice (log 21), and so are the alignment of 32 that it asks of
an address and CHN_RANGE before MISALIGNED (log 23). -/
def Sys2Proof.Claims.ChannelTraps : Prop :=
  ∀ (s : State) (d a b : BitVec 5) (k : BitVec 3) (ch : BitVec 12) (v : Replay) (e0 : ChanEnd),
    let n := ch.toNat
    let traps := fun (i : Instr) (c : BitVec 9) (fva : Word) => Claims.RunsTo i s (Claims.entered s.seq c s.seq.pc s.seq.pc fva (Claims.leadWord i))
    s.seq.kr k = true → Claims.canTrap s.seq → s.engineHeld s.cur = false →
    (s.replayOf s.cur = some v → v.chcount ≤ n → traps (.chnOpen k ch) 0x089 0 ∧ traps (.chnStat d k ch) 0x089 0) ∧
    ((s.reg s.cur).chan? n = none → traps (.chnSend a b k ch) 0x08A 0 ∧ traps (.chnRecv d a b k ch) 0x08A 0) ∧
    ((s.reg s.cur).chan? n = some e0 → e0.stream ≠ none → traps (.chnSend a b k ch) 0x08A 0 ∧ traps (.chnRecv d a b k ch) 0x08A 0) ∧
    ((s.reg s.cur).chan? n = some e0 → e0.corrupt = true → e0.stream = none →
      traps (if e0.producer then .chnSend a b k ch else .chnRecv d a b k ch) 0x084 (BitVec.ofNat 64 e0.header)) ∧
    ((s.reg s.cur).chan? n = some e0 → e0.corrupt = false → e0.stream = none →
      (e0.producer = false → traps (.chnSend a b k ch) 0x08A 0 ∧ ((s.seq.gr b).toNat < 64 → traps (.chnRecv d a b k ch) 0x089 0)) ∧
      (e0.producer = true → traps (.chnRecv d a b k ch) 0x08A 0 ∧
        (2 ^ e0.size < (s.seq.gr b).toNat → traps (.chnSend a b k ch) 0x089 0) ∧
        ((s.seq.gr b).toNat ≤ 2 ^ e0.size → (s.seq.gr a).toNat % 32 ≠ 0 → traps (.chnSend a b k ch) 0x020 (s.seq.gr a))))

/-- R147: an acknowledged frame leaves the partition's unacknowledged frames, and a retransmission sends it again; neither
changes memory or a sequencer. A frame behind pushes that still have sectors to send has not left: neither happens to it. -/
def Sys2Proof.Claims.RankFramesAcknowledged : Prop :=
  ∀ (s : State) (p id : Nat) (v : Part) (f : RankFrame), p < 48 → s.part? p = some v → v.frames.find? (fun g => g.id == id) = some f →
    let behind := ∃ c ∈ (s.reg f.src).copies, c.index ∈ f.after ∧ c.done.length ≠ c.len / 32
    (behind → exec (.rankAck p id) s = .next s ∧ exec (.rankFrameRetransmission p id) s = .next s) ∧
    (¬ behind →
    (∃ t w, exec (.rankAck p id) s = .next t ∧ t.part? p = some w ∧ w.frames = v.frames.filter (fun g => g.id != id) ∧
      (∀ x, t.mem.read x = s.mem.read x) ∧ (∀ x, (t.reg x).seq = (s.reg x).seq)) ∧
    (∃ t w, exec (.rankFrameRetransmission p id) s = .next t ∧ t.part? p = some w ∧
      w = { v with frames := v.frames.map (fun g => if g.id = id then { g with sends := g.sends + 1 } else g), meter := w.meter } ∧
      (∀ x, t.mem.read x = s.mem.read x) ∧ (∀ x, t.reg x = s.reg x)))

/-! ## Messages -/

/-- Nothing of the machine outside region `r`, and no byte of memory, differs between `s` and `t`. -/
def Sys2Proof.Claims.OnlyRegion (s t : State) (r : Nat) : Prop :=
  (∀ x, x ≠ r → t.reg x = s.reg x) ∧ (∀ a, t.mem.read a = s.mem.read a) ∧ t.parts = s.parts ∧ t.sets = s.sets

/-- What a decrement or an unblock leaves of a tag (R318). -/
def Sys2Proof.Claims.tagAfter (mode : Nat) (v : TagState) : TagState :=
  if mode = 1 ∨ v.count = 1 then { v with b := false, count := 0, arm := none } else { v with count := v.count - 1 }

/-- A tag of region `r` takes a new state: no other tag and nothing else of the sequencer changes but that a yield ends if the tag
changes (R198). -/
def Sys2Proof.Claims.TagBecomes (s t : State) (r n : Nat) (w : TagState) : Prop :=
  (t.reg r).tag n = w ∧ (∀ m, m ≠ n → (t.reg r).tag m = (s.reg r).tag m) ∧
    (t.reg r).seq = { (s.reg r).seq with wake := (s.reg r).seq.wake || decide (w ≠ (s.reg r).tag n) }

/-- R326, R318, R390: the oldest signal from one issuer to one target is taken out of flight. Where the stage that it is aimed at is
placed and has not completed there, it changes its tag alone, unless the count is at its least. Where that stage's tag table is saved,
it is held with the record; where there is neither, it is discarded. -/
def Sys2Proof.Claims.SignalApplied : Prop :=
  ∀ (s : State) (src dst : Nat) (g : Signal) (v : Part), src < 192 → dst < 192 → s.pkg.retired.getLsbD dst = false →
    tileLive ((s.reg dst).tileState 352) = true →
    s.pkg.signals.find? (fun g => g.src == src && g.dst == dst) = some g → s.part? g.part = some v →
    let lands := ∃ pl, (s.reg dst).place = some pl ∧ pl.part = g.part ∧ (∀ x, g.target = some x → x = (pl.replay, pl.stage)) ∧
      (∀ c, v.stageOf pl = some c → dst ∉ c.done)
    ∃ t, exec (.remoteSignal src dst) s = .next t ∧ t.pkg.signals = s.pkg.signals.filter (fun x => x.num != g.num) ∧
      (lands → g.mode = 1 ∨ ((s.reg dst).tag g.tag).count ≠ BitVec.intMin 16 →
        Claims.TagBecomes s t dst g.tag (Claims.tagAfter g.mode ((s.reg dst).tag g.tag)) ∧ Claims.OnlyRegion s t dst) ∧
      (¬ lands → t.regs = s.regs ∧ t.mem = s.mem ∧ ∃ w, t.part? g.part = some w ∧
        ((∀ y ∈ v.replays, ∀ d ∈ y.dgs, d.takesSignal y.num g = false) → w = v) ∧
        ((∃ y ∈ v.replays, ∃ d ∈ y.dgs, d.takesSignal y.num g = true) → ∃ y ∈ w.replays, ∃ d ∈ y.dgs, g ∈ d.held))

/-- R52, R318, R321: the oldest done token of a region unblocks its completion tag, once no rmw operation that the region's blocks sent
for the replay placed there is on its way any longer; until then it waits. -/
def Sys2Proof.Claims.DoneTokenUnblocks : Prop :=
  ∀ (s : State) (r n : Nat) (ns : List Nat), r < 192 → (s.reg r).tokens = n :: ns →
    ((∀ f ∈ s.pkg.folds, f.rmw = true → f.issuer = r → ∀ pl, (s.reg r).place = some pl → ¬(f.part = pl.part ∧ f.replay = pl.replay)) →
      ∃ t, exec (.doneToken r) s = .next t ∧ (t.reg r).tokens = ns ∧
      (t.reg r).tag n = { (s.reg r).tag n with b := false, count := 0, arm := none } ∧
      (∀ m, m ≠ n → (t.reg r).tag m = (s.reg r).tag m) ∧ (t.reg r).seq = { (s.reg r).seq with wake := true } ∧ Claims.OnlyRegion s t r) ∧
    ((∃ f ∈ s.pkg.folds, f.rmw = true ∧ f.issuer = r ∧ ∃ pl, (s.reg r).place = some pl ∧ f.part = pl.part ∧ f.replay = pl.replay) →
      exec (.doneToken r) s = .next s)

/-- R325: an evaluation of an armed tag whose word can be read unblocks it when every bit of the mask is set, and leaves it
armed otherwise. -/
def Sys2Proof.Claims.ArmEvaluated : Prop :=
  ∀ (s s1 : State) (r n w : Nat) (a : Arm), r < 192 → n < 256 → ((s.reg r).tag n).arm = some a →
    s.readNum { part := (s.owner r).getD 48, region := some r, unit := 0xF9 } a.va 8 = (s1, .ok w) →
    ∃ t, exec (.armEvaluation r n) s = .next t ∧
      (t.reg r).tag n = (if BitVec.ofNat 64 w &&& a.mask = a.mask then { (s.reg r).tag n with b := false, count := 0, arm := none }
        else (s.reg r).tag n) ∧
      (∀ m, m ≠ n → (t.reg r).tag m = (s.reg r).tag m) ∧ (∀ x, x ≠ r → t.reg x = s.reg x) ∧ (∀ x, t.mem.read x = s.mem.read x)

/-- R222, R320, R324: with no held word, the next word of the die mesh or of the region itself goes to the row of its tag, if that is
unblocked, its FIFO has room and the tag is bound to no island or to one of the current block that has not switched; to the injection
FIFO, of its bank, of the switched island it is bound to; and to the hold while the tag is blocked, or while the current block has no such
island: the hold then remembers that, since the word waits for a block in which that island has switched. A word of a reserved kind goes on
as poison, and a marker ends. With words in the hold, the oldest that may leave goes first; while the hold has 64 and none may leave, the
router takes no word. -/
def Sys2Proof.Claims.RouterTakesWord : Prop :=
  ∀ (s : State) (r : Nat) (mesh : Bool), r < 192 →
    let g := s.reg r
    let goes := fun (u : Region) => ∃ t, exec (.routerWordArrival r mesh) s = .next t ∧ t.reg r = u ∧ Claims.OnlyRegion s t r
    (∀ (q0 : QWord) (qs : List QWord), g.hold = [] → (if mesh then g.mesh else g.loc) = q0 :: qs →
      let q : QWord := { q0 with w := if 5 ≤ q0.w.kind.toNat then { q0.w with kind := 3 } else q0.w, missed := false }
      let v := g.tag q.w.tag.toNat
      let u := if mesh then { g with mesh := qs } else { g with loc := qs }
      let y := q.w.tag.toNat % 16
      let rowed : Region := { u with rows := spInsert g.rows y (spGet [] g.rows y ++ [q]) }
      (q0.w.kind = 4 → goes u) ∧
      (q0.w.kind ≠ 4 →
        (v.b = false → v.task = none → (spGet [] g.rows y).length < 8 → goes rowed) ∧
        (v.b = false → v.task = none → 8 ≤ (spGet [] g.rows y).length → goes g) ∧
        (∀ i x, v.b = false → v.task = some i → (g.bank g.cur).islands[i]? = some x →
          (x.started = true → (spGet [] g.inj (i + 16 * g.cur.toNat)).length < 8 →
            goes { u with inj := spInsert g.inj (i + 16 * g.cur.toNat) (spGet [] g.inj (i + 16 * g.cur.toNat) ++ [q]) }) ∧
          (x.started = false → (spGet [] g.rows y).length < 8 → goes rowed)) ∧
        (∀ i, v.b = false → v.task = some i → (g.bank g.cur).islands[i]? = none → goes { u with hold := [{ q with missed := true }] }) ∧
        (v.b = true → goes { u with hold := [{ q with missed := match v.task with
          | some i => (g.bank g.cur).islands[i]?.isNone
          | none => false }] }))) ∧
    (∀ (h : QWord) (hs : List QWord), g.hold = h :: hs → (g.tag h.w.tag.toNat).b = false → (g.tag h.w.tag.toNat).task = none →
      (spGet [] g.rows (h.w.tag.toNat % 16)).length < 8 →
      goes { g with hold := hs, rows := spInsert g.rows (h.w.tag.toNat % 16) (spGet [] g.rows (h.w.tag.toNat % 16) ++ [h]) }) ∧
    (64 ≤ g.hold.length → (∀ h ∈ g.hold, (g.tag h.w.tag.toNat).b = true) → goes g)

/-- R145: a packet whose key does not match is dropped, counted and logged. -/
def Sys2Proof.Claims.KeyMismatchDrops : Prop :=
  ∀ (s : State) (port key : Nat), port < 65536 → key < 65536 →
    ∃ t, exec (.keyMismatch port key) s = .next t ∧ t.pkg.drops = s.pkg.drops + 1 ∧
      t.pkg.lastDrops = ((port, key, s.tick) :: s.pkg.lastDrops).take 16 ∧ (∀ x, t.reg x = s.reg x) ∧
      (∀ x, t.mem.read x = s.mem.read x) ∧ t.parts = s.parts

/-- R145, R147: a sector of a rank push whose key a partition holds is written into the palette of the region that the
partition has placed there, and nothing else in memory changes; a signal changes the tag of the stage that is placed there; at a region
where the partition has nothing, placed or saved, both are discarded; a key that no partition holds makes the port drop them. -/
def Sys2Proof.Claims.RankFrameLands : Prop :=
  ∀ (s : State) (port key region off : Nat) (bytes : List Byte), port < 16 → key < 65536 → region < 192 →
    off % 32 = 0 → off + 32 ≤ 2 ^ 21 → bytes.length = 32 →
    (∀ (p : Nat) (v : Part) (n src : BitVec 8) (mode : BitVec 1), src.toNat < 192 → s.parts.find? (fun e => e.2.key.toNat == key) = some (p, v) →
      s.part? p = some v → ∃ t, exec (.rankFrameArrival port key region (.signal n mode src)) s = .next t ∧ t.mem = s.mem ∧
        (∀ pl, (s.reg region).place = some pl → pl.part = p → (∀ c, v.stageOf pl = some c → region ∉ c.done) →
          mode = 1 ∨ ((s.reg region).tag n.toNat).count ≠ BitVec.intMin 16 →
          Claims.TagBecomes s t region n.toNat (Claims.tagAfter mode.toNat ((s.reg region).tag n.toNat)) ∧ ∀ x, x ≠ region → t.reg x = s.reg x) ∧
        (s.owner region ≠ some p → t.regs = s.regs)) ∧
    (∀ (p : Nat) (v : Part), s.parts.find? (fun e => e.2.key.toNat == key) = some (p, v) → s.owner region ≠ some p →
      ∃ t, exec (.rankFrameArrival port key region (.sector off bytes)) s = .next t ∧ t.mem = s.mem ∧ t.regs = s.regs) ∧
    (∀ (p : Nat) (v : Part), s.parts.find? (fun e => e.2.key.toNat == key) = some (p, v) → s.owner region = some p →
      ∃ t, exec (.rankFrameArrival port key region (.sector off bytes)) s = .next t ∧
        (∀ i, i < bytes.length → t.mem.read (2 ^ 52 + region * 2 ^ 21 + off + i) = bytes.getD i 0) ∧
        (∀ x, ¬(2 ^ 52 + region * 2 ^ 21 + off ≤ x ∧ x < 2 ^ 52 + region * 2 ^ 21 + off + bytes.length) → t.mem.read x = s.mem.read x) ∧
        (∀ x, t.reg x = s.reg x)) ∧
    (s.parts.find? (fun e => e.2.key.toNat == key) = none → ∀ body, (∀ n mode src, body = .signal n mode src → src.toNat < 192) →
      ∃ t, exec (.rankFrameArrival port key region body) s = .next t ∧ t.pkg.drops = s.pkg.drops + 1 ∧ t.mem = s.mem ∧ t.parts = s.parts)

/-- R72, R331, R334, R390: the owner accepts the oldest operation of an issuer: the word takes the value that the operation gives for
its old value, no other byte changes, the operation leaves the network, and with r its old value is sent back to the slot. A clamp or
a signalling NaN sets the sticky bit of the issuing region, if its replay still stands there. An rmw operation that reaches a region
whose part of the stage has completed is discarded instead. -/
def Sys2Proof.Claims.FoldApplied : Prop :=
  (∀ (s : State) (issuer owner row : Nat) (m : FoldMsg) (rest : List FoldMsg) (v : Part) (y : Replay) (d : DieGraph) (c : StageRec),
    issuer < 192 → owner < 192 → row < 16 → s.nextFold issuer (owner, row) = some (m, rest) → m.rmw = true → s.part? m.part = some v →
    v.replays.find? (fun y => y.num == m.replay) = some y → d ∈ y.dgs → c ∈ d.stages → owner ∈ c.done → m.owner = (owner, row) →
    (∀ d ∈ y.dgs, ∀ c ∈ d.stages, owner ∈ c.regions → owner ∈ c.done) →
    ∃ t, exec (.foldOperation issuer owner row) s = .next t ∧ t.pkg = { s.pkg with folds := rest } ∧ t.mem = s.mem ∧ t.regs = s.regs ∧
      t.parts = s.parts) ∧
  ∀ (s s1 s2 : State) (issuer owner row old v pa : Nat) (m : FoldMsg) (rest : List FoldMsg) (l : Sparse FoldReg) (sat snan : Bool),
    issuer < 192 → owner < 192 → row < 16 → s.nextFold issuer (owner, row) = some (m, rest) → m.owner = (owner, row) →
    s.ownerDone m = false → s.readNum m.who m.addr m.z = (s1, .ok old) → applyFold m (s.pkg.shadowsOf (owner, row)) old = .done v l sat snan →
    m.addr % m.z = 0 → m.z = 2 ∨ m.z = 4 ∨ m.z = 8 →
    s1.reach m.who m.addr .write = (s2, .ok pa) → s2.physFault pa m.z .write = none →
    ∃ t, exec (.foldOperation issuer owner row) s = .next t ∧
      (∀ i, i < m.z → t.mem.read (pa + i) = BitVec.ofNat 8 (v / 256 ^ i)) ∧
      (∀ x, ¬(pa ≤ x ∧ x < pa + m.z) → t.mem.read x = s.mem.read x) ∧ t.pkg.folds = rest ∧
      t.pkg.returns = (if m.r then s.pkg.returns ++ [{ part := m.part, replay := m.replay, dst := m.issuer, slot := m.slot, val := BitVec.ofNat 64 old }]
        else s.pkg.returns) ∧ (sat = false → snan = false → ∀ x, (t.reg x).seq = (s.reg x).seq) ∧
      (∀ pl, (s.reg m.issuer).place = some pl → pl.part = m.part → pl.replay = m.replay →
        (t.reg m.issuer).sat = ((s.reg m.issuer).sat || sat) ∧ (t.reg m.issuer).snan = ((s.reg m.issuer).snan || snan))

/-- R334: an operation whose access is held holds its owner, and while it does, no other operation of its partition goes on there. -/
def Sys2Proof.Claims.FoldHolds : Prop :=
  ∀ (s : State) (issuer owner row : Nat), issuer < 192 → owner < 192 → row < 16 →
    (∀ s1 m rest, s.nextFold issuer (owner, row) = some (m, rest) → s.ownerDone m = false → s.readNum m.who m.addr m.z = (s1, .held) →
      ∃ t, exec (.foldOperation issuer owner row) s = .next t ∧ t.mem = s1.mem ∧
        t.pkg.folds = s1.pkg.folds.map (fun x => if x.num = m.num then { x with held := true } else x)) ∧
    (∀ x ∈ s.pkg.folds, x.held = true → x.owner = (owner, row) →
      (∀ m ∈ s.pkg.folds, m.issuer = issuer → m.owner = (owner, row) → m.part = x.part ∧ m.num ≠ x.num) →
      exec (.foldOperation issuer owner row) s = .next s)

/-- R334: what an integer operation on a word of `z` bytes gives for an old value `o` and operands `b` and `c`: add, min, max,
minu, maxu, and, or, xor, swap, compare-and-swap and increment, all modulo the word; addsat clamps to the signed range. -/
def Obligations.FoldValues : Prop :=
  ∀ (n : Nat) (o b c : BitVec n), n = 32 ∨ n = 64 →
    let f := fun (op : Nat) => (foldInt op (n / 8) true o.toNat b.toNat c.toNat).1
    f 0 = (o + b).toNat ∧ f 4 = (if b.toInt < o.toInt then b else o).toNat ∧ f 5 = (if o.toInt < b.toInt then b else o).toNat ∧
    f 6 = (if b.toNat < o.toNat then b else o).toNat ∧ f 7 = (if o.toNat < b.toNat then b else o).toNat ∧
    f 8 = (o &&& b).toNat ∧ f 9 = (o ||| b).toNat ∧ f 10 = (o ^^^ b).toNat ∧ f 11 = b.toNat ∧
    f 12 = (if o = c then b else o).toNat ∧ f 13 = (o + 1).toNat ∧
    f 1 = (BitVec.ofInt n (max (-(2 ^ (n - 1))) (min (o.toInt + b.toInt) (2 ^ (n - 1) - 1)))).toNat

/-- R327: the oldest return for a region fills the slot that is owed there, which ends a yield. -/
def Sys2Proof.Claims.FoldReturned : Prop :=
  ∀ (s : State) (r : Nat) (x : FoldRet) (rest : List FoldRet) (pl : Placement), r < 192 →
    takeFirst (fun x => x.dst == r) s.pkg.returns = some (x, rest) → (s.reg r).place = some pl → pl.part = x.part → pl.replay = x.replay →
    (s.reg r).seq.slot (BitVec.ofNat 4 x.slot) = .owed →
    ∃ t, exec (.foldReturn r) s = .next t ∧ t.pkg = { s.pkg with returns := rest } ∧ (t.reg r).seq.wake = true ∧
      (∀ n : BitVec 4, (t.reg r).seq.slot n = if n = BitVec.ofNat 4 x.slot then .full x.val else (s.reg r).seq.slot n) ∧
      (∀ a, (t.reg r).seq.gr a = (s.reg r).seq.gr a) ∧ (t.reg r).seq.pc = (s.reg r).seq.pc ∧ Claims.OnlyRegion s t r

/-- R326, R381: an orphaned operation, or one behind the isolated router of its owner's region, comes back to its issuer: a slot it owes
returns to empty and ORPHAN_RETURN is queued behind the causes already pending. So does a signal to a region that has retired or whose
sequencer is isolated, before any operation. -/
def Sys2Proof.Claims.OrphanReturned : Prop :=
  (∀ (s : State) (src dst : Nat) (g : Signal) (pl : Placement), src < 192 → dst < 192 →
    s.pkg.retired.getLsbD dst = true ∨ tileLive ((s.reg dst).tileState 352) = false →
    s.pkg.signals.find? (fun g => g.src == src && g.dst == dst) = some g → (s.reg src).place = some pl → pl.part = g.part →
    pl.replay = g.replay → (s.reg src).seq.pending.length < 16 →
    ∃ t, exec (.orphanReturn src dst) s = .next t ∧ t.pkg = { s.pkg with signals := s.pkg.signals.filter (fun x => x.num != g.num) } ∧
      (t.reg src).seq = { (s.reg src).seq with wake := true, pending := (s.reg src).seq.pending ++
        [{ cause := 0x121, fva := 0, finfo := BitVec.ofNat 64 (g.tag + 256 * dst) }] } ∧ Claims.OnlyRegion s t src) ∧
  ∀ (s : State) (src dst : Nat) (m : FoldMsg) (rest : List FoldMsg) (pl : Placement), src < 192 → dst < 192 →
    s.pkg.signals.any (fun g => g.src == src && g.dst == dst) = false →
    takeFirst (fun m => (m.orphan || !(tileLive ((s.reg dst).tileState 353))) && m.issuer == src && m.owner.1 == dst) s.pkg.folds = some (m, rest) →
    (s.reg src).place = some pl → pl.part = m.part → pl.replay = m.replay → (s.reg src).seq.pending.length < 16 →
    ∃ t, exec (.orphanReturn src dst) s = .next t ∧ t.pkg = { s.pkg with folds := rest } ∧
      (t.reg src).seq.pending = (s.reg src).seq.pending ++
        [{ cause := 0x121, fva := BitVec.ofNat 64 m.addr, finfo := if m.r then m.info else 0 }] ∧
      (m.r = true → (s.reg src).seq.slot (BitVec.ofNat 4 m.slot) = .owed → (t.reg src).seq.slot (BitVec.ofNat 4 m.slot) = .empty) ∧
      (t.reg src).seq.pc = (s.reg src).seq.pc ∧ Claims.OnlyRegion s t src

/-- R382, R186: a window that is being re-homed goes to the first live edge unit of the partition's regions, in ascending region
number and then ascending row, that serves fewer than four of the partition's windows, and the operations held for it go with it.
Without one it has no owner: each operation held for it is discarded, its owed slot is empty again, and FOLD_NO_WINDOW is queued at its
issuer, with FVA and FINFO 0, as R382 names neither. That the operations held until then count among the later ones of R382 is the model's
reading (log 21). -/
def Sys2Proof.Claims.WindowRehomed : Prop :=
  ∀ (s : State) (p w : Nat) (v : Part) (win : Window), p < 48 → s.part? p = some v → v.windows[w]? = some win →
    s.pkg.rehoming.contains (p, w) = true →
    let free := fun (x : Nat × Nat) => x.1 < 192 ∧ v.regions.getLsbD x.1 = true ∧ x.2 < 16 ∧
      tileLive ((s.reg x.1).tileState (336 + x.2)) = true ∧
      ((v.windows.set w { win with owner := none }).filter (fun y => y.owner == some x)).length < 4
    let mine := fun (m : FoldMsg) => m.part == p && !m.orphan && decide (win.va ≤ m.addr) && decide (m.addr < win.va + 2 ^ win.log2)
    ∃ t u o, (∀ x, o = some x ↔ free x ∧ ∀ y, free y → x.1 < y.1 ∨ x.1 = y.1 ∧ x.2 ≤ y.2) ∧ exec (.windowRehome p w) s = .next t ∧ t.pkg.rehoming = s.pkg.rehoming.filter (fun x => x != (p, w)) ∧
      t.part? p = some u ∧ u.windows = v.windows.set w { win with owner := o } ∧
      (∀ x, o = some x → t.pkg.folds = s.pkg.folds.map (fun m => if mine m then { m with owner := x, held := false } else m)) ∧
      (o = none → t.pkg.folds = s.pkg.folds.filter (fun m => !mine m) ∧
        ∀ r pl, (s.reg r).place = some pl →
          let own := s.pkg.folds.filter (fun m => mine m && m.issuer == r && m.part == pl.part && m.replay == pl.replay)
          (s.reg r).seq.pending.length + own.length ≤ 16 →
          (t.reg r).seq.pending = (s.reg r).seq.pending ++ List.replicate own.length { cause := 0x0C3, fva := 0, finfo := 0 } ∧
          ∀ m ∈ own, m.r = true → (s.reg r).seq.slot (BitVec.ofNat 4 m.slot) = .owed → (t.reg r).seq.slot (BitVec.ofNat 4 m.slot) = .empty) ∧
      (∀ x, t.mem.read x = s.mem.read x)

/-- R333, R382, R186: a fold into a window that has no owner completes, sends nothing and queues FOLD_NO_WINDOW, with FVA and FINFO 0,
as R382 names neither. -/
def Sys2Proof.Claims.FoldWithoutOwner : Prop :=
  ∀ (s : State) (a b c : BitVec 5) (op : BitVec 4) (r : BitVec 1) (slot : BitVec 4) (off : BitVec 20) (size : BitVec 2)
    (acq rel : BitVec 1) (scope k : BitVec 3) (p ea : Nat) (v : Part) (w : Window),
    let i : Instr := .fold a b c op r slot off size acq rel scope k
    let z := match size.toNat with | 0 => 4 | 1 => 8 | _ => 2
    s.seq.kr k = true → s.engineHeld s.cur = false → s.owner s.cur = some p → s.part? p = some v →
    Claims.Sum (s.seq.gr a) off.toInt ea → ea % z = 0 →
    v.windows.find? (fun w => decide (w.va ≤ ea) && decide (ea + z ≤ w.va + 2 ^ w.log2)) = some w → w.owner = none →
    (r = 1 → s.seq.slot slot = .empty) → rel = 0 ∨ s.engineBusy s.cur = false → s.seq.pending.length < 16 →
    Claims.RunsTo i s (Claims.standsAt { s.seq with wake := true, pending := s.seq.pending ++
      [{ cause := 0x0C3, fva := 0, finfo := 0 }] } (s.seq.pc + 8))

/-! ## Decode faults, queued causes and the end of a yield -/

/-- The cause code of each decode check (R93). -/
def Sys2Proof.Claims.rejectCode : Reject → BitVec 9
  | .lenIllegal => 0x000
  | .majorIllegal => 0x001
  | .fnIllegal => 0x002
  | .fieldReserved => 0x003
  | .orderIllegal => 0x021
  | .scopeIllegal => 0x022
  | .truncated => 0x000

/-- R93, R186, R193: words that are no instruction trap with the cause of their check and the lead word in FINFO, a fetch that
faults with its own cause, the address of the failing fetch in FVA; EPC and IVA are the instruction. -/
def Sys2Proof.Claims.DecodeFaultTraps : Prop :=
  ∀ (s s1 : State), s.cur < 192 → Claims.canTrap s.seq →
    let traps := fun (c : BitVec 9) (fva finfo : Word) => ∃ t, exec .decodeFault s = .next t ∧
      t.seq = Claims.entered s.seq c s.seq.pc s.seq.pc fva finfo ∧ (∀ x, x ≠ s.cur → t.reg x = s.reg x) ∧
      (∀ x, t.mem.read x = s.mem.read x)
    (∀ (e : Reject) (w : IWord), s.fetch s.cur = (s1, .reject e w) →
      traps (Claims.rejectCode e) 0 (w.setWidth 64)) ∧
    (∀ (c : BitVec 9) (a info : Word), s.fetch s.cur = (s1, .fault c a info) → traps c a info)

/-- R188: the oldest pending cause is delivered, in normal mode, with EPC and IVA the instruction not yet issued or waiting;
it leaves the queue. -/
def Sys2Proof.Claims.CauseDelivered : Prop :=
  ∀ (s : State) (r : Nat) (c : Pend) (cs : List Pend), r < 192 → s.ready r = .cause → (s.reg r).seq.pending = c :: cs →
    (s.reg r).seq.tvec ≠ 0 →
    ∃ t, exec (.causeDelivery r) s = .next t ∧
      (t.reg r).seq = Claims.entered { (s.reg r).seq with pending := cs } c.cause (s.reg r).seq.pc (s.reg r).seq.pc c.fva c.finfo ∧
      Claims.OnlyRegion s t r

/-- R198: a yield that has waited 4,096 cycles goes on. -/
def Sys2Proof.Claims.YieldTimesOut : Prop :=
  ∀ (s s1 : State) (r t0 : Nat) (k : BitVec 3), r < 192 → (s.reg r).seq.run = .waiting → (s.reg r).seq.waitFrom = some t0 →
    4096 * 10 ≤ (s.tick - t0) * 13 → s.ready r = .fetch → s.fetch r = (s1, .instr (.yield k)) →
    ∃ t, exec (.yieldTimeout r) s = .next t ∧
      (t.reg r).seq = Claims.standsAt { (s.reg r).seq with wake := false } ((s.reg r).seq.pc + 4) ∧
      (∀ x, x ≠ r → t.reg x = s.reg x) ∧ (∀ x, t.mem.read x = s.mem.read x)

/-! ## Streams at work -/

/-- R284, R285: a bound dir-0 stream that its block does not hold delivers the oldest word it has read ahead, widened for the block, to the end of
its binding's FIFO when that has room, and reads and writes no memory for it; strm.bar does not hold it back. That the word is widened for the block
that takes it, and not for the one it was read for, is the model's choice (log 44). -/
def Sys2Proof.Claims.StreamDelivers : Prop :=
  ∀ (s : State) (r n : Nat) (bank : Bool) (e : Machine.Bind) (q : QWord) (qs : List QWord), r < 192 → n < 128 →
    let g := s.reg r
    g.strmParked n = false → (g.stream n).desc.dir = 0 → g.binding n = some (bank, e) →
    g.bankA.unbinding.contains n = false → g.bankB.unbinding.contains n = false →
    (g.stream n).ahead = q :: qs → (g.boundFifo e.kind e.pos).length < 8 → g.posTaken bank e = false → e.kind ∈ [0, 1, 4] →
    ∃ t, exec (.streamAccess r n) s = .next t ∧
      (t.reg r).boundFifo e.kind e.pos = g.boundFifo e.kind e.pos ++
        [{ q with w := (g.stream n).desc.widenWord (g.widensSigned n) q.w, bank := bank }] ∧
      (t.reg r).stream n = { g.stream n with ahead := qs } ∧ (t.reg r).seq = g.seq ∧ Claims.OnlyRegion s t r

/-- R285, R293: a bound dir-1 stream of 64-bit elements without scales that has no element in hand takes the next word of
its FIFO, when that word is no poison: of a data word the element is its payload. A bubble or a marker is discarded, and a full
element is stored only by a later access: nothing but the region changes. -/
def Sys2Proof.Claims.StreamTakesWord : Prop :=
  ∀ (s : State) (r n : Nat) (bank : Bool) (e : Machine.Bind) (q : QWord) (qs : List QWord), r < 192 → n < 128 →
    let g := s.reg r
    let v := g.stream n
    g.strmParked n = false → g.binding n = some (bank, e) → e.kind ∈ [2, 3, 5] →
    v.desc.dir = 1 → v.desc.mode = 0 → v.desc.width = 64 → v.desc.scale = 0 → v.state = 2 → v.sated = false → v.part = [] →
    g.outEnded n = false → g.boundFifo e.kind e.pos = q :: qs → q.bank = bank → q.w.kind ≠ 3 →
    ∃ t, exec (.streamAccess r n) s = .next t ∧ (t.reg r).boundFifo e.kind e.pos = qs ∧ (t.reg r).seq = g.seq ∧
      (q.w.kind = 0 → ((t.reg r).stream n).part = [q.w.payload.toNat]) ∧ (q.w.kind = 2 ∨ q.w.kind = 4 → (t.reg r).stream n = v) ∧
      Claims.OnlyRegion s t r

/-- R170, R172: when the translation unit answers a stream's request with a translation, the stream holds the extent that the translation belongs to,
first of its four, and goes on. Which pages make one extent is the model's choice (log 26). Only the first 4 of the requests that wait, in the order
of their arrival, have a walk: another is not answered yet. -/
def Sys2Proof.Claims.ExtentAnswered : Prop :=
  ∀ (s s1 : State) (r n va : Nat) (w : Bool) (x : Xlate), r < 192 → n < 128 → ((s.reg r).stream n).need = some (va, w) →
    let first := ((s.reg r).walks.filter (fun m => ((s.reg r).stream m).need.isSome)).take 4
    (n ∉ first → exec (.extentMiss r n) s = .next s) ∧ (n ∈ first →
    s.xlateFor { part := (s.owner r).getD 48, region := some r, unit := n } va (if w then .write else .read) = (s1, .ok x) →
    ∃ t, exec (.extentMiss r n) s = .next t ∧ ((t.reg r).stream n).need = none ∧ ((t.reg r).stream n).paused = false ∧
      ((t.reg r).stream n).extents = cacheXlate ((s.reg r).stream n).extents
        (match s1.part? x.part with | some v => s1.extentOf v x | none => x) 4 ∧
      ((t.reg r).stream n).cur = ((s.reg r).stream n).cur ∧ (∀ x, x ≠ r → t.reg x = s.reg x) ∧ (∀ a, t.mem.read a = s.mem.read a))

/-! ## Islands, edge units and rounds -/

/-- What an integer lane op gives for the lanes `a` and `b` and the third operand's lane `c`, all of `n` bits (R242, R243). -/
def Sys2Proof.Claims.laneResult {n : Nat} (signed : Bool) (a b c : BitVec n) : Nat → Option (BitVec n)
  | 0x04 => some (a + b)
  | 0x05 => some (a - b)
  | 0x06 => some (a &&& b)
  | 0x07 => some (a ||| b)
  | 0x08 => some (a ^^^ b)
  | 0x09 => some (a <<< b.toNat)
  | 0x0A => some (a >>> b.toNat)
  | 0x0B => some (a.sshiftRight b.toNat)
  | 0x0C => some (((a ++ b) <<< min c.toNat n).extractLsb' n n)
  | 0x0D => some (((a ++ b) >>> min c.toNat n).extractLsb' 0 n)
  | 0x0E => some (if (if signed then b.slt a else b.ult a) then b else a)
  | 0x0F => some (if (if signed then a.slt b else a.ult b) then b else a)
  | 0x10 => some (if signed && a.msb then -a else a)
  | 0x11 => some (-a)
  | 0x12 => some (if a = b then BitVec.allOnes n else 0)
  | 0x13 => some (if a.slt b then BitVec.allOnes n else 0)
  | 0x14 => some (if a.ult b then BitVec.allOnes n else 0)
  | 0x15 => some (if c = 0 then b else a)
  | 0x16 => some (BitVec.ofNat n ((List.range n).filter (fun i => a.getLsbD i)).length)
  | 0x17 => some (BitVec.ofNat n (if a = 0 then n else n - 1 - Nat.log2 a.toNat))
  | 0x1C => some (BitVec.ofNat n (2 ^ min a.toNat n - 1))
  | 0x1F => some ((a &&& c) ||| (b &&& ~~~c))
  | _ => none

/-- The integer that a lane stands for, per class (R70). -/
def Sys2Proof.Claims.laneInt {n : Nat} (signed : Bool) (a : BitVec n) : Int := if signed then a.toInt else a.toNat

/-- A number held to the range of a class's lanes of `n` bits (R70, R72). -/
def Sys2Proof.Claims.held (signed : Bool) (n : Nat) (x : Int) : Int :=
  if signed then max (-(2 ^ (n - 1))) (min x (2 ^ (n - 1) - 1)) else max 0 (min x (2 ^ n - 1))

/-- R239, R242 to R245: the value of each integer lane op, with every bit above its lanes zero; what it leaves of the cell is unchanged, and
SAT is raised exactly where a lane is clamped. -/
def Sys2Proof.Claims.IntegerLanes : Prop :=
  ∀ (v : Cell) (x : OpCtx), fuseClass x.fuse ≤ 1 →
    let n := laneWidth x.fuse
    let signed := fuseClass x.fuse == 0
    let lane := fun (m : Nat) (w : Word) (i : Nat) => w.extractLsb' (m * i) m
    let int := fun (m : Nat) (w : Word) (i : Nat) => Claims.laneInt signed (lane m w i)
    let a := x.a.payload
    let b := x.b.payload
    let gives := fun (sat : Prop) (f : Word → Prop) => ∃ w : Word, (v.execute x).cell = v ∧ (v.execute x).value = some { payload := w } ∧
      (v.execute x).snan = false ∧ ((v.execute x).sat = true ↔ sat) ∧ f w
    (Claims.laneResult signed (lane n a 0) (lane n b 0) (lane n x.c 0) (opCode x.op) ≠ none → gives False (fun w =>
      (∀ i, i < 64 / n → some (lane n w i) = Claims.laneResult signed (lane n a i) (lane n b i) (lane n x.c i) (opCode x.op)) ∧
      w.toNat < 2 ^ (n * (64 / n)))) ∧
    (opCode x.op = 0x18 ∨ opCode x.op = 0x19 →
      let exact := fun (i : Nat) => if opCode x.op = 0x18 then int n a i + int n b i else int n a i - int n b i
      gives (∃ i, i < 64 / n ∧ Claims.held signed n (exact i) ≠ exact i) (fun w =>
        (∀ i, i < 64 / n → lane n w i = BitVec.ofInt n (Claims.held signed n (exact i))) ∧ w.toNat < 2 ^ (n * (64 / n)))) ∧
    (opCode x.op = 0x1A →
      gives (∃ i, i < 64 / n ∧ (Claims.held signed (n / 2) (int n a i) ≠ int n a i ∨ Claims.held signed (n / 2) (int n b i) ≠ int n b i)) (fun w =>
        ∀ i, i < 64 / n → lane (n / 2) w i = BitVec.ofInt (n / 2) (Claims.held signed (n / 2) (int n a i)) ∧
          lane (n / 2) w (64 / n + i) = BitVec.ofInt (n / 2) (Claims.held signed (n / 2) (int n b i)))) ∧
    (opCode x.op = 0x1B → gives False (fun w => ∀ i, i < 64 / n → lane n w i = BitVec.ofInt n (int (n / 2) a i))) ∧
    (opCode x.op = 0x1D → gives False (fun w => ∃ m, w = BitVec.ofInt 64 m ∧ (∃ i, i < 64 / n ∧ m = int n a i) ∧ ∀ i, i < 64 / n → int n a i ≤ m)) ∧
    (opCode x.op = 0x1E → gives False (fun w => w = BitVec.ofInt 64 ((List.range (64 / n)).map (int n a)).sum)) ∧
    (opCode x.op = 0x21 → gives False (fun w =>
      (∀ i, i < 32 / n → lane (2 * n) w i = BitVec.ofInt (2 * n) (int n a i * int n b i)) ∧ w.toNat < 2 ^ (2 * n * (32 / n))))

/-- R239, R248: the value of each float lane op: the exact result rounded once to the class's format, toward zero where the fuse entry's
accumulate field is 2 and to nearest otherwise. A signalling NaN among the operands is an event. -/
def Sys2Proof.Claims.FloatLanes : Prop :=
  ∀ (v : Cell) (x : OpCtx), fuseClass x.fuse = 8 ∨ fuseClass x.fuse = 9 ∨ fuseClass x.fuse = 10 →
    let n := if fuseClass x.fuse = 10 then 32 else 16
    let f := if fuseClass x.fuse = 8 then fmtBF16 else if fuseClass x.fuse = 9 then fmtFP16 else fmtFP32
    let rm : Rm := if fuseAccum x.fuse = 2 then .rz else .rne
    let lane := fun (w : Word) (i : Nat) => w.extractLsb' (n * i) n
    let p := fun (w : Word) (i : Nat) => f.decode (lane w i).toNat
    let a := p x.a.payload
    let b := p x.b.payload
    let gives := fun (r : Nat → Machine.Num) (snan : Nat → Prop) => ∃ w : Word, (v.execute x).cell = v ∧ (v.execute x).value = some { payload := w } ∧
      (v.execute x).sat = false ∧ ((v.execute x).snan = true ↔ ∃ i, i < 64 / n ∧ snan i) ∧
      ∀ i, i < 64 / n → lane w i = BitVec.ofNat n (f.encode rm (r i))
    let two := fun (i : Nat) => (a i).snan = true ∨ (b i).snan = true
    (opCode x.op = 0x28 → gives (fun i => Machine.Num.add rm (a i) (b i)) two) ∧
    (opCode x.op = 0x29 → gives (fun i => Machine.Num.add rm (a i) (b i).neg) two) ∧
    (opCode x.op = 0x2A → gives (fun i => (a i).mul (b i)) two) ∧
    (opCode x.op = 0x2B → gives (fun i => Machine.Num.add rm ((a i).mul (b i)) (p x.c i)) (fun i => two i ∨ (p x.c i).snan = true)) ∧
    (opCode x.op = 0x2C → gives (fun i => (a i).minimum (b i)) two) ∧ (opCode x.op = 0x2D → gives (fun i => (a i).maximum (b i)) two) ∧
    (opCode x.op = 0x2E → ∃ w : Word, (v.execute x).cell = v ∧ (v.execute x).value = some { payload := w } ∧
      ∀ i, i < 64 / n → lane w i = if (a i).lt (b i) then BitVec.allOnes n else 0)

/-- R241, R245, R247, R249: what the ops on a cell's files do: nop, pass and mov; mac and dot on integers, which add exact products to the
partials unless one has saturated; acc.clr, acc.emit, and acc.ld behind acc.st; pad.ld, pad.st and rot. -/
def Sys2Proof.Claims.CellFiles : Prop :=
  ∀ (v : Cell) (x : OpCtx),
    let o := v.execute x
    let e := v.entry x.reg
    let op := opCode x.op
    let cleared := fun (n : Nat) => (List.range 16).any (fun i => n == (e + i) % 256)
    (op = 0x00 → o.cell = v ∧ o.value = none ∧ o.forwards = false) ∧ (op = 0x01 → o.cell = v ∧ o.value = none ∧ o.forwards = true) ∧
    (op = 0x02 → o.cell = v ∧ o.value = some x.a) ∧
    (op = 0x20 ∨ op = 0x23 → o.value = none ∧ o.forwards = decide (opDst x.op = 3 ∨ opDst x.op = 4) ∧
      (opDst x.op = 0 ∨ opDst x.op = 3 → o.cell = v) ∧
      (opDst x.op ≠ 0 → opDst x.op ≠ 3 → fuseLegal x.fuse = true → x.fuse ≠ 0 → fuseClass x.fuse ≤ 1 →
        let wa := if fuseA x.fuse = 0 then 32 else 2 * fuseA x.fuse
        let wb := if fuseA x.fuse = 0 then 32 else 2 * fuseB x.fuse
        let int := fun (m : Nat) (w : Word) (i : Nat) => Claims.laneInt (fuseClass x.fuse == 0) (w.extractLsb' (m * i) m)
        let a := int wa x.a.payload
        let b := int wb x.b.payload
        let adds := fun (n : Nat) (y : Int) => (v.accAt n).stuck = false → -(2 ^ 79) ≤ (v.accAt n).toInt + y → (v.accAt n).toInt + y < 2 ^ 79 →
          (o.cell.accAt n).toInt = (v.accAt n).toInt + y
        (op = 0x20 → ∀ i j, i < 32 / wa → j < 32 / wb → adds (e + i * (32 / wb) + j) (a i * b j)) ∧
        (op = 0x23 → adds e ((List.range (min (32 / wa) (32 / wb))).map (fun i => a i * b i)).sum ∧
          ∀ n, n % 256 ≠ e % 256 → o.cell.accAt n = v.accAt n))) ∧
    (op = 0x24 → o.value = none ∧ ∀ n, n < 256 →
      (o.cell.accAt n = if cleared n then {} else v.accAt n) ∧
      (o.cell.bankAt n = if cleared n then 0 else v.bankAt n)) ∧
    (op = 0x25 → o.cell = v ∧
      (fuseClass x.fuse ≤ 1 ∨ fuseClass x.fuse = 11 → ∃ w : Word, o.value = some { payload := w } ∧ ∀ i, i < 2 →
        w.extractLsb' (32 * i) 32 = BitVec.ofInt 32 (Claims.held (fuseClass x.fuse != 1) 32 (v.accAt (e + i)).toInt)) ∧
      (2 ≤ fuseClass x.fuse → fuseClass x.fuse ≤ 10 → ∃ w : Word, o.value = some { payload := w } ∧ ∀ i, i < 2 →
        w.extractLsb' (32 * i) 32 = v.bankAt (e + i))) ∧
    (op = 0x27 → o.value = none ∧ o.cell.acc = v.acc ∧ o.cell.bank = v.bank ∧
      ∀ y : OpCtx, opCode y.op = 0x26 → y.reg = x.reg → ∀ u : Cell, u.w = v.w → u.base = v.base → u.pad = o.cell.pad →
        ((u.execute y).cell.accAt e).val = (v.accAt e).val ∧ ((u.execute y).cell.accAt e).tag = (v.accAt e).tag ∧
          (u.execute y).cell.bankAt e = v.bankAt e) ∧
    (op = 0x31 → o.cell = v ∧ o.value = some { payload := spGet 0 v.pad (v.w % 512) }) ∧
    (op = 0x32 → o.value = none ∧ ∀ n, n < 512 → spGet 0 o.cell.pad n = if n = v.w % 512 then x.a.payload else spGet 0 v.pad n) ∧
    (op = 0x33 → o.value = none ∧ o.cell = { v with base := (v.base + 1) % 32 })

/-- R223, R229, R230, R232: a running cell that reads no poison shifts its ports, executes its op, and places the value where dst says: nowhere,
in two bank entries, in the rotating register of the write index, in the out register, in both, in the pad word at W, or in a flag; then W
steps. A cell whose guard fails only shifts and steps. -/
def Sys2Proof.Claims.CellPlaces : Prop :=
  ∀ (g : Region) (img : Block) (isl : Nat) (p : CellPlan),
    let v0 := g.cell p.cell
    let v : Cell := { v0 with portA := g.srcWord p.srcA :: v0.portA.take 15, portB := g.srcWord p.srcB :: v0.portB.take 15 }
    let x := Region.opCtx v img.fuse p
    let u := (g.cellSlot img isl p).cell
    let d := opDst p.op
    (p.run = false → opCode p.op ≠ 0x22 → u = { v with w := (v.w + regStep p.reg) % 512 }) ∧
    (∀ y, p.run = true → (g.cellSlot img isl p).poison = false → (v.execute x).value = some y →
      u.w = (v.w + regStep p.reg) % 512 ∧ u.base = v.base ∧ u.acc = v.acc ∧
      (∀ n, spGet 0 u.rot n = if d = 2 ∧ n = (if regRot p.reg then (regWr p.reg + v.base) % 32 else regWr p.reg) then y.payload else spGet 0 v.rot n) ∧
      u.out = (if d = 3 ∨ d = 4 then y else v.out) ∧
      (∀ n, n < 512 → spGet 0 u.pad n = if d = 5 ∧ n = v.w % 512 then y.payload else spGet 0 v.pad n) ∧
      (∀ n, n < 256 → spGet 0 u.bank n =
        if (d = 1 ∨ d = 4) ∧ n = (v.entry p.reg + 1) % 256 then y.payload.extractLsb' 32 32
        else if (d = 1 ∨ d = 4) ∧ n = v.entry p.reg % 256 then y.payload.extractLsb' 0 32 else spGet 0 v.bank n) ∧
      (∀ n, n < 8 → u.flags.getLsbD n =
        if d = 6 ∧ n = regWr p.reg % 8 ∧ 1 ≤ n ∧ n ≤ 5 then decide (y.payload ≠ 0) else v.flags.getLsbD n))

/-- The parts of a cell that only its own op writes: everything but its links and its rotating base (R227, R229). -/
def Sys2Proof.Claims.ownParts (v : Cell) : Cell := { v with links := [], base := 0 }

/-- R219, R226, R230: a slot of an island that is neither a bubble nor stalls, whose cells read no poison and whose round's
outbound hold has room: every cell of the island executes on the state at the slot's start, the island's counter steps or
wraps at the end of its period, and no sequencer, partition or byte of memory changes but the partition's meter. -/
def Sys2Proof.Claims.IslandSlotRuns : Prop :=
  ∀ (s : State) (r isl : Nat) (bank : Bool) (img : Block) (i0 : Island), r < 192 →
    let g := s.reg r
    let b := g.bank bank
    let i := i0.sample (spGet 0 s.pkg.throttle (10 * (r / 48) + r % 8))
    let recs := img.cells.filter (fun c => c.island == isl)
    let ps := recs.map (g.plan bank img isl i)
    b.img = some img → b.islands[isl]? = some i0 → b.state = 2 → b.voidTo = none → b.stopped = false → i0.started = true →
    i0.complete = false → i0.fence = none → i.bubble = false → (recs.map (fun c => 16 * c.y + c.x)).Nodup →
    g.stalls bank img isl i ps = false → (g.realSlot bank img isl ps).poison = false → (g.realSlot bank img isl ps).full = false →
    ∃ t, exec (.islandSlot r bank isl) s = .next t ∧
      (∀ p ∈ ps, Claims.ownParts ((t.reg r).cell p.cell) = Claims.ownParts (g.cellSlot img isl p).cell) ∧
      (((t.reg r).bank bank).islands[isl]?.map Island.counter) = some (if i0.counter + 1 < img.period isl then i0.counter + 1 else 0) ∧
      (∀ q w, s.part? q = some w → ∃ u, t.part? q = some u ∧ u = { w with meter := u.meter }) ∧ t.sets = s.sets ∧
      (t.reg r).seq = g.seq ∧ (∀ x, x ≠ r → t.reg x = s.reg x) ∧ (∀ a, t.mem.read a = s.mem.read a)

/-- R231, R368, R369: an island that stalls, or whose iteration is a bubble, executes no cell: the cells keep everything that
ops write, no sequencer and no byte of memory changes, and a stalled island's counter stands still. -/
def Sys2Proof.Claims.IslandSlotWaits : Prop :=
  ∀ (s : State) (r isl : Nat) (bank : Bool) (img : Block) (i0 : Island), r < 192 →
    let g := s.reg r
    let b := g.bank bank
    let i := i0.sample (spGet 0 s.pkg.throttle (10 * (r / 48) + r % 8))
    let ps := (img.cells.filter (fun c => c.island == isl)).map (g.plan bank img isl i)
    b.img = some img → b.islands[isl]? = some i0 → b.state = 2 → b.voidTo = none → b.stopped = false → i0.started = true →
    i0.complete = false → i0.fence = none → i.bubble = true ∨ g.stalls bank img isl i ps = true →
    ∃ t, exec (.islandSlot r bank isl) s = .next t ∧ (∀ c, Claims.ownParts ((t.reg r).cell c) = Claims.ownParts (g.cell c)) ∧
      (∀ q w, s.part? q = some w → ∃ u, t.part? q = some u ∧ u = { w with meter := u.meter }) ∧ (t.reg r).seq = g.seq ∧ (∀ x, x ≠ r → t.reg x = s.reg x) ∧ (∀ a, t.mem.read a = s.mem.read a) ∧
      (i.bubble = false → ((t.reg r).bank bank).islands[isl]? = some i)

/-- R221, R269: an island of the latest block switches when nothing of the block before holds its cells: it is started at the
head of its rings, and each of its cells keeps its pad and the entries of its rotating registers, accumulators and running
bank that its block carries, and nothing else. -/
def Sys2Proof.Claims.IslandSwitches : Prop :=
  ∀ (s : State) (r isl : Nat) (img : Block) (i : Island), r < 192 →
    let g := s.reg r
    let b := g.bank g.cur
    let keys := (img.cells.filter (fun c => c.island == isl)).map (fun c => 16 * c.y + c.x)
    b.img = some img → b.islands[isl]? = some i → b.state = 2 → b.voidTo = none → b.stopped = false → i.started = false →
    g.mayswitch g.cur img isl = true →
    ∃ t, exec (.islandSwitch r isl) s = .next t ∧
      ((t.reg r).bank g.cur).islands[isl]? = some { started := true } ∧
      (∀ c ∈ keys,
        let v := g.cell c
        let u := (t.reg r).cell c
        let carried := fun (kind n : Nat) =>
          img.carries.any (fun y => y.cell == c && y.kind == kind && decide (y.first ≤ n) && decide (n < y.first + y.count))
        u.pad = v.pad ∧ u.portA = List.replicate 16 {} ∧ u.portB = List.replicate 16 {} ∧ u.links = List.replicate 4 {} ∧
        u.out = {} ∧ u.w = 0 ∧ u.z = 0 ∧ u.flags = 1 ∧ u.base = 0 ∧
        ∀ n, spFind u.rot n = (if carried 0 n then spFind v.rot n else none) ∧
          spFind u.acc n = (if carried 1 n then spFind v.acc n else none) ∧
          spFind u.bank n = (if carried 2 n then spFind v.bank n else none)) ∧
      (∀ c, c ∉ keys → (t.reg r).cell c = g.cell c) ∧ (t.reg r).seq = g.seq ∧ Claims.OnlyRegion s t r

/-- R252, R253, R254, R269, R360: an edge unit whose lane presents a marker consumes it. Otherwise it switches to a block's
record with its step counter, its quantisation buffer and counter reset and its fold registers kept; a step whose conditions
hold advances its counter by one, modulo the least common multiple of its rings' lengths; one whose conditions do not hold
changes nothing. -/
def Sys2Proof.Claims.EdgeSteps : Prop :=
  ∀ (s : State) (r y : Nat), r < 192 → y < 16 →
    let g := s.reg r
    (g.laneMarker y = true → ∃ t, exec (.edgeStep r y) s = .next t ∧
      (t.reg r).edge y = { g.edge y with lane := (g.edge y).lane.drop 1 } ∧ (t.reg r).seq = g.seq ∧ Claims.OnlyRegion s t r) ∧
    (∀ bank, g.laneMarker y = false → g.edgeNext y = some bank → ∃ t, exec (.edgeStep r y) s = .next t ∧
      (t.reg r).edge y = { g.edge y with bank := bank, stopped := false, s := 0, qc := 0, quant := [] } ∧
      (t.reg r).seq = g.seq ∧ Claims.OnlyRegion s t r) ∧
    (∀ img c, g.laneMarker y = false → g.edgeNext y = none → (g.edge y).stopped = false → (g.bank (g.edge y).bank).img = some img → img.edgeRec y = some c →
      (g.bank (g.edge y).bank).state = 2 → (g.bank (g.edge y).bank).voidTo = none → (g.bank (g.edge y).bank).stopped = false →
      (g.edgeTry (g.edge y).bank y img c = none → exec (.edgeStep r y) s = .next s) ∧
      (∀ d, g.edgeTry (g.edge y).bank y img c = some d → d.poison = false → d.refused = false → d.full = false →
        ∃ t, exec (.edgeStep r y) s = .next t ∧ t.reg r = d.region ∧
          ((t.reg r).edge y).s = ((g.edge y).s + 1) % Nat.lcm c.ops.length c.routes.length ∧
          (∀ x, x ≠ r → t.reg x = s.reg x) ∧ (∀ a, t.mem.read a = s.mem.read a)))

/-- R265: the values of exp2, log2, rcp and rsqrt, numbered 0 to 3, on NaNs, infinities, zeros and negative numbers, and log2 of a power of
two. -/
def Sys2Proof.Claims.FunctionSpecials : Prop :=
  ∀ rm ∈ [Rm.rne, .rz, .ru, .rd],
    (∀ k b, k < 4 → b < 2 ^ 32 → b / 2 ^ 23 % 256 = 255 → b % 2 ^ 23 ≠ 0 → edgeFunction k rm b = 0x7FC00000) ∧
    (List.range 4).map (fun k => edgeFunction k rm 0x7F800000) = [0x7F800000, 0x7F800000, 0, 0] ∧
    (List.range 4).map (fun k => edgeFunction k rm 0xFF800000) = [0, 0x7FC00000, 0x80000000, 0x7FC00000] ∧
    (List.range 4).map (fun k => edgeFunction k rm 0) = [0x3F800000, 0xFF800000, 0x7F800000, 0x7F800000] ∧
    (List.range 4).map (fun k => edgeFunction k rm 0x80000000) = [0x3F800000, 0xFF800000, 0xFF800000, 0xFF800000] ∧
    (∀ b, 0x80000000 < b → b < 0xFF800000 → edgeFunction 1 rm b = 0x7FC00000 ∧ edgeFunction 3 rm b = 0x7FC00000) ∧
    ∀ k, 1 ≤ k → k ≤ 254 → edgeFunction 1 rm (k * 2 ^ 23) = fmtFP32.encode rm (Machine.Num.ofInt ((k : Int) - 127))

/-- R261 to R267: what each edge op gives on data for its operands: the words it emits, its registers, and the operation or the value that it
holds for its round. The conversions with a float type, the fold.x of BF16 or fast lanes and the elements of quant.mx are not stated here. That pass
keeps its word's tag and marks, and that scale keeps the sign of a zero, is the model's choice (log 32). -/
def Sys2Proof.Claims.EdgeOps : Prop :=
  ∀ (e : Edge) (x : EdgeCtx),
    let o := edgeExec e x
    let op := opCode x.op
    let rm := rmOf (eRm x.op) 0
    let a := x.a.payload
    let b := x.b.payload
    let lane := fun (w : Word) (i : Nat) => w.extractLsb' (32 * i) 32
    let num := fun (w : Word) (i : Nat) => fmtFP32.decode (lane w i).toNat
    let round := fun (y : Machine.Num) => BitVec.ofNat 32 (fmtFP32.encode rm y)
    let value := fun (f : Nat → BitVec 32) => ∃ w : Word, o.words = [{ payload := w, mark := 3 }] ∧ ∀ i, i < 2 → lane w i = f i
    let restart := eArg x.op % 2 = 1
    let q := fun (i : Nat) => lane (spGet 0 e.q (eF x.op)) i
    let running := fun (f : Nat → BitVec 32) => value f ∧ (∀ i, i < 2 → lane (spGet 0 o.edge.q (eF x.op)) i = f i) ∧
      (∀ n, n ≠ eF x.op → spGet 0 o.edge.q n = spGet 0 e.q n) ∧ o.edge.f = e.f
    (op = 0x00 → o = { edge := e, lfsr := x.lfsr }) ∧ (op = 0x01 → o = { edge := e, lfsr := x.lfsr, words := [x.a] }) ∧
    (op = 0x02 → b.toNat % 256 = 255 → value (fun _ => 0x7FC00000) ∧ o.edge = e) ∧
    (op = 0x02 → b.toNat % 256 ≠ 255 →
      value (fun i => round (match num a i with | .fin g m k => .fin g m (k + ((b.toNat % 256 : Nat) - 127)) | y => y)) ∧ o.edge = e) ∧
    (op = 0x03 →
      let q0 := fun (i : Nat) => if restart then 0 else q i
      let once := round (Machine.Num.add rm (fmtFP32.decode (q0 0).toNat) (num a 0))
      running (fun i => if i = 0 then round (Machine.Num.add rm (fmtFP32.decode once.toNat) (num a 1)) else q0 1)) ∧
    (op = 0x06 → ∀ s t, s = eArg x.op → t = eTy x.op → 9 ≤ s → s ≤ 15 → 9 ≤ t → t ≤ 15 →
      let ws := typeWidth s
      let wt := typeWidth t
      let n := 64 / max ws wt
      let int := fun (i : Nat) => Claims.laneInt (typeSigned s) (a.extractLsb' (ws * i) ws)
      ∃ w : Word, o.words = [{ payload := w, mark := 3 }] ∧ w.toNat < 2 ^ (n * wt) ∧ o.edge = e ∧
        (∀ i, i < n → w.extractLsb' (wt * i) wt = BitVec.ofInt wt (Claims.held (typeSigned t) wt (int i))) ∧
        (o.sat = true ↔ ∃ i, i < n ∧ Claims.held (typeSigned t) wt (int i) ≠ int i)) ∧
    (op = 0x07 → e.qc ≤ 15 → 2 * e.qc ≤ e.quant.length →
      o.edge.qc = (if e.qc = 15 then 0 else e.qc + 1) ∧ (e.qc < 15 → o.words = []) ∧
      (∀ n, o.edge.quant.getD n 0 = if n = 2 * e.qc then lane a 0 else if n = 2 * e.qc + 1 then lane a 1 else e.quant.getD n 0) ∧
      (e.qc = 15 → o.words.map (fun w => (w.kind, w.mark)) =
        [(0, 1), (1, 0)] ++ List.replicate (if eTy x.op = 3 then 0 else 2) (0, 0) ++ [(0, 2)]) ∧
      (e.qc = 15 → (∃ n, n < 32 ∧ (fmtFP32.decode (o.edge.quant.getD n 0).toNat).isNan = true) →
        ∀ w ∈ o.words, w.payload = if w.kind = 1 then 0xFF else 0) ∧
      o.edge.f = e.f ∧ o.edge.q = e.q) ∧
    (0x08 ≤ op → op ≤ 0x0B → value (fun i => BitVec.ofNat 32 (edgeFunction (op - 8) rm (lane a i).toNat)) ∧ o.edge = e) ∧
    (op = 0x0C →
      running (fun i => BitVec.ofNat 32 (fmtFP32.encode .rne ((fmtFP32.decode (if restart then 0xFF800000 else (q i).toNat)).maximum (num a i))))) ∧
    (op = 0x0D → running (fun i => round (Machine.Num.add rm (fmtFP32.decode (if restart then 0 else (q i).toNat)) (num a i)))) ∧
    (0x0E ≤ op → op ≤ 0x11 →
      let z := if eTy x.op = 15 then 8 else 4
      ∃ h, o.rmw = some h ∧ o.words = [] ∧ o.edge = e ∧ h.op = op - 0x0E ∧ h.addr = x.k.toNat + (lane a 0).toNat * z ∧ h.z = z ∧
        h.val = BitVec.ofNat 64 (b.toNat % 2 ^ (8 * z)) ∧ h.signed = decide (eTy x.op ≠ 14)) ∧
    (op = 0x12 → value (fun i => BitVec.ofNat 32 (fmtFP32.encode .rne ((num a i).maximum (num x.k i)))) ∧ o.edge = e) ∧
    (op = 0x13 → value (fun i => round (Machine.Num.add rm ((num a i).mul (num b i)) (num x.k i))) ∧ o.edge = e) ∧
    (op = 0x14 → value (fun i => round ((num a i).mul (num b i))) ∧ o.edge = e) ∧
    (op = 0x15 → value (fun i => round (Machine.Num.add rm (num a i) (num b i))) ∧ o.edge = e) ∧
    (op = 0x16 → o.seqSlot = some (eArg x.op, a) ∧ o.words = [] ∧ o.edge = e)

/-- R89 to R91, R263: fold.x adds its FP32 lanes to a fold register exactly, or refuses a register of the other kind and leaves it; fold.rd gives
the register's value rounded once and clears it unless it is kept. -/
def Sys2Proof.Claims.FoldRegisters : Prop :=
  ∀ (e : Edge) (x : EdgeCtx),
    let o := edgeExec e x
    let f : FoldReg := spGet {} e.f (eF x.op)
    let u := fun (i : Nat) => foldUnits (fmtFP32.decode (x.a.payload.extractLsb' (32 * i) 32).toNat)
    (opCode x.op = 0x04 → o.words = [] ∧ (∀ n, n ≠ eF x.op → (spGet {} o.edge.f n : FoldReg) = spGet {} e.f n)) ∧
    (opCode x.op = 0x04 → eTy x.op = 0 → eArg x.op % 2 = 0 → f.kind ≠ .fast → -(2 ^ 319) ≤ f.sum + u 0 → f.sum + u 0 < 2 ^ 319 →
      -(2 ^ 319) ≤ f.sum + u 0 + u 1 → f.sum + u 0 + u 1 < 2 ^ 319 →
      o.refused = false ∧ (spGet {} o.edge.f (eF x.op) : FoldReg).sum = f.sum + u 0 + u 1 ∧ (spGet {} o.edge.f (eF x.op) : FoldReg).kind = .exact) ∧
    (opCode x.op = 0x04 → (eArg x.op % 2 = 0 ∧ f.kind = .fast) ∨ (eArg x.op % 2 = 1 ∧ f.kind = .exact) → o.refused = true ∧ o.edge = e) ∧
    (opCode x.op = 0x05 → eTy x.op ≤ 1 →
      o.words = [{ payload := BitVec.ofNat 64 ((if eTy x.op = 0 then fmtFP32 else fmtBF16).encode (rmOf (eRm x.op) 0) f.value), mark := 3 }] ∧
      (eArg x.op % 2 = 1 → o.edge = e) ∧ (eArg x.op % 2 = 0 → (spGet {} o.edge.f (eF x.op) : FoldReg) = {} ∧
        ∀ n, n ≠ eF x.op → (spGet {} o.edge.f n : FoldReg) = spGet {} e.f n))

/-- R254, R256, R260: a step on data leaves the edge unit what its op gives, and appends the words that it emits, with the tag of its route, to
the FIFOs that dst names; pass keeps its word's own tag. -/
def Sys2Proof.Claims.EdgeData : Prop :=
  ∀ (g : Region) (bank : Bool) (y : Nat) (img : Block) (c : EdgeRec) (a b : GWord), y < 16 →
    let e := g.edge y
    let op := ringAt c.ops e.s
    let route := ringAt c.routes e.s
    let d := g.edgeData bank y img c a b
    ∃ x : EdgeCtx, x.op = op ∧ x.a = a ∧ x.b = b ∧ x.k = (g.bank bank).consts.getD (eF op) 0 ∧
      (let o := edgeExec e x
       let u := d.region.edge y
       let tagged := o.words.map (fun (w : GWord) => if opCode op = 0x01 then w else { w with tag := BitVec.ofNat 8 (img.tagmap.getD (routeTag route) 0) })
       u.f = o.edge.f ∧ u.q = o.edge.q ∧ u.qc = o.edge.qc ∧ u.quant = o.edge.quant ∧ u.s = (e.s + 1) % Nat.lcm c.ops.length c.routes.length ∧
       u.out.map QWord.w = e.out.map QWord.w ++ (if opDst op = 2 ∨ opDst op = 3 then tagged else []) ∧
       d.refused = o.refused)

/-- R348, R349, R359: when the fence of a round passes, the round commits next, the following one computes, no island stands
at a fence any longer, and a checkpoint of the new round is kept; a sequencer and the streams are left as they are, and, where
no marker has come, the edge units and the holds. Where a marker has come the block stops there. -/
def Sys2Proof.Claims.FencePasses : Prop :=
  ∀ (s : State) (r : Nat) (bank : Bool) (img : Block), r < 192 →
    let g := s.reg r
    let b := g.bank bank
    b.img = some img → b.state = 2 ∨ b.state = 3 → b.voidTo = none → g.fencePasses bank img = true →
    ∃ t, exec (.roundFence r bank) s = .next t ∧
      (let u := (t.reg r).bank bank
       u.committing = some b.computing ∧ u.computing = b.computing + 1 ∧ (∀ i ∈ u.islands, i.fence = none) ∧
       u.checks.length = b.checks.length + 1 ∧ (u.checks.getLast?.map Checkpoint.rnd) = some (b.computing + 1) ∧
       u.stopped = (b.stopped || g.marker) ∧ (g.marker = false → u.holds = b.holds)) ∧
      (t.reg r).seq = g.seq ∧ (t.reg r).streams = g.streams ∧ (g.marker = false → (t.reg r).edges = g.edges) ∧
      Claims.OnlyRegion s t r

/-- R268, R351: when the islands of a block have completed and its edge units have taken their last steps, its last round
commits next; no cell, no edge unit and no FIFO changes. -/
def Sys2Proof.Claims.LastRoundComputed : Prop :=
  ∀ (s : State) (r : Nat) (bank : Bool) (img : Block), r < 192 →
    let g := s.reg r
    let b := g.bank bank
    b.img = some img → b.state = 2 ∨ b.state = 3 → b.voidTo = none → g.fencePasses bank img = false → g.lastComputed bank img = true →
    ∃ t, exec (.roundFence r bank) s = .next t ∧ ((t.reg r).bank bank).committing = some b.computing ∧
      ((t.reg r).bank bank).computing = b.computing + 1 ∧ ((t.reg r).bank bank).islands = b.islands ∧
      (t.reg r).cells = g.cells ∧ (t.reg r).edges = g.edges ∧ (t.reg r).retim = g.retim ∧ (t.reg r).seq = g.seq ∧
      Claims.OnlyRegion s t r

/-- R351: a committing round whose streams have settled, whose stores and bits have performed and whose channel indices are
written ends: one more round has committed, and with the last round the done token is sent. -/
def Sys2Proof.Claims.RoundCommits : Prop :=
  ∀ (s : State) (r k : Nat) (bank : Bool) (img : Block), r < 192 →
    let g := s.reg r
    let b := g.bank bank
    b.img = some img → b.committing = some k → (b.bound.all (g.streamSettled bank k)) = true →
    (b.hold k).stores = [] → (b.hold k).stored = [] → g.chanDue bank k b.bound = none →
    ∃ t, exec (.roundCommit r bank) s = .next t ∧
      ((t.reg r).bank bank).rounds = b.rounds + 1 ∧ ((t.reg r).bank bank).committing = none ∧
      (t.reg r).tokens = g.tokens ++ (if img.lastRound ≤ k then [img.done] else []) ∧ (∀ a, t.mem.read a = s.mem.read a)

/-- R353: when every cause that voided a round has met its condition, the block runs again from the voided round. -/
def Sys2Proof.Claims.RoundReplays : Prop :=
  ∀ (s : State) (r : Nat) (bank : Bool), r < 192 →
    let b := (s.reg r).bank bank
    b.voidTo ≠ none → (∀ w ∈ b.voids, s.waitOver r w = true) →
    ∃ t, exec (.roundReplay r bank) s = .next t ∧ (t.reg r).bank bank = { b with voidTo := none, voids := [] } ∧
      (t.reg r).bank (!bank) = (s.reg r).bank (!bank) ∧ (t.reg r).seq = (s.reg r).seq ∧ Claims.OnlyRegion s t r

/-- R268, R285: a drained bank returns to state 0 with no bindings, and its count of committed rounds is kept; the elements of
a memory word that a stream bound for output has not filled are discarded. -/
def Sys2Proof.Claims.BankDrains : Prop :=
  ∀ (s : State) (r : Nat) (bank : Bool) (img : Block), r < 192 →
    let b := (s.reg r).bank bank
    b.img = some img → b.state = 3 → b.voidTo = none → b.stopped = false → (s.reg r).drained bank img = true →
    ∃ t, exec (.bankDrain r bank) s = .next t ∧ (t.reg r).bank bank = { rounds := b.rounds } ∧
      (∀ e ∈ b.bound, kindIn e.kind = false → ((t.reg r).stream e.stream).part = []) ∧
      (t.reg r).bank (!bank) = (s.reg r).bank (!bank) ∧ (t.reg r).seq = (s.reg r).seq ∧ Claims.OnlyRegion s t r

/-! ## Replays -/

/-- What R55 accepts: the partition counts one more replay, and holds it behind those it held, not begun. -/
def Sys2Proof.Claims.Accepted (s t : State) (p : Nat) (src : Source) (prio graph frame : Nat) : Prop :=
  ∃ u w y, s.part? p = some u ∧ t.part? p = some w ∧ w.counter = u.counter + 1 ∧ w.replays = u.replays ++ [y] ∧
    y.num = u.counter ∧ y.src = src ∧ y.prio = prio ∧ y.graph = graph ∧ y.frame = frame ∧ y.begun = false ∧ y.aborting = none ∧
    w.regions = u.regions ∧ w.state = u.state ∧ w.windows = u.windows

/-- R58, R59: an aligned launch whose graph object can be read and whose frame can be written, onto a device queue with room:
the frame's state and number are written, the replay is accepted, and g[d] is its number. -/
def Sys2Proof.Claims.LaunchAccepts : Prop :=
  ∀ (s s1 s2 : State) (d a b : BitVec 5) (prio : BitVec 2) (nw : BitVec 1) (k : BitVec 3) (immG immF : BitVec 32) (v : Part) (g f : Nat),
    let w := s.seqWho s.cur
    s.seq.kr k = true → s.held s.cur = false → Claims.Sum (s.seq.gr a) immG.toInt g → Claims.Sum (s.seq.gr b) immF.toInt f →
    g % 256 = 0 → f % 64 = 0 →
    s.launchReach w g f = (s1, .ok ()) → s1.part? w.part = some v → v.deviceFull prio.toNat = false →
    s1.writeAccepted w f v.counter = (s2, .ok ()) →
    ∃ t, exec (.launch d a b prio nw k immG immF) s = .next t ∧
      t.seq = Claims.standsAt (s.seq.gw d (BitVec.ofNat 64 v.counter)) (s.seq.pc + 12) ∧
      Claims.Accepted s2 t w.part (.device prio.toNat) prio.toNat g f ∧ t.mem = s2.mem ∧ (∀ r, r ≠ s.cur → t.reg r = s.reg r)

/-- R58, R59: a graph address that is no multiple of 256 or a frame address that is no multiple of 64 is MISALIGNED, with the address modulo 2^64 in
FVA; a full device queue is LAUNCH_FULL with .nw, and without it the instruction waits. That FINFO is the lead word is the model's choice (log 21). -/
def Sys2Proof.Claims.LaunchTraps : Prop :=
  ∀ (s : State) (d a b : BitVec 5) (prio : BitVec 2) (nw : BitVec 1) (k : BitVec 3) (immG immF : BitVec 32),
    let g := s.seq.gr a + immG.signExtend 64
    let f := s.seq.gr b + immF.signExtend 64
    let i := Instr.launch d a b prio nw k immG immF
    s.seq.kr k = true → s.held s.cur = false → Claims.canTrap s.seq →
    (g.toNat % 256 ≠ 0 → Claims.RunsTo i s (Claims.entered s.seq 0x020 s.seq.pc s.seq.pc g (Claims.leadWord i))) ∧
    (g.toNat % 256 = 0 → f.toNat % 64 ≠ 0 → Claims.RunsTo i s (Claims.entered s.seq 0x020 s.seq.pc s.seq.pc f (Claims.leadWord i))) ∧
    (∀ s1 v x y, Claims.Sum (s.seq.gr a) immG.toInt x → Claims.Sum (s.seq.gr b) immF.toInt y → x % 256 = 0 → y % 64 = 0 →
      s.launchReach (s.seqWho s.cur) x y = (s1, .ok ()) →
      s1.part? (s.seqWho s.cur).part = some v → v.deviceFull prio.toNat = true →
      ∃ t, exec i s = .next t ∧ (∀ x, t.mem.read x = s.mem.read x) ∧
        t.seq = (if nw = 1 then Claims.entered s.seq 0x163 s.seq.pc s.seq.pc 0 (Claims.leadWord i)
          else { s.seq with run := .waiting, waitFrom := s.seq.waitFrom.or (some s.tick) }))

/-- R55, R56, R57: a replay that is first of its queue begins, when its graph object has been read and found well formed and the
frame written: it holds the die graphs of the object, and the memory is that of the writes. -/
def Sys2Proof.Claims.ReplayBegins : Prop :=
  ∀ (s s1 s2 : State) (p n : Nat) (v : Part) (y z : Replay) (snap : List Byte), p < 48 → s.part? p = some v → v.state = .ready →
    v.suspending = none → v.replays.find? (fun x => x.num == n) = some y → v.mayBegin y = true →
    (∀ x ∈ v.replays, x.begun = true → x.frame ≠ y.frame) →
    s.readGraph p v y = (s1, .ok (z, snap)) → s1.writeBegin p z snap = (s2, .ok ()) →
    z.begun = true ∧ z.num = y.num ∧ z.graph = y.graph ∧ z.frame = y.frame ∧ z.prio = y.prio ∧
    ∃ t u w, exec (.replayBegin p n) s = .next t ∧ t.mem = s2.mem ∧ s2.part? p = some u ∧ t.part? p = some w ∧
      w.replays = u.replays.map (fun x => if x.num = n then z else x) ∧ (∀ r, t.reg r = s.reg r)

/-- R56, R391: a replay whose stages have all completed ends, unless its partition stands still: once tend, the cause field 0
and state 2 are in its frame, its partition holds it no longer. Where the write of tend is held the replay stays, and keeps the
TICK of its end. That such a write counts for the tsusp of a suspension is the model's choice (log 99). -/
def Sys2Proof.Claims.ReplayEnds : Prop :=
  ∀ (s : State) (p n : Nat) (v : Part) (y : Replay), p < 48 → s.part? p = some v → v.still = false →
    v.replays.find? (fun x => x.num == n) = some y → y.aborting = none → y.begun = true → y.dgs ≠ [] →
    (∀ d ∈ y.dgs, d.place = .finished) →
    let w : Who := { part := p, region := none, unit := 0xFC }
    let tend := y.tend.getD s.tick
    let s0 := s.modReplay p n (fun x => { x with tend := some tend })
    (∀ s1 s2 s3, s0.writeNum w (y.frame + 0x18) 8 tend = (s1, .ok ()) → s1.writeNum w (y.frame + 4) 4 0 = (s2, .ok ()) →
      s2.writeNum w y.frame 4 2 = (s3, .ok ()) →
      ∃ t u z, exec (.replayComplete p n) s = .next t ∧ t.mem = s3.mem ∧ s3.part? p = some u ∧ t.part? p = some z ∧
        z.replays = u.replays.filter (fun x => x.num != n) ∧ (u.suspending ≠ none → z.tsusp = s.tick) ∧ (∀ r, t.reg r = s.reg r)) ∧
    (∀ s1, s0.writeNum w (y.frame + 0x18) 8 tend = (s1, .held) → ∃ t u z, exec (.replayComplete p n) s = .next t ∧ t.mem = s1.mem ∧
      s1.part? p = some u ∧ t.part? p = some z ∧ z = (if u.suspending = none then u else { u with tsusp := s.tick }) ∧
      (∃ x ∈ z.replays, x.num = n ∧ x.tend = some tend) ∧ (∀ r, t.reg r = s.reg r))

/-! ## Host queues -/

/-- The 64-byte line of a queue's header lies at `base`, through one of the queue's translations, and can be written. -/
def Sys2Proof.Claims.HeaderLies (s : State) (p : Nat) (h : HQueue) (base : Nat) : Prop :=
  ∃ x v, s.part? p = some v ∧ (∀ o, o < 64 → findXlate h.extents p (h.va + o) = some x) ∧ base = x.pa + (h.va - x.va) ∧
    x.write = true ∧ x.write2 = true ∧ x.rep = false ∧ s.pkg.replicas = [] ∧ inWindow v h.va 64 = false ∧
    (∀ o, o < 64 → s.faultAt { part := p, region := none, unit := 0xFD } (h.va + o) = none) ∧
    (∀ o n, o + n ≤ 64 → s.physFault (base + o) n .write = none)

/-- Queue `q` of partition `p` may parse, has no write to its header outstanding and stands before a packet, whose bytes the
command processor reads. -/
def Sys2Proof.Claims.AtPacket (s s1 : State) (p q : Nat) (v : Part) (h : HQueue) (bs : List Byte) (base : Nat) : Prop :=
  p < 48 ∧ q < 16 ∧ s.part? p = some v ∧ spFind v.queues q = some h ∧ v.state = .ready ∧ v.suspending = none ∧ h.owed = [] ∧
    h.stopped = false ∧ h.wait = .none ∧ h.cons < h.prod ∧ s.queueRead p h (h.va + 0x40 + 64 * (h.cons % (2 ^ h.log2 / 64))) 64 = (s1, .ok bs) ∧
    packetOk bs = true ∧ Claims.HeaderLies s p h base

/-- A packet has been parsed: the queue's own cons and the header's cons have moved by one, and no other byte of memory differs
from `m`. -/
def Sys2Proof.Claims.Parsed (m : Memory) (t : State) (p q : Nat) (h : HQueue) (base : Nat) : Prop :=
  t.queue? p q = some { h with cons := h.cons + 1 } ∧
  (∀ i, i < 8 → t.mem.read (base + 8 + i) = BitVec.ofNat 8 ((h.cons + 1) / 256 ^ i)) ∧
  (∀ x, ¬(base + 8 ≤ x ∧ x < base + 16) → t.mem.read x = m.read x)

/-- A queue has stopped at packet `idx` with a cause: state 1, the cause, fidx and cons in the header, zeros in the fields that
the device writes as zero, and no other byte of memory differs from `m`. -/
def Sys2Proof.Claims.StoppedAt (m : Memory) (t : State) (p q : Nat) (h : HQueue) (base idx : Nat) (c : BitVec 9) : Prop :=
  (∃ g, t.queue? p q = some g ∧ g.stopped = true ∧ g.wait = .none ∧ g.cons = h.cons ∧ g.owed = []) ∧
  (∀ i, i < 4 → t.mem.read (base + 0x14 + i) = BitVec.ofNat 8 (1 / 256 ^ i) ∧
    t.mem.read (base + 0x18 + i) = BitVec.ofNat 8 (c.toNat / 256 ^ i) ∧ t.mem.read (base + 0x1C + i) = 0) ∧
  (∀ i, i < 8 → t.mem.read (base + 0x28 + i) = BitVec.ofNat 8 (h.cons / 256 ^ i) ∧
    t.mem.read (base + 0x30 + i) = BitVec.ofNat 8 (idx / 256 ^ i) ∧ t.mem.read (base + 0x38 + i) = 0) ∧
  (∀ x, ¬(base + 0x14 ≤ x ∧ x < base + 0x20) → ¬(base + 0x28 ≤ x ∧ x < base + 0x40) → t.mem.read x = m.read x)

/-- R130: the read of a host queue's header takes the new prod when it is no lower than the last, no lower than cons, at most
the queue's slots ahead of cons, and log2size is as registered; otherwise the queue stops with QUEUE_CORRUPT. -/
def Sys2Proof.Claims.HeaderRead : Prop :=
  ∀ (s s1 : State) (p q base : Nat) (v : Part) (h : HQueue) (bs : List Byte), p < 48 → q < 16 → s.part? p = some v →
    spFind v.queues q = some h → v.state ≠ .resetting → h.stopped = false → h.owed = [] →
    s.queueRead p h h.va 64 = (s1, .ok bs) → Claims.HeaderLies s p h base →
    let prod := ofBytes (bs.take 8)
    let good := h.prod ≤ prod ∧ h.cons ≤ prod ∧ prod - h.cons ≤ 2 ^ h.log2 / 64 ∧ ofBytes ((bs.drop 0x10).take 4) = h.log2
    ∃ t, exec (.headerLineChange (.host p q)) s = .next t ∧ (∀ r, t.reg r = s.reg r) ∧
      (good → t.queue? p q = some { h with prod := prod } ∧ ∀ x, t.mem.read x = s.mem.read x) ∧
      (¬good → Claims.StoppedAt s.mem t p q h base h.cons 0x160)

/-- R129, R130, R135, R175: the same for the CFW queue, whose header lies at a host physical address that the host does not refuse; as it stops,
S2.UPDATE commands that have not begun leave the invalidation sequencers. That the header is read whatever the host refuses is the model's choice
(log 64). -/
def Sys2Proof.Claims.CfwHeaderRead : Prop :=
  ∀ (s : State) (c : CfwQueue), s.pkg.cfw = some c → c.stopped = false → c.pa + 64 ≤ 2 ^ 46 → s.pkg.denied = [] →
    let prod := Claims.number s.mem (0x080000000000 + c.pa) 8
    let good := c.prod ≤ prod ∧ c.cons ≤ prod ∧ prod - c.cons ≤ 2 ^ c.log2 / 64 ∧ Claims.number s.mem (0x080000000000 + c.pa + 0x10) 4 = c.log2
    let at' := fun (t : State) (off n : Nat) => Claims.number t.mem (0x080000000000 + c.pa + off) n
    ∃ t, exec (.headerLineChange .cfw) s = .next t ∧ (∀ r, t.reg r = s.reg r) ∧
      (good → t.pkg = { s.pkg with cfw := some { c with prod := prod } } ∧ t.mem = s.mem ∧ t.parts = s.parts) ∧
      (¬good → t.pkg.cfw = some { c with stopped := true } ∧ at' t 0x18 4 = 0x160 ∧ at' t 0x14 4 = 1 ∧ at' t 0x1C 4 = 0 ∧
        at' t 0x28 8 = c.cons % 2 ^ 64 ∧ at' t 0x30 8 = c.cons % 2 ^ 64 ∧ at' t 0x38 8 = 0 ∧
        (∀ p w, t.part? p = some w → InvOp.update ∉ w.invq) ∧
        ((∀ e ∈ s.parts, InvOp.update ∉ e.2.invq ∧ e.2.forming = none) →
          t.pkg = { s.pkg with cfw := some { c with stopped := true } } ∧ t.parts = s.parts))

/-- R129, R132, R134: NOP, HCOPY and a SIGNAL that waits for no replays. A NOP is parsed. An HCOPY enters the copy engine: without wait it
is then parsed, with wait its queue stands at it. -/
def Sys2Proof.Claims.PacketsParsed : Prop :=
  ∀ (s s1 : State) (p q base : Nat) (v : Part) (h : HQueue) (bs : List Byte), Claims.AtPacket s s1 p q v h bs base →
    let n8 := fun (o : Nat) => ofBytes ((bs.drop o).take 8)
    let ty := (bs.getD 0 0).toNat
    let flags := (bs.getD 1 0).toNat
    (ty = 0 → ∃ t, exec (.nopPacket p q) s = .next t ∧ Claims.Parsed s.mem t p q h base ∧ (∀ r, t.reg r = s.reg r)) ∧
    (ty = 5 → ∃ t u j, exec (.hcopy p q) s = .next t ∧ t.part? p = some u ∧ u.jobs = v.jobs ++ [j] ∧
      j.src = n8 8 ∧ j.dst = n8 0x10 ∧ j.len = n8 0x18 ∧ j.ctr = n8 0x20 ∧ j.idx = h.cons ∧ j.queue = q ∧ j.done = [] ∧
      (flags = 0 → Claims.Parsed s.mem t p q h base) ∧
      (flags = 1 → t.queue? p q = some { h with wait := .hcopy h.cons } ∧ ∀ x, t.mem.read x = s.mem.read x)) ∧
    (ty = 6 → flags / 2 % 2 = 1 →
      let vec := if 4 ≤ flags then some (ofBytes ((bs.drop 0x18).take 2)) else none
      let before := (v.replays.filter (fun y => y.src == .host q)).map Replay.num
      ∃ t, exec (.signal p q) s = .next t ∧
        t.queue? p q = some { h with wait := .signal h.cons (n8 8) (n8 0x10) (decide (flags % 2 = 1)) vec before } ∧
        ∀ x, t.mem.read x = s.mem.read x)

/-- R132: a packet that does not meet R132 stops its queue with PACKET_MALFORMED at that packet, parsed by nobody. -/
def Sys2Proof.Claims.MalformedStops : Prop :=
  ∀ (s s1 : State) (p q base : Nat) (v : Part) (h : HQueue) (bs : List Byte), p < 48 → q < 16 → s.part? p = some v →
    spFind v.queues q = some h → v.state = .ready → v.suspending = none → h.owed = [] → h.stopped = false → h.wait = .none →
    h.cons < h.prod → s.queueRead p h (h.va + 0x40 + 64 * (h.cons % (2 ^ h.log2 / 64))) 64 = (s1, .ok bs) → packetOk bs = false →
    Claims.HeaderLies s p h base →
    ∃ t, exec (.packetMalformed p q) s = .next t ∧ Claims.StoppedAt s.mem t p q h base h.cons 0x166 ∧ (∀ r, t.reg r = s.reg r)

/-- R55, R56, R132: a LAUNCH whose frame can be written is accepted at its queue's priority, and then parsed. -/
def Sys2Proof.Claims.LaunchParsed : Prop :=
  ∀ (s s1 s2 : State) (p q base : Nat) (v : Part) (h : HQueue) (bs : List Byte), Claims.AtPacket s s1 p q v h bs base →
    bs.getD 0 0 = 1 → Claims.HeaderLies s2 p h base →
    s1.writeAccepted { part := p, region := none, unit := 0xFD } (ofBytes ((bs.drop 0x10).take 8)) v.counter = (s2, .ok ()) →
    ∃ t, exec (.launchPacket p q) s = .next t ∧ Claims.Parsed s2.mem t p q h base ∧ (∀ r, t.reg r = s.reg r) ∧
      Claims.Accepted s2 t p (.host q) h.prio (ofBytes ((bs.drop 8).take 8)) (ofBytes ((bs.drop 0x10).take 8))

/-- R133: a GATE whose table can be read and is well formed makes its queue wait from that instant, with the table as read. -/
def Sys2Proof.Claims.GateWaits : Prop :=
  ∀ (s s1 s2 : State) (p q base : Nat) (v : Part) (h : HQueue) (bs tb : List Byte), Claims.AtPacket s s1 p q v h bs base →
    bs.getD 0 0 = 2 →
    let n := (bs.getD 0x10 0).toNat
    s1.readLong { part := p, region := none, unit := 0xFD } 16 (ofBytes ((bs.drop 8).take 8)) (24 * n) = (s2, .ok tb) →
    (∀ i, i < n → gateEntryOk ((tb.drop (24 * i)).take 24) = true) →
    ∃ t es, exec (.gate p q) s = .next t ∧
      t.queue? p q = some { h with wait := .gate h.cons es (ofBytes ((bs.drop 0x14).take 4)) s.tick } ∧
      es = (List.range n).map (fun i => (ofBytes ((tb.drop (24 * i)).take 8), ofBytes ((tb.drop (24 * i + 8)).take 8), (tb.getD (24 * i + 0x10) 0).toNat)) ∧
      (∀ x, t.mem.read x = s.mem.read x)

/-- R133: before the timeout of a waiting gate an evaluation that finds every condition true passes it: gatedone holds the gate's index
plus one and the gate is parsed. One that does not leaves the queue waiting, and one whose read of a counter faults stops it. A gate whose
timeout has elapsed with no passing evaluation stops its queue with GATE_TIMEOUT, at an evaluation as at the timeout's own step. -/
def Sys2Proof.Claims.GateEnds : Prop :=
  ∀ (s : State) (p q base idx timeout since : Nat) (es : List (Nat × Nat × Nat)) (v : Part) (h : HQueue),
    p < 48 → q < 16 → s.part? p = some v → spFind v.queues q = some h → v.state = .ready → v.suspending = none → h.owed = [] →
    h.stopped = false → h.wait = .gate idx es timeout since → h.cons = idx → h.gatedone ≠ idx + 1 → Claims.HeaderLies s p h base →
    let elapsed := timeout ≠ 0 ∧ 1000 * timeout ≤ s.tick - since
    (∀ s1 ok, ¬elapsed → s.gateTrue p es = (s1, .ok ok) → ∃ t, exec (.gateEvaluation p q) s = .next t ∧ (∀ r, t.reg r = s.reg r) ∧
      (ok = true → t.queue? p q = some { h with cons := idx + 1, gatedone := idx + 1, wait := .none } ∧
        (∀ i, i < 8 → t.mem.read (base + 0x20 + i) = BitVec.ofNat 8 ((idx + 1) / 256 ^ i) ∧
          t.mem.read (base + 8 + i) = BitVec.ofNat 8 ((idx + 1) / 256 ^ i)) ∧
        (∀ x, ¬(base + 8 ≤ x ∧ x < base + 16) → ¬(base + 0x20 ≤ x ∧ x < base + 0x28) → t.mem.read x = s.mem.read x)) ∧
      (ok = false → t.queue? p q = some h ∧ ∀ x, t.mem.read x = s.mem.read x)) ∧
    (∀ s1 c a, ¬elapsed → s.gateTrue p es = (s1, .fault c a) → Claims.HeaderLies s1 p h base →
      ∃ t, exec (.gateEvaluation p q) s = .next t ∧ Claims.StoppedAt s1.mem t p q h base idx c) ∧
    (elapsed → ∀ i ∈ [Instr.gateEvaluation p q, .gateTimeout p q],
      ∃ t, exec i s = .next t ∧ Claims.StoppedAt s.mem t p q h base idx 0x161 ∧ (∀ r, t.reg r = s.reg r))

/-- INVAL answers a next state in which no translation of a range of VAs, and no instruction-cache line of it, is cached for the
partition, every sequencer is as it was, and the queue stands at a packet. -/
def Sys2Proof.Claims.Invalidated (s : State) (p q lo hi cons : Nat) : Prop :=
  ∃ t g, exec (.inval p q) s = .next t ∧ (∀ r, ∀ x ∈ (t.reg r).tlb, x.part = p → x.va < hi → x.va + x.size ≤ lo) ∧
    (∀ r, ∀ l ∈ (t.reg r).icache, s.owner r = some p → l.va < hi → l.va + 64 ≤ lo) ∧
    (∀ r, (t.reg r).seq = (s.reg r).seq) ∧ t.queue? p q = some g ∧ g.cons = cons

/-- R132, R174, R175: a PATCH, inline or from memory, whose bytes its block can take writes them and is parsed; one of which some page is held writes
nothing (R57); an INVAL with a free invalidation sequencer drops the cached translations of its range, of every region, and is parsed; one that finds
other operations there takes its place behind them, and its queue waits. Which fields of the graph object a PATCH is checked against (log 54) and
where a waiting INVAL stands (log 67) are the model's choice. -/
def Sys2Proof.Claims.PatchInval : Prop :=
  ∀ (s s1 : State) (p q base : Nat) (v : Part) (h : HQueue) (bs : List Byte), Claims.AtPacket s s1 p q v h bs base →
    let w : Who := { part := p, region := none, unit := 0xFD }
    let n4 := fun (o : Nat) => ofBytes ((bs.drop o).take 4)
    (∀ s2 s3 s4 g d, bs.getD 0 0 = 3 → s1.readVA w (ofBytes ((bs.drop 8).take 8)) 64 = (s2, .ok g) →
      n4 0x10 + n4 0x14 ≤ ofBytes ((g.drop 0x18).take 4) →
      (if bs.getD 1 0 = 1 then s2.readLong w 1026 (ofBytes ((bs.drop 0x18).take 8)) (n4 0x14)
        else (s2, .ok ((bs.drop 0x18).take (n4 0x14)))) = (s3, .ok d) →
      let at' := ofBytes ((g.drop 0x10).take 8) + n4 0x10
      (s3.writeWhole w at' d = (s4, .ok ()) → Claims.HeaderLies s4 p h base →
        ∃ t, exec (.patch p q) s = .next t ∧ Claims.Parsed s4.mem t p q h base ∧ (∀ r, t.reg r = s.reg r)) ∧
      (s3.canWrite w (d.length / 4096 + 2) at' d.length = (s4, .held) → ∃ t, exec (.patch p q) s = .next t ∧ t.mem = s4.mem ∧
        t.queue? p q = s4.queue? p q ∧ (∀ r, t.reg r = s4.reg r))) ∧
    (bs.getD 0 0 = 4 →
      let lo := if n4 0x10 = 0 then 0 else ofBytes ((bs.drop 8).take 8)
      let hi := if n4 0x10 = 0 then 2 ^ 48 else lo + 4096 * n4 0x10
      (v.invq = [] → Claims.Invalidated s p q lo hi (h.cons + 1)) ∧
      (v.invq ≠ [] → ∃ t u, exec (.inval p q) s = .next t ∧ t.part? p = some u ∧ InvOp.inval q lo hi ∈ u.invq ∧
        t.queue? p q = some { h with wait := .inval h.cons } ∧ (∀ r, t.reg r = s.reg r) ∧ ∀ x, t.mem.read x = s.mem.read x))

/-- R174, R175: an INVAL whose turn has come does the same, and is parsed. -/
def Sys2Proof.Claims.InvalTurn : Prop :=
  ∀ (s : State) (p q idx lo hi : Nat) (v : Part) (h : HQueue) (l : List InvOp), p < 48 → q < 16 → s.part? p = some v →
    spFind v.queues q = some h → v.state = .ready → v.suspending = none → h.stopped = false → h.wait = .inval idx → v.invq = .inval q lo hi :: l →
    Claims.Invalidated s p q lo hi (h.cons + 1)

/-- R134: a SIGNAL whose turn has come writes its value, or adds it, to its counter, raises its interrupt and is parsed: at its
parsing without after, and when the replays it waits for have ended with it. -/
def Sys2Proof.Claims.SignalPerformed : Prop :=
  ∀ (s s1 s2 : State) (p q base : Nat) (v : Part) (h : HQueue) (ctr val : Nat) (vec : Option Nat) (add : Bool),
    let sent := fun (i : Instr) => Claims.HeaderLies s2 p h base → s1.updateCounter p ctr val add = (s2, .ok ()) →
      ∃ t, exec i s = .next t ∧ Claims.Parsed s2.mem t p q { h with wait := .none } base ∧
        t.pkg.out = s.pkg.out ++ (match vec with | some n => [.interrupt n] | none => []) ∧ (∀ r, t.reg r = s.reg r)
    (∀ e ∈ s.parts, ∀ j ∈ e.2.jobs, j.wait = true ∨ j.ctr = 0) →
    (∀ bs, Claims.AtPacket s s1 p q v h bs base → bs.getD 0 0 = 6 → (bs.getD 1 0).toNat / 2 % 2 = 0 →
      ctr = ofBytes ((bs.drop 8).take 8) → val = ofBytes ((bs.drop 0x10).take 8) → add = decide ((bs.getD 1 0).toNat % 2 = 1) →
      vec = (if 4 ≤ (bs.getD 1 0).toNat then some (ofBytes ((bs.drop 0x18).take 2)) else none) → sent (.signal p q)) ∧
    (∀ before, p < 48 → q < 16 → s1 = s → s.part? p = some v → spFind v.queues q = some h → v.state = .ready → v.suspending = none →
      h.owed = [] → h.stopped = false → h.wait = .signal h.cons ctr val add vec before → (∀ y ∈ v.replays, y.num ∉ before) →
      sent (.signalAfterReplays p q))

/-- R134: one sector of the queue's oldest HCOPY moves to its destination; when every sector has, the copy leaves the engine,
and a packet that waited for it is parsed. Number 16 stands for the copies whose queue has been unregistered (R139). -/
def Sys2Proof.Claims.HcopyMoves : Prop :=
  ∀ (s : State) (p q k : Nat) (v : Part) (j : HJob), p < 48 → q < 17 → s.part? p = some v → v.state = .ready →
    v.suspending = none → v.jobs.find? (fun j => j.queue == q) = some j → j.fault = none →
    (∀ s1 s2 bs, k < j.sectors → k ∉ j.done →
      s.readVA { part := p, region := none, unit := 0xFD } (j.src + (j.lo k - j.dst)) (j.hi k - j.lo k) = (s1, .ok bs) →
      s1.writeVA { part := p, region := none, unit := 0xFD } (j.lo k) bs = (s2, .ok ()) →
      ∃ t u w, exec (.hcopyCompletion p q k) s = .next t ∧ t.mem = s2.mem ∧ s2.part? p = some u ∧ t.part? p = some w ∧
        w.jobs = u.jobs.map (fun x => if x.num = j.num then { x with done := natInsert x.done k, fault := none } else x) ∧
        (∀ r, t.reg r = s.reg r)) ∧
    (∀ s2, j.sectors ≤ k → j.done.length = j.sectors →
      (if j.ctr = 0 then (s, .ok ()) else s.updateCounter p j.ctr 1 true) = (s2, .ok ()) →
      (j.ctr = 0 ∨ s.updatesDone (if j.wait then s.pkg.msgCount else j.num) = true) →
      ∃ t w, exec (.hcopyCompletion p q k) s = .next t ∧ t.part? p = some w ∧ (∀ r, t.reg r = s.reg r) ∧
        (j.wait = false → t.mem = s2.mem ∧ w.jobs = v.jobs.filter (fun x => x.num != j.num)) ∧
        (∀ h base, j.wait = true → spFind v.queues q = some h → h.stopped = false → h.owed = [] → Claims.HeaderLies s2 p h base →
          Claims.Parsed s2.mem t p q { h with wait := .none } base ∧ w.jobs = v.jobs.filter (fun x => x.num != j.num)))

/-! ## The scheduler -/

/-- R46, R47: a region that takes a lane of a stage starts at the stage's entry with g1 the frame and g2 the frame's parameter
block, every other register and predicate and every control register that it can write zero, its landing slots empty, its tags, streams and
banks clear, and its pads as they were. -/
def Sys2Proof.Claims.PlacedRegion : Prop :=
  ∀ (g : Region) (pl : Placement) (entry frame : Nat) (route : Sparse Nat),
    let u := g.placed pl entry frame route
    u.place = some pl ∧ u.seq.pc = BitVec.ofNat 64 entry ∧ u.seq.run = .boundary ∧ u.seq.status = 0 ∧ u.seq.tvec = 0 ∧ u.seq.pending = [] ∧
    u.seq.epc = 0 ∧ u.seq.cause = 0 ∧ u.seq.fva = 0 ∧ u.seq.iva = 0 ∧ u.seq.finfo = 0 ∧ (∀ i (h : i < 16), u.seq.scr[i] = 0) ∧
    (∀ a, u.seq.gr a = if a = 1 then BitVec.ofNat 64 frame else if a = 2 then BitVec.ofNat 64 (frame + 0x40) else 0) ∧
    (∀ k, u.seq.kr k = (k == 0)) ∧ (∀ n, u.seq.slot n = .empty) ∧ u.tags = [] ∧ u.streams = [] ∧ u.copies = [] ∧ u.icache = [] ∧
    u.bankA = {} ∧ u.bankB = {} ∧ (∀ c, (u.cell c).pad = (g.cell c).pad ∧ (u.cell c).acc = [] ∧ (u.cell c).rot = [])

/-- R158, R159: at a gang tick the slice passes to the next member after its owner that has a saved or a runnable die graph, and stays where it is if
no other has one. Between two gang ticks a GANG_TICK is the scheduler's decision alone, which is the model's choice (log 55). -/
def Sys2Proof.Claims.GangTickOwner : Prop :=
  ∀ (s : State) (k : Nat) (t : RSet), k < 48 → spFind s.sets k = some t → t.last < s.tick / (1000 * t.period) →
    ∃ u v, exec (.gangTick k) s = .next u ∧ spFind u.sets k = some v ∧ v.last = s.tick / (1000 * t.period) ∧
      v.owner = (t.after.find? (fun p => (s.part? p).any Part.hasWork)).getD t.owner ∧
      v.members = t.members ∧ v.regions = t.regions ∧ v.period = t.period

/-- R62, R156: a decision of the scheduler places the owner's chosen die graph on the lowest free regions of its die. That a GANG_TICK
between two gang ticks is such a decision is the model's choice (log 55), and so is the die graph that it chooses when the oldest of a
queue does not fit (log 56). -/
def Sys2Proof.Claims.SchedulerPlaces : Prop :=
  ∀ (s : State) (k p i : Nat) (t : RSet) (v : Part) (y : Replay) (d : DieGraph), k < 48 → spFind s.sets k = some t → t.owner = p →
    t.live = [] → s.tick / (1000 * t.period) ≤ t.last → s.part? p = some v → v.state = .ready → v.suspending = none →
    (∀ e ∈ v.dieGraphs, e.2.2.isSaved = false) → s.chooseDg t p v = some (y, i, d) →
    ∃ u, exec (.gangTick k) s = .next u ∧
      ∀ r ∈ (s.freeRegions v d.die).take d.width, ∃ pl, (u.reg r).place = some pl ∧ pl.part = p ∧ pl.replay = y.num ∧ pl.dg = i

/-- R53, R157, R390: a region whose part of its stage is complete, with no channel end open, is cleared but for its pads, and
reports: its stage counts it as done. With the last stage of the die graph the die graph is finished, and the replay's end is this tick when
that was its last. The scheduler then decides: that it does so at every region's completion, and not at a stage's alone, is the model's choice
(log 55). -/
def Sys2Proof.Claims.RegionCompletes : Prop :=
  ∀ (s : State) (r : Nat) (pl : Placement) (v : Part), r < 192 → (s.reg r).place = some pl → s.part? pl.part = some v →
    s.partComplete r = true → (s.reg r).chans = [] →
    ∀ d, s.dg? pl.part pl.replay pl.dg = some d →
    ∃ (t : State) (e : DieGraph), t.dg? pl.part pl.replay pl.dg = some e ∧
      e = { d with stages := d.stages.map (fun (g : StageRec) => if g.index = pl.stage then { g with done := g.done ++ [r] } else g) } ∧
      (t.reg r).place = none ∧ (t.reg r).seq = {} ∧ (t.reg r).tags = [] ∧ (t.reg r).streams = [] ∧
      (∀ c, ((t.reg r).cell c).pad = ((s.reg r).cell c).pad) ∧ (∀ x, x ≠ r → t.reg x = s.reg x) ∧ t.mem = s.mem ∧
      (d.place = .placed → e.stages.all StageRec.over = false → exec (.regionCompletion r) s = .next ((t.settle v.set).schedule v.set)) ∧
      (d.place = .placed → e.stages.all StageRec.over = true → exec (.regionCompletion r) s =
        .next ((((t.modDg pl.part pl.replay pl.dg (fun (x : DieGraph) => { x with place := .finished })).stampEnd pl.part pl.replay).settle v.set).schedule
          v.set)) ∧
      (∀ since, d.place = .saving since → exec (.regionCompletion r) s =
        .next (((t.endSave pl.part pl.replay pl.dg).settle v.set).schedule v.set))

/-- R359: a marker that reaches a region of a die graph that is being saved is all that it changes. -/
def Sys2Proof.Claims.MarkerArrives : Prop :=
  ∀ (s : State) (r since : Nat) (pl : Placement) (d : DieGraph), r < 192 → s.dgAt r = some (pl, d) → d.place = .saving since →
    ∃ t, exec (.markerArrival r) s = .next t ∧ t.reg r = { s.reg r with marker := true } ∧ Claims.OnlyRegion s t r ∧ t.pkg = s.pkg

/-- R360, R363, R364: a region that may be saved, once the waits of its blocks that are over are dropped, and whose record can be written leaves:
the record is in memory, its die graph keeps the lane, and the region is vacated. The die graph's save may then be over, and the scheduler then
decides: that it does so at every region's save is the model's choice (log 55). -/
def Sys2Proof.Claims.RegionSaved : Prop :=
  ∀ (s s1 : State) (r since k : Nat) (pl : Placement) (d : DieGraph), r < 192 → s.dgAt r = some (pl, d) → d.place = .saving since →
    (s.endWaits r).saveReady = true → s.setOf r = some k →
    let g := (s.endWaits r).parked
    let head : RecordHead := { region := r, lane := pl.lane, tick := s.tick, replay := pl.replay, misses := d.misses }
    let cells := g.recordCells head ++ putCut 0x300000 (s.mem.cut (palBase r) (2 ^ 21)) ++ putCut 0x600000 (s.mem.cut (sliceBase r) (2 ^ 21))
    s.writeRecord (recordWho pl.part r) (pl.save + pl.lane * 0x800000) cells = (s1, .ok ()) →
    ∃ (t : State) (e : DieGraph), exec (.regionSaveComplete r) s = .next ((t.endSave pl.part pl.replay pl.dg).schedule k) ∧ t.mem = s1.mem ∧
      (t.reg r).place = none ∧ (∀ x, x ≠ r → t.reg x = s.reg x) ∧ t.dg? pl.part pl.replay pl.dg = some e ∧ e.place = .saving since ∧
      ∃ l, e.saved = d.saved ++ [l] ∧ l.region = r ∧ l.stage = pl.stage ∧ l.lane = pl.lane ∧ l.tick = s.tick ∧ l.img = g

/-- R361: a save of an owner change that runs for more than 200 µs counts as a miss; one that does not yet, or that belongs to a
suspension, is left alone. -/
def Sys2Proof.Claims.SaveDeadlinePasses : Prop :=
  ∀ (s : State) (p n i since : Nat) (v : Part) (d : DieGraph), p < 48 → s.part? p = some v → s.dg? p n i = some d → d.place = .saving since →
    (d.forSuspend = false → 200000 < s.tick - since →
      ∃ t e, exec (.saveDeadline p n i) s = .next t ∧ t.dg? p n i = some e ∧ e = { d with missing := true } ∧ t.regs = s.regs ∧ t.mem = s.mem) ∧
    (d.forSuspend = true ∨ s.tick - since ≤ 200000 → exec (.saveDeadline p n i) s = .next s)

/-- R355 to R358: the reset of a partition stops every stage of it without a save, drops its die graphs, ends or aborts every
replay, reports with an interrupt, and leaves the partition ready or migrating in, or resetting when no detour was found; a migration
source, which holds no set, still is one. The pads of its regions stay. Those that a saved record holds stay with the partition too: in the
region where its state is live on that die, otherwise in memory that the CFW holds for it (R364). The scheduler then decides, which is
the model's choice (log 55), and so are the states after a reset of a suspended or migrating partition (log 61). -/
def Obligations.PartitionResets : Prop :=
  ∀ (s : State) (p : Nat) (v : Part) (q : ResetReq), p < 48 → s.part? p = some v → v.reset = some q →
    ∃ (t : State) (u : Part), exec (.partitionReset p) s = .next ((t.settle v.set).schedule v.set) ∧ t.part? p = some u ∧ u.reset = none ∧
      (q.detour = true → u.state = .ready ∨ u.state = .migratingIn ∨ (v.set = 48 ∧ u.state = .migratingOut)) ∧ (q.detour = false → u.state = .resetting) ∧
      (∀ y ∈ u.replays, y.aborting ≠ none ∧ y.dgs = []) ∧ Output.interrupt (2096 + p) ∈ t.pkg.out ∧
      (let unsaved := fun (r : Nat) => ∀ e ∈ v.dieGraphs, ∀ l ∈ e.2.2.saved, l.region ≠ r
       (∀ r, r < 192 → s.owner r = some p → (t.reg r).place = none ∧ (t.reg r).seq = {} ∧
         (unsaved r → ∀ c, ((t.reg r).cell c).pad = ((s.reg r).cell c).pad)) ∧
       (∀ r, s.owner r ≠ some p → unsaved r → t.reg r = s.reg r)) ∧
      (∀ e ∈ v.dieGraphs, ∀ l ∈ e.2.2.saved, (∀ x ∈ v.dieGraphs, ∀ m ∈ x.2.2.saved, m.region = l.region → m = l) → spWf l.img.cells = true →
        let live := (spFind s.sets v.set).any (fun t => t.liveOn (l.region / 48) == p)
        (live = true → ∀ c, ((t.reg l.region).cell c).pad = (l.img.cell c).pad) ∧
        (live = false → ∃ h ∈ u.images, h.region = l.region ∧ h.palette = l.palette ∧ h.vat = l.vat ∧
          ∀ c, spGet [] h.pads c = (l.img.cell c).pad)) ∧ u.regions = v.regions ∧ u.key = v.key

/-! ## The invalidation sequencer, pulled frames, metering -/

/-- What the invalidation sequencer holds once an operation is over, `rest` being what stands behind it, and what it sends: a pull
that comes to its head is sent to the source's package with the ticket's session (R175, R180). -/
def Sys2Proof.Claims.invNext (v : Part) (now : Nat) : List InvOp → List InvOp × List Output
  | .pull g none :: l => match v.migration with
    | some x => (.pull g (some now) :: l, [.pull x.peer x.session g])
    | none => (.pull g none :: l, [])
  | l => (l, [])

/-- The operation at the head of a partition's invalidation sequencer, with `rest` behind it, is over. -/
def Sys2Proof.Claims.OpOver (s t : State) (p : Nat) (v w : Part) (rest : List InvOp) : Prop :=
  t.part? p = some w ∧ w.invq = (Claims.invNext v s.tick rest).1 ∧ t.pkg.out = s.pkg.out ++ (Claims.invNext v s.tick rest).2

/-- R175, R177, R178, R179: a replica at the head of the invalidation sequencer takes the lowest pool frame of its die that is free, which then holds
the bytes of its home frame; with none the frame is marked to be read at home there; a frame that has collapsed is not replicated. Which pool frame
it takes is the model's choice (log 27). -/
def Sys2Proof.Claims.ReplicaCreated : Prop :=
  ∀ (s : State) (p f d r st : Nat) (v : Part) (rest : List InvOp), p < 48 → s.part? p = some v → v.invq = .replica f d r st :: rest →
    let free := (s.poolFrames d).find? (fun a => !(s.pkg.replicas.any (fun x => x.pool == a)))
    ∃ (t : State) (w : Part), exec (.replicaCreation p) s = .next t ∧ Claims.OpOver s t p v w rest ∧ t.regs = s.regs ∧
      (f ∈ v.collapsed → t.mem = s.mem ∧ t.pkg.replicas = s.pkg.replicas ∧ t.pkg.noReplica = s.pkg.noReplica) ∧
      (f ∉ v.collapsed → free = none →
        t.mem = s.mem ∧ t.pkg.replicas = s.pkg.replicas ∧ t.pkg.noReplica = s.pkg.noReplica ++ [(f, d)]) ∧
      (∀ a, f ∉ v.collapsed → free = some a →
        t.pkg.replicas = s.pkg.replicas ++ [{ part := p, frame := f, die := d, pool := a }] ∧ t.pkg.noReplica = s.pkg.noReplica ∧
        (s.mem.wf = true → f + 2 ^ 21 ≤ a ∨ a + 2 ^ 21 ≤ f → (∀ i, i < 2 ^ 21 → t.mem.read (a + i) = s.mem.read (f + i)) ∧
          ∀ x, ¬(a ≤ x ∧ x < a + 2 ^ 21) → t.mem.read x = s.mem.read x))

/-- R178: a collapse drops every replica of its frame and every cached translation of it, marks the frame, and clears rep in the leaf, if one is
named, the only word of memory that it writes. While the partition stands still the operation is dropped. That is the model's choice (log 99). That
the table which holds the leaf collapses too, where it has a replica, is as well (log 128). -/
def Sys2Proof.Claims.FrameCollapses : Prop :=
  ∀ (s : State) (p f : Nat) (leaf : Option Nat) (v : Part) (rest : List InvOp), p < 48 → s.part? p = some v →
    v.invq = .collapse f leaf :: rest →
    ∃ (t : State) (w : Part), exec (.collapse p) s = .next t ∧ Claims.OpOver s t p v w rest ∧ (∀ r, (t.reg r).seq = (s.reg r).seq) ∧
      (v.still = true → t.mem = s.mem ∧ t.regs = s.regs ∧ t.pkg.replicas = s.pkg.replicas ∧ w.collapsed = v.collapsed) ∧
      (v.still = false → f ∈ w.collapsed ∧
        (∀ x ∈ t.pkg.replicas, ¬(x.part = p ∧ x.frame = f)) ∧ (∀ r, ∀ x ∈ (t.reg r).tlb, ¬(x.part = p ∧ x.pa / 2 ^ 21 * 2 ^ 21 = f)) ∧
        (∀ l, leaf = some l → Claims.number t.mem l 8 = Claims.number s.mem l 8 / 32 * 32 + Claims.number s.mem l 8 % 16) ∧
        (∀ x, (∀ l, leaf = some l → ¬(l ≤ x ∧ x < l + 8)) → t.mem.read x = s.mem.read x))

/-- The bytes of a pulled frame are in its local frame and its stage-2 entry is type 1; no other byte of memory has changed
(R180). -/
def Sys2Proof.Claims.Filled (s t : State) (v : Part) (g : Nat) (data : List Byte) : Prop :=
  let a := v.s2 + 8 * g
  let e := Claims.number s.mem a 8
  let pa := e / 2 ^ 21 % 2 ^ 31 * 2 ^ 21
  e / 2 ^ 62 = 2 → a + 8 ≤ pa ∨ pa + 2 ^ 21 ≤ a →
    Claims.number t.mem a 8 = e - 2 ^ 62 ∧ (∀ i, i < 2 ^ 21 → t.mem.read (pa + i) = data.getD i 0) ∧
    (∀ x, ¬(a ≤ x ∧ x < a + 8) → ¬(pa ≤ x ∧ x < pa + 2 ^ 21) → t.mem.read x = s.mem.read x)

/-- R175, R180, R181, R182: a pull that has been sent and returns within 10 ms fills its frame and ends; a page that comes later changes nothing,
and the pull ends as failed, with its entry left at type 2. With nothing in the invalidation sequencer, a pull of the lowest frame still remote is
sent, with the ticket's session, and takes its place there; it fills its frame within 10 ms of that, and fails after them. The fault record that a
failed pull of that kind leaves is the model's choice (log 98). So is the mark that a failed pull leaves on its frame (log 60). -/
def Sys2Proof.Claims.FramePulled : Prop :=
  ∀ (s : State) (p : Nat) (v : Part) (data : List Byte), p < 48 → s.part? p = some v →
    (∀ g since rest, v.invq = .pull g (some since) :: rest →
      (s.tick - since < 10000000 →
        ∃ t w, exec (.remotePage p data) s = .next t ∧ Claims.OpOver s t p v w rest ∧ Claims.Filled s t v g data ∧ t.regs = s.regs) ∧
      (10000000 ≤ s.tick - since → exec (.remotePage p data) s = .next s ∧
        (v.pulling = none → ∃ t w, exec (.remotePullTimeout p) s = .next t ∧ Claims.OpOver s t p v w rest ∧ g ∈ w.failedPulls ∧ t.mem = s.mem ∧
          t.regs = s.regs))) ∧
    (∀ g m, v.invq = [] → v.state = .migratingIn → v.migration = some m → v.pulling = none → v.forming = none → s.nextRemote v = some g →
      ∃ t, exec (.remainingFramePull p data) s = .next t ∧ t.mem = s.mem ∧ t.regs = s.regs ∧
        t.part? p = some { v with pulling := some (g, s.tick), invq := [.pull g (some s.tick)] } ∧ t.pkg.out = s.pkg.out ++ [.pull m.peer m.session g]) ∧
    (∀ g since rest, v.invq = .pull g (some since) :: rest → InvOp.pull g (some since) ∉ rest → v.pulling = some (g, since) →
      (s.tick - since < 10000000 → ∃ t w, exec (.remainingFramePull p data) s = .next t ∧ Claims.OpOver s t p v w rest ∧ w.pulling = none ∧
        Claims.Filled s t v g data ∧ t.regs = s.regs) ∧
      (10000000 ≤ s.tick - since → exec (.remainingFramePull p data) s = .next s ∧
        ((v.faults.filter (fun f => f.answer == .pending)).length < 64 →
          ∃ t w f, exec (.remotePullTimeout p) s = .next t ∧ t.part? p = some w ∧ w.pulling = none ∧ g ∈ w.failedPulls ∧
            w.invq = (Claims.invNext v s.tick rest).1 ∧ w.faults = v.faults ++ [f] ∧ f.cause = 0x0E6 ∧ f.gpa = 2 ^ 21 * g ∧ t.regs = s.regs)))

/-- R400: a source in state 2 answers a pull of its session with the bytes of the frame, and refuses one of another session; its
memory and regions stay as they are. -/
def Sys2Proof.Claims.PullServed : Prop :=
  ∀ (s : State) (p frame pa key home : Nat) (w x : Bool) (session : BitVec 128) (v : Part) (m : Migration), p < 48 → s.part? p = some v →
    v.state = .migratingOut → v.migration = some m → s.stage2 v (frame * 2 ^ 21) = .ok pa w x key home →
    ∃ t, exec (.pullServe p frame session) s = .next t ∧ t.mem = s.mem ∧ t.regs = s.regs ∧
      t.pkg.out = s.pkg.out ++ [.page frame (if m.session = session then some (s.mem.image pa (2 ^ 21)) else none)]

/-- R149, R150: the message of the next window that a die has closed adds what its meter block has counted in that window to the totals of
every partition, the residence of the regions placed there included; a message whose code fails adds nothing and is logged. When a closed
window's message is taken is the model's choice (log 72). -/
def Sys2Proof.Claims.WindowCloses : Prop :=
  ∀ (s : State) (die : Nat) (ok : Bool), die < 4 → spGet 0 s.pkg.windows die < s.tick / 1000000 →
    let n := spGet 0 s.pkg.windows die
    ∃ t, exec (.meterWindow die ok) s = .next t ∧ spGet 0 t.pkg.windows die = n + 1 ∧
      t.pkg.log = s.pkg.log ++ (if ok then [] else [.badWindow die s.tick]) ∧ t.mem = s.mem ∧ (∀ r, (t.reg r).seq = (s.reg r).seq) ∧
      (∀ p u, (s.countResid die).part? p = some u → ∃ w, t.part? p = some w ∧
        let inc := if ok then spGet {} u.meter.pend (4 * n + die) else {}
        w.meter.total = u.meter.total.plus inc ∧ w.meter.history = u.meter.history ++ [((n + 1) * 1000000, inc)] ∧
        (∀ k, spFind w.meter.pend k = if k = 4 * n + die then none else spFind u.meter.pend k) ∧
        w.meter.latest = max u.meter.latest ((n + 1) * 1000000))

/-- R151, R152: a record that is due carries the totals of the windows that had ended a millisecond before, is chained to the one
before it by SHA-384 (log 113) and signed under the metering key; unless the host refuses the write, it is in its slot of the ring and the
count is one higher. That a refused record still moves the chain on is the model's choice (log 13). The next is due a second later. -/
def Sys2Proof.Claims.UsageRecorded : Prop :=
  ∀ (s : State) (p : Nat) (v : Part), p < 48 → s.part? p = some v → v.meter.nextDue ≤ s.tick → v.forming = none →
    let m := v.meter
    let c := m.totalsAt (m.nextDue - 1000000)
    ∃ t w rec', exec (.usageRecord p) s = .next t ∧ t.part? p = some w ∧ w.meter.seq = m.seq + 1 ∧ w.meter.first = false ∧
      w.meter.nextDue = m.nextDue / 1000000000 * 1000000000 + 1000000000 ∧ w.meter.prev = sha384 rec' ∧ rec'.length = 256 ∧
      rec'.take 8 = toBytes 1 1 ++ toBytes 1 p ++ toBytes 2 (m.first.toNat + 4 * (m.wasSuspended m.nextDue).toNat) ++ toBytes 4 c.preempt.toNat ∧
      (rec'.drop 8).take 16 = toBytes 8 m.seq ++ toBytes 8 m.nextDue ∧
      (∀ i : Fin 6, (rec'.drop (0x18 + 8 * i.val)).take 8 = toBytes 8 c.slots[i].toNat) ∧
      (rec'.drop 0x48).take 40 = toBytes 8 c.void.toNat ++ toBytes 8 c.hbm.toNat ++ toBytes 8 c.vat.toNat ++ toBytes 8 c.fabric.toNat ++
        toBytes 8 c.resid.toNat ∧
      (rec'.drop 112).take 48 = toBytes 48 m.prev.toNat ∧
      (let sig := Config.sign 1 (rec'.take 160) s.steps
       rec'.drop 160 = (toBytes 48 sig.1.toNat).reverse ++ (toBytes 48 sig.2.toNat).reverse) ∧ t.regs = s.regs ∧
      (s.ringDenied m = true → t.mem = s.mem) ∧
      (s.ringDenied m = false →
        let base := 0x080000000000 + m.ring
        let slot := base + 64 + 256 * (m.seq % m.ringn)
        t.mem.readN 256 slot = rec' ∧ t.mem.readN 8 base = toBytes 8 (m.seq + 1) ∧
        ∀ x, ¬(slot ≤ x ∧ x < slot + 256) → ¬(base ≤ x ∧ x < base + 8) → t.mem.read x = s.mem.read x)

/-! ## CFW commands -/

/-- The little-endian number in a field of a list of bytes. -/
def Sys2Proof.Claims.field (bs : List Byte) (off n : Nat) : Nat := ofBytes ((bs.drop off).take n)

/-- The host's access control refuses nothing (R127; what it refuses comes from outside, log 13). -/
def Sys2Proof.Claims.HostAllows (s : State) : Prop := s.pkg.denied = []

/-- `n` bytes of the host's memory hold no poison (R137, R212). -/
def Sys2Proof.Claims.HostClean (s : State) (a n : Nat) : Prop := ∀ x ∈ s.mem.poison, ¬(0x080000000000 + a ≤ x ∧ x < 0x080000000000 + a + n)

/-- A command of one opcode stands at the head of the CFW queue and may start: the queue runs, fewer than eight commands are in
progress, the boot is over, and the packet meets R136 and R137 for `len` bytes of arguments, which hold no poison, and `extra` bytes of
results; `args` are its arguments. -/
def Sys2Proof.Claims.AtCommand (s : State) (c : CfwQueue) (bs args : List Byte) (op len extra : Nat) : Prop :=
  s.pkg.cfw = some c ∧ c.stopped = false ∧ c.cons < c.prod ∧ s.pkg.inProgress.length < 8 ∧ s.pkg.boot = 6 ∧
    bs = s.mem.readN 64 (0x080000000000 + c.pa + 0x40 + 64 * (c.cons % (2 ^ c.log2 / 64))) ∧ Claims.field bs 0 2 = op ∧
    (∀ i ∈ [2, 3, 0x14, 0x15, 0x16, 0x17], bs.getD i 0 = 0) ∧ (∀ i, 0x24 ≤ i → i < 64 → bs.getD i 0 = 0) ∧
    Claims.field bs 8 8 % 64 = 0 ∧ Claims.field bs 0x10 4 = len ∧ Claims.field bs 0x18 8 % 64 = 0 ∧ 64 + extra ≤ Claims.field bs 0x20 4 ∧
    Claims.field bs 8 8 + len ≤ 2 ^ 46 ∧ Claims.field bs 0x18 8 + (64 + extra) ≤ 2 ^ 46 ∧ Claims.HostAllows s ∧
    Claims.HostClean s (Claims.field bs 8 8) len ∧ c.pa + 64 ≤ 2 ^ 46 ∧ args = s.mem.readN len (0x080000000000 + Claims.field bs 8 8)

/-- The completion of a command lies at its result address, with TICK at completion last, the results of R403 and the bytes after
the first 64; nothing else of memory differs from `m` but the addresses that `also` names (R136). -/
def Sys2Proof.Claims.ResultAt (m : Memory) (t : State) (also : Nat → Prop) (res op ctag start tick status detail : Nat) (results more : List Byte) : Prop :=
  let a := 0x080000000000 + res
  t.mem.readN 56 a = toBytes 2 status ++ toBytes 2 op ++ toBytes 4 ctag ++ toBytes 8 start ++ toBytes 4 more.length ++ toBytes 4 detail ++
    toBytes 8 0 ++ (results ++ List.replicate (24 - results.length) 0) ∧
  t.mem.readN 8 (a + 56) = toBytes 8 tick ∧ t.mem.readN more.length (a + 64) = more ∧
  ∀ x, ¬(a ≤ x ∧ x < a + 64 + more.length) → ¬also x → t.mem.read x = m.read x

/-- The command at the head has been taken and has completed at this step with a status, a detail and results, and the tick of its start,
which is this step's where it has not started before; what it did to the rest of the machine is `u` (R136, R138). -/
def Sys2Proof.Claims.Completed (s u t : State) (c : CfwQueue) (bs : List Byte) (status detail : Nat) (results more : List Byte) : Prop :=
  t.pkg = { u.pkg with cfw := some { c with cons := c.cons + 1, started := none } } ∧ t.parts = u.parts ∧ t.regs = u.regs ∧ t.sets = u.sets ∧
    Claims.ResultAt u.mem t (fun x => 0x080000000008 + c.pa ≤ x ∧ x < 0x080000000010 + c.pa) (Claims.field bs 0x18 8) (Claims.field bs 0 2) (Claims.field bs 4 4)
      (c.started.getD s.tick) s.tick status detail results more

/-- The first argument byte names an existing partition that no command in progress names, and every byte outside the fields is
zero (R138, R140). -/
def Sys2Proof.Claims.Names (s : State) (args : List Byte) (fields : List (Nat × Nat)) (p : Nat) (v : Part) : Prop :=
  p = Claims.field args 0 1 ∧ s.part? p = some v ∧ (∀ e ∈ s.pkg.inProgress, e.2.1 ≠ p) ∧
    ∀ i, 1 ≤ i → i < args.length → (∀ f ∈ fields, ¬(f.1 ≤ i ∧ i < f.1 + f.2)) → args.getD i 0 = 0

/-- R6, R36, R129, R135: a write to the command register registers a fresh queue with the cons, prod and log2size of its header, whose state, cause
and gatedone fields then are zero, where the host does not refuse the writes; a write that it refuses stops the queue. A header outside R135 stops it
at once with QUEUE_CORRUPT. Commands of an earlier queue that have not begun are not performed. While XD is held in reset nothing takes the write.
That a registration makes the three fields zero (log 100) and reads the header whatever the host refuses (log 64) is the model's choice. -/
def Sys2Proof.Claims.CfwqRegisters : Prop :=
  ∀ (s : State) (pa : Word), pa.toNat + 64 ≤ 2 ^ 46 →
    let a := 0x080000000000 + pa.toNat
    let prod := Claims.number s.mem a 8
    let cons := Claims.number s.mem (a + 8) 8
    let l := Claims.number s.mem (a + 0x10) 4
    let good := 12 ≤ l ∧ l ≤ 26 ∧ cons ≤ prod ∧ prod - cons ≤ 2 ^ l / 64
    let c : CfwQueue := { pa := pa.toNat, log2 := l, cons := cons, prod := prod, stopped := decide (¬good) }
    ((4, true) ∉ s.pkg.measured → exec (.cfwq pa) s = .next s) ∧
    ((4, true) ∈ s.pkg.measured → s.hostRefuses (pa.toNat + 0x18) 4 = true →
      ∃ t, exec (.cfwq pa) s = .next t ∧ t.regs = s.regs ∧ t.pkg.cfw = some { c with stopped := true }) ∧
    ((4, true) ∈ s.pkg.measured → Claims.HostAllows s → ∃ t, exec (.cfwq pa) s = .next t ∧ t.regs = s.regs ∧ t.pkg.cfw = some c ∧
      (∀ p w, t.part? p = some w → InvOp.update ∉ w.invq) ∧
      ((∀ e ∈ s.parts, InvOp.update ∉ e.2.invq ∧ e.2.forming = none) → t.pkg = { s.pkg with cfw := some c } ∧ t.parts = s.parts) ∧
      Claims.number t.mem (a + 0x1C) 4 = 0 ∧ Claims.number t.mem (a + 0x20) 8 = 0 ∧ Claims.number t.mem (a + 0x38) 8 = 0 ∧
      (good → Claims.number t.mem (a + 0x18) 4 = 0 ∧ Claims.number t.mem (a + 0x14) 4 = 0) ∧
      (¬good → Claims.number t.mem (a + 0x18) 4 = 0x160 ∧ Claims.number t.mem (a + 0x14) 4 = 1 ∧
        Claims.number t.mem (a + 0x28) 8 = cons ∧ Claims.number t.mem (a + 0x30) 8 = cons) ∧
      ((∀ e ∈ s.parts, e.2.forming = none) → ∀ x, ¬(a + 0x14 ≤ x ∧ x < a + 0x40) → t.mem.read x = s.mem.read x))

/-- R137, R138: a command whose opcode is not in the table completes with BAD_COMMAND, or NOT_READY before boot step 6, and has no other effect. That
the detail of such a completion is 0 is the model's choice (log 62). -/
def Sys2Proof.Claims.BadCommandCompletes : Prop :=
  ∀ (s : State) (c : CfwQueue) (bs : List Byte), s.pkg.cfw = some c → c.stopped = false → c.started = none → c.cons < c.prod →
    s.pkg.inProgress.length < 8 → bs = s.mem.readN 64 (0x080000000000 + c.pa + 0x40 + 64 * (c.cons % (2 ^ c.log2 / 64))) →
    Claims.field bs 0 2 ∉ [0x01, 0x02, 0x10, 0x11, 0x20, 0x21, 0x22, 0x23, 0x24, 0x25, 0x26, 0x30, 0x31, 0x32, 0x40, 0x50, 0x51] →
    Claims.field bs 0x18 8 + 64 ≤ 2 ^ 46 → Claims.HostAllows s → c.pa + 64 ≤ 2 ^ 46 →
    ∃ t, exec .badCommand s = .next t ∧ Claims.Completed s s t c bs (if s.pkg.boot < 6 then 1 else 2) 0 [] []

/-- R389, R403: DEV.INFO and DEV.HEALTH report and change nothing: the part number, the stacks, the package ID, the pseudo-channels
mapped out, the version and the regions; the tiles in each state, the retired regions and the drops (the trends and the prediction are
free, log 18). -/
def Sys2Proof.Claims.DeviceCommands : Prop :=
  ∀ (s : State) (c : CfwQueue) (bs args : List Byte),
    (Claims.AtCommand s c bs args 0x01 0 24 → ∃ t, exec .devInfo s = .next t ∧
      Claims.Completed s s t c bs 0 0 (toBytes 1 s.pkg.part ++ toBytes 1 s.stackMask ++ toBytes 2 Config.packageId.toNat ++
        toBytes 4 s.pkg.mappedOut.length ++ toBytes 8 Config.cfwVersion.toNat) (toBytes 24 s.presentMask.toNat)) ∧
    (Claims.AtCommand s c bs args 0x02 0 512 → s.pkg.lastDrops.length ≤ 16 → ∃ t more, exec .devHealth s = .next t ∧
      Claims.Completed s s t c bs 0 0 [] more ∧ more.length = 512 ∧
      (∀ k, k < 7 → (more.drop (4 * k)).take 4 = toBytes 4 (s.tilesIn k)) ∧ (more.drop 32).take 24 = toBytes 24 s.pkg.retired.toNat ∧
      (more.drop 56).take 8 = toBytes 8 s.pkg.drops)

/-- R138, R403: PART.QUERY and METER.READ report and change nothing: the state, the registered queues, the replays that run and the
regions; the counters of the latest increment. -/
def Sys2Proof.Claims.ReportCommands : Prop :=
  ∀ (s : State) (c : CfwQueue) (bs args : List Byte) (p : Nat) (v : Part), Claims.Names s args [] p v →
    (Claims.AtCommand s c bs args 0x22 8 24 → ∃ t, exec .partQuery s = .next t ∧
      Claims.Completed s s t c bs 0 0 (toBytes 1 v.state.code ++ [0] ++ toBytes 2 ((v.queues.map (fun e => 2 ^ e.1)).sum) ++
        toBytes 4 (v.replays.filter Replay.begun).length) (toBytes 24 v.regions.toNat)) ∧
    (Claims.AtCommand s c bs args 0x51 8 88 → ∃ t, exec .meterRead s = .next t ∧
      Claims.Completed s s t c bs 0 0 (toBytes 4 v.meter.total.preempt.toNat ++ toBytes 4 0 ++ toBytes 8 v.meter.latest)
        (v.meter.total.slots.toList ++ [v.meter.total.void, v.meter.total.hbm, v.meter.total.vat, v.meter.total.fabric,
          v.meter.total.resid] |>.flatMap (fun w => toBytes 8 w.toNat)))

/-- R129, R139: QUEUE.REG of a free queue number whose header lies in a host-window frame and is well formed registers it with the header's cons and
prod, and then the header's state, cause and gatedone fields are zero, where they can be written; QUEUE.UNREG of a registered one removes it, and its
result is the final cons. That a registration makes the three fields zero is the model's choice (log 100). -/
def Sys2Proof.Claims.QueueCommands : Prop :=
  ∀ (s : State) (c : CfwQueue) (bs args : List Byte) (p : Nat) (v : Part),
    (∀ (x : Xlate) (ext : List Xlate), Claims.AtCommand s c bs args 0x10 24 0 → Claims.Names s args [(1, 1), (2, 1), (8, 8)] p v →
      let q := Claims.field args 1 1
      let prio := Claims.field args 2 1
      let va := Claims.field args 8 8
      let pa := x.pa + (va - x.va)
      let prod := Claims.number s.mem pa 8
      let cons := Claims.number s.mem (pa + 8) 8
      let l := Claims.number s.mem (pa + 0x10) 4
      q ≤ 15 → prio ≤ 3 → spFind v.queues q = none → va % 4096 = 0 → s.walk v p va .read = .ok x → inTierWindow va = false →
      isHost pa = true → s.physFault pa 64 .read = none → 12 ≤ l → l ≤ 26 → cons ≤ prod → prod - cons ≤ 2 ^ l / 64 →
      s.queueExtents v p (va + 0x40 + 2 ^ l) 16386 va [] = .ok ext → s.watchedLines < 1024 →
      let h : HQueue := { va := va, log2 := l, prio := prio, cons := cons, regCons := cons, prod := prod, extents := ext }
      ∃ t u g, exec .queueReg s = .next t ∧ Claims.Completed s u t c bs 0 0 [] [] ∧ u.regs = s.regs ∧ t.queue? p q = some g ∧
        g.va = va ∧ g.log2 = l ∧ g.prio = prio ∧ g.cons = cons ∧ g.regCons = cons ∧ g.prod = prod ∧ g.extents = ext ∧
        (∀ n, n ≠ q → t.queue? p n = s.queue? p n) ∧
        (∀ base, Claims.HeaderLies (s.setPart p { v with queues := spInsert v.queues q h }) p h base → g = h ∧
          (∀ i, i < 20 → u.mem.read (base + 0x14 + i) = 0) ∧ (∀ i, i < 8 → u.mem.read (base + 0x38 + i) = 0) ∧
          ∀ y, ¬(base + 0x14 ≤ y ∧ y < base + 0x28) → ¬(base + 0x38 ≤ y ∧ y < base + 0x40) → u.mem.read y = s.mem.read y)) ∧
    (∀ h, Claims.AtCommand s c bs args 0x11 8 0 → Claims.Names s args [(1, 1)] p v → Claims.field args 1 1 ≤ 15 →
      spFind v.queues (Claims.field args 1 1) = some h →
      ∃ t u, exec .queueUnreg s = .next t ∧ Claims.Completed s u t c bs 0 0 (toBytes 8 h.cons) [] ∧ u.regs = s.regs ∧
        t.queue? p (Claims.field args 1 1) = none ∧ (∀ n, n ≠ Claims.field args 1 1 → t.queue? p n = s.queue? p n))

/-- R146, R151: RANK.SET with well-formed entries sets the partition's rank table from its first index on; METER.ARM with a ring that
the CFW may write starts a chain: its count is 0, its first record is due at the next multiple of 10^9, and its first prev is the hash
of the nonce. While a record of the arming before it is due, the command waits for that record. -/
def Sys2Proof.Claims.TableCommands : Prop :=
  ∀ (s : State) (c : CfwQueue) (bs args : List Byte) (p : Nat) (v : Part),
    (Claims.AtCommand s c bs args 0x40 16 0 → Claims.Names s args [(2, 2), (4, 2), (8, 8)] p v →
      let first := Claims.field args 2 2
      let n := Claims.field args 4 2
      let at' := fun (i : Nat) => Claims.number s.mem (0x080000000000 + Claims.field args 8 8 + 8 * i) 8
      1 ≤ n → first + n ≤ 1024 → Claims.field args 8 8 % 8 = 0 → Claims.field args 8 8 + 8 * n ≤ 2 ^ 46 → Claims.HostClean s (Claims.field args 8 8) (8 * n) →
      (∀ i, i < n → rankBad v.regions v.key.toNat (at' i) = none) →
      ∃ t u w, exec .rankSet s = .next t ∧ Claims.Completed s u t c bs 0 0 [] [] ∧ u.mem = s.mem ∧ u.regs = s.regs ∧ t.part? p = some w ∧
        w = { v with ranks := w.ranks } ∧
        ∀ i, spGet 0 w.ranks i = if first ≤ i ∧ i < first + n then BitVec.ofNat 64 (at' (i - first)) else spGet 0 v.ranks i) ∧
    (Claims.AtCommand s c bs args 0x50 56 0 → Claims.Names s args [(4, 4), (8, 8), (0x18, 32)] p v →
      let n := Claims.field args 4 4
      let ring := Claims.field args 8 8
      (∃ k, 4 ≤ k ∧ k ≤ 16 ∧ n = 2 ^ k) → ring % 64 = 0 → ring + (64 + 256 * n + 64 * 64) ≤ 2 ^ 46 →
      (v.meter.nextDue ≤ s.tick → exec .meterArm s = .next s) ∧
      (s.tick < v.meter.nextDue → ∃ t u w, exec .meterArm s = .next t ∧ Claims.Completed s u t c bs 0 0 [] [] ∧ u.mem = s.mem ∧ u.regs = s.regs ∧ t.part? p = some w ∧
        w = { v with meter := w.meter } ∧ w.meter.ring = ring ∧ w.meter.ringn = n ∧ w.meter.faultRing = ring ∧ w.meter.seq = 0 ∧
        w.meter.first = true ∧ w.meter.armed = s.tick ∧ w.meter.nextDue = (s.tick / 1000000000 + 1) * 1000000000 ∧
        w.meter.prev = sha384 ((args.drop 0x18).take 32)))

/-- R167, R169, R175: S2.UPDATE with entries that pass their checks, once no operation stands before it in the invalidation sequencer, writes them
into the array, drops every cached translation of the partition, and the replicas and the collapsed marks of the frames that the old or new entries
name; with another operation there it takes its place behind it and the command waits, its start kept (R136). S2.RESUME lets the access that met a
pending fault go on. S2.ABORT leaves an answer of abort to the unit that awaits it, gives the region of a block that awaits it S2_ABORT, whether it
is placed or saved: the block's rounds then wait for the eret of that cause's handler (R353). It ends the record of a pull that no access asked for,
which is the model's choice (log 98). Where a waiting S2.UPDATE stands among the other operations is one too (log 67). -/
def Sys2Proof.Claims.StageTwoCommands : Prop :=
  ∀ (s : State) (c : CfwQueue) (bs args : List Byte) (p : Nat) (v : Part),
    (Claims.AtCommand s c bs args 0x30 24 0 → Claims.Names s args [(4, 4), (8, 4), (0x10, 8)] p v →
      let first := Claims.field args 4 4
      let n := Claims.field args 8 4
      let es := s.mem.readN (8 * n) (0x080000000000 + Claims.field args 0x10 8)
      1 ≤ n → n ≤ 4096 → first + n ≤ v.entries → Claims.field args 0x10 8 % 8 = 0 → Claims.field args 0x10 8 + 8 * n ≤ 2 ^ 46 → Claims.HostClean s (Claims.field args 0x10 8) (8 * n) →
      (∀ i, i < n → s.s2Bad p v false (ofBytes ((es.drop (8 * i)).take 8)) = none) →
      (v.invq = [] ∨ v.invq.head? = some .update →
        let names := fun (f : Nat) => ∃ i, i < n ∧ ∃ e ∈ [Claims.number s.mem (v.s2 + 8 * (first + i)) 8, ofBytes ((es.drop (8 * i)).take 8)],
          s2Names e = true ∧ f = s2Frame e
        ∃ t u w, exec .s2Update s = .next t ∧ Claims.Completed s u t c bs 0 0 [] [] ∧ u.mem.readN (8 * n) (v.s2 + 8 * first) = es ∧
          (∀ x, ¬(v.s2 + 8 * first ≤ x ∧ x < v.s2 + 8 * (first + n)) → u.mem.read x = s.mem.read x) ∧
          (∀ r, ∀ x ∈ (t.reg r).tlb, x.part ≠ p) ∧ (∀ r, (t.reg r).seq = (s.reg r).seq) ∧
          (∀ x ∈ t.pkg.replicas, x.part = p → ¬names x.frame) ∧ t.part? p = some w ∧ (∀ f ∈ w.collapsed, ¬names f)) ∧
      (v.invq ≠ [] → v.invq.head? ≠ some .update →
        ∃ t w, exec .s2Update s = .next t ∧ t.pkg.cfw = some { c with started := some (c.started.getD s.tick) } ∧ t.part? p = some w ∧ InvOp.update ∈ w.invq ∧ t.mem = s.mem ∧
          t.regs = s.regs)) ∧
    (∀ f, Claims.AtCommand s c bs args 0x31 8 0 → Claims.Names s args [(4, 4)] p v →
      v.faults.find? (fun f => f.num == Claims.field args 4 4 && f.answer == .pending) = some f →
      ∃ t u w, exec .s2Resume s = .next t ∧ Claims.Completed s u t c bs 0 0 [] [] ∧ u.mem = s.mem ∧ u.regs = s.regs ∧ t.part? p = some w ∧
        w.faults = v.faults.filter (fun g => g.num != f.num) ∧
        (f.cause = 0x0E6 → w.failedPulls = v.failedPulls.filter (fun g => g != f.gpa / 2 ^ 21))) ∧
    (∀ f, Claims.AtCommand s c bs args 0x32 8 0 → Claims.Names s args [(4, 4)] p v →
      v.faults.find? (fun f => f.num == Claims.field args 4 4 && f.answer == .pending) = some f →
      f.bg = false → (s.owner f.region = some p → (s.reg f.region).awaits f.num = false) → v.awaitsSaved f.region f.num = [] →
      ∃ t u w, exec .s2Abort s = .next t ∧ Claims.Completed s u t c bs 0 0 [] [] ∧ u.mem = s.mem ∧ u.regs = s.regs ∧ t.part? p = some w ∧
        w.faults = v.faults.map (fun (g : FaultRec) => if g.num = f.num then { g with answer := .abort } else g)) ∧
    (∀ f, Claims.AtCommand s c bs args 0x32 8 0 → Claims.Names s args [(4, 4)] p v →
      v.faults.find? (fun f => f.num == Claims.field args 4 4 && f.answer == .pending) = some f →
      f.bg = false → s.owner f.region = some p → (s.reg f.region).awaits f.num = true → (s.reg f.region).seq.pending.length < 16 →
      ∃ t u w, exec .s2Abort s = .next t ∧ Claims.Completed s u t c bs 0 0 [] [] ∧ u.mem = s.mem ∧ t.part? p = some w ∧
        w.faults = v.faults.filter (fun g => g.num != f.num) ∧ (t.reg f.region).awaits f.num = false ∧
        (t.reg f.region).seq.pending = (s.reg f.region).seq.pending ++
          [{ cause := 0x0E4, fva := BitVec.ofNat 64 f.va, finfo := 0, voids := (s.reg f.region).awaitBank f.num }] ∧
        ∀ r, r ≠ f.region → t.reg r = s.reg r) ∧
    (∀ f, Claims.AtCommand s c bs args 0x32 8 0 → Claims.Names s args [(4, 4)] p v →
      v.faults.find? (fun f => f.num == Claims.field args 4 4 && f.answer == .pending) = some f →
      f.bg = false → (s.owner f.region = some p → (s.reg f.region).awaits f.num = false) →
      ∀ n q, v.awaitsSaved f.region f.num = [n] → v.savedSeq n f.region = some q → q.pending.length < 16 →
      ∃ t u w y, exec .s2Abort s = .next t ∧ Claims.Completed s u t c bs 0 0 [] [] ∧ u.mem = s.mem ∧ u.regs = s.regs ∧ t.part? p = some w ∧
        w.faults = v.faults.filter (fun g => g.num != f.num) ∧ w.awaitsSaved f.region f.num = [] ∧ w.savedSeq n f.region = some y ∧
        y = { q with pending := q.pending ++
          [{ cause := 0x0E4, fva := BitVec.ofNat 64 f.va, finfo := 0, voids := (v.savedRegion n f.region).awaitBank f.num }] }) ∧
    (∀ f, Claims.AtCommand s c bs args 0x32 8 0 → Claims.Names s args [(4, 4)] p v →
      v.faults.find? (fun f => f.num == Claims.field args 4 4 && f.answer == .pending) = some f → f.bg = true →
      ∃ t u w, exec .s2Abort s = .next t ∧ Claims.Completed s u t c bs 0 0 [] [] ∧ u.mem = s.mem ∧ u.regs = s.regs ∧ t.part? p = some w ∧
        w.faults = v.faults.filter (fun g => g.num != f.num))

/-- R138, R361, R394, R396: PART.SUSPEND of a partition in state 0 is in progress: its placed die graphs are being saved from this tick
on and it parses no packets; when every save has ended, and the frame of every replay that had ended is written, it is in state 1, from this
tick on its meter counts it as suspended, and the command completes. A command whose suspension a reset has ended completes with TIMEOUT,
which is the model's choice (log 61). -/
def Sys2Proof.Claims.Suspends : Prop :=
  (∀ (s : State) (c : CfwQueue) (bs args : List Byte) (p : Nat) (v : Part), Claims.AtCommand s c bs args 0x23 8 0 →
    Claims.Names s args [] p v → v.state = .ready →
    ∃ t w, exec (.partSuspend none) s = .next t ∧ t.part? p = some w ∧ w.suspending = some s.tick ∧ w.state = .ready ∧
      w.replays = v.replays.map (fun (y : Replay) => { y with dgs := y.dgs.map (fun (d : DieGraph) =>
        if d.place = .placed then { d with place := .saving s.tick, missing := false, forSuspend := true, batch := none }
        else if d.place = .restoring then { d with place := .saved, batch := none } else { d with batch := none }) }) ∧
      t.pkg.cfw = some { c with cons := c.cons + 1, started := none } ∧
      t.pkg.inProgress = s.pkg.inProgress ++ [(0x23, p, Claims.field bs 4 4, Claims.field bs 0x18 8, c.started.getD s.tick)] ∧ t.regs = s.regs) ∧
  (∀ (s : State) (p : Nat) (v : Part) (e : Nat × Nat × Nat × Nat × Nat), p < 48 → s.part? p = some v → Claims.HostAllows s →
    s.pkg.inProgress.find? (fun x => x.1 == 0x23 && x.2.1 == p) = some e → e.2.2.2.1 + 64 ≤ 2 ^ 46 → v.suspending ≠ none →
    (∀ x ∈ v.dieGraphs, x.2.2.isPlaced = false ∧ x.2.2.isSaving = false) → (∀ y ∈ v.replays, v.endOwed y = false) →
    ∃ t w, exec (.partSuspend (some p)) s = .next t ∧ t.part? p = some w ∧
      w = { v with state := .suspended, meter := { v.meter with pauses := v.meter.pauses ++ [(s.tick, none)] } } ∧
      t.pkg.inProgress = s.pkg.inProgress.filter (fun x => !(x.1 == 0x23 && x.2.1 == p)) ∧ t.regs = s.regs ∧
      Claims.ResultAt s.mem t (fun _ => False) e.2.2.2.1 0x23 e.2.2.1 e.2.2.2.2 s.tick 0 0 [] []) ∧
  (∀ (s : State) (p : Nat) (v : Part) (e : Nat × Nat × Nat × Nat × Nat), p < 48 → s.part? p = some v → Claims.HostAllows s →
    s.pkg.inProgress.find? (fun x => x.1 == 0x23 && x.2.1 == p) = some e → e.2.2.2.1 + 64 ≤ 2 ^ 46 → v.suspending = none →
    ∃ t, exec (.partSuspend (some p)) s = .next t ∧ t.parts = s.parts ∧ t.regs = s.regs ∧
      Claims.ResultAt s.mem t (fun _ => False) e.2.2.2.1 0x23 e.2.2.1 e.2.2.2.2 s.tick 14 0 [] [])

/-- R138, R397: PART.RESUME of a suspended partition is in progress and sets state 0, with the scheduler's decision where its set has no other
member, which at this step is the model's choice (log 55); on a shared set its regions stay until its next slice. When no saved die graph is left to
restore, it completes. -/
def Sys2Proof.Claims.Resumes : Prop :=
  (∀ (s : State) (c : CfwQueue) (bs args : List Byte) (p : Nat) (v : Part), Claims.AtCommand s c bs args 0x24 8 0 →
    Claims.Names s args [] p v → v.state = .suspended →
    ∃ (t u : State) (w : Part), exec (.partResume none) s = .next t ∧ u.part? p = some w ∧ w.state = .ready ∧ w.suspending = none ∧
      w.replays = v.replays.map (fun (y : Replay) => { y with dgs := y.dgs.map (fun (d : DieGraph) => { d with forSuspend := false }) }) ∧
      (s.exclusive v = false → w.waitSlice = true) ∧ u.regs = s.regs ∧ u.mem = s.mem ∧
      (let x := if s.exclusive v then u.schedule v.set else u
       t.parts = x.parts ∧ t.regs = x.regs ∧
       t.pkg.inProgress = x.pkg.inProgress ++ [(0x24, p, Claims.field bs 4 4, Claims.field bs 0x18 8, c.started.getD s.tick)])) ∧
  (∀ (s : State) (p : Nat) (v : Part) (e : Nat × Nat × Nat × Nat × Nat), p < 48 → s.part? p = some v → Claims.HostAllows s →
    s.pkg.inProgress.find? (fun x => x.1 == 0x24 && x.2.1 == p) = some e → e.2.2.2.1 + 64 ≤ 2 ^ 46 → s.restoresLeft v = false →
    ∃ t, exec (.partResume (some p)) s = .next t ∧ t.parts = s.parts ∧ t.regs = s.regs ∧
      t.pkg.inProgress = s.pkg.inProgress.filter (fun x => !(x.1 == 0x24 && x.2.1 == p)) ∧
      Claims.ResultAt s.mem t (fun _ => False) e.2.2.2.1 0x24 e.2.2.1 e.2.2.2.2 s.tick 0 0 [] [])

/-- R361, R364, R388: a suspension whose saves have not ended within its bound is undone, once the records written for it can be read: no die
graph of the partition is being saved for it any longer, but on a die that a thermal trip holds, it is in state 0, and no command that suspends
it is in progress. A read that is held holds all of it, and one that faults resets the partition. -/
def Sys2Proof.Claims.SuspendTimesOut : Prop :=
  ∀ (s s1 : State) (p since : Nat) (v : Part) (e : Nat × Nat × Nat × Nat × Nat), p < 48 → s.part? p = some v → v.suspending = some since →
    s.pkg.inProgress.find? (fun x => x.1 == 0x23 && x.2.1 == p) = some e → v.savesOver = false →
    1000 * ((spFind s.sets v.set).map RSet.period).getD 0 + 200000 + 5000000 < s.tick - e.2.2.2.2 →
    (s.readBack p (s.undone p v) = (s1, .ok ()) →
      ∃ t w, exec (.suspendTimeout p) s = .next t ∧ t.part? p = some w ∧ w.state = .ready ∧ w.suspending = none ∧
        ((∀ x ∈ v.dieGraphs, x.2.2.isSaving = true → x.2.2.forSuspend = true ∧ (spGet {} s.pkg.thermal x.2.2.die).tripped = false) →
          ∀ x ∈ w.dieGraphs, x.2.2.isSaving = false) ∧
        t.pkg.inProgress = s.pkg.inProgress.filter (fun x => !(x.1 == 0x23 && x.2.1 == p))) ∧
    (s.readBack p (s.undone p v) = (s1, .held) → exec (.suspendTimeout p) s = .next s1) ∧
    (∀ c a, s.readBack p (s.undone p v) = (s1, .fault c a) →
      ∃ t w, exec (.suspendTimeout p) s = .next t ∧ t.part? p = some w ∧ w.state = .resetting ∧ w.reset ≠ none ∧
        t.pkg.inProgress = s.pkg.inProgress.filter (fun x => !(x.1 == 0x23 && x.2.1 == p)))

/-- Every step of R143 succeeds for the arguments `a`: `p` is the lowest free number; the regions are usable and in no set, or those of
the set of the partition to share with, which has room; each port between them has a slot left; a key and key slots are free; every
entry of the array, every window and every rank entry passes its checks; the queue, if there is one, can be registered; and the host's
memory takes the record ring. -/
def Sys2Proof.Claims.CanCreate (s : State) (a : NewPart) (p key base : Nat) (slots : List (Port × Nat)) (old : Option Nat) : Prop :=
  let v : Part := { s.newPart a (old.getD s.freeSet) key base with slots := slots }
  let q := Claims.field a.args 0x48 8
  createArgsOk a.args = true ∧ p < 48 ∧ s.part? p = none ∧ (∀ n, n < p → s.part? n ≠ none) ∧
  ((a.share = 0xFF ∧ old = none ∧ s.regionsUsable a.regions = true ∧ ∀ e ∈ s.sets, e.2.regions &&& a.regions = 0) ∨
   (a.share ≠ 0xFF ∧ ∃ w t, s.part? a.share = some w ∧ spFind s.sets w.set = some t ∧ w.state = .ready ∧ t.regions = a.regions ∧
      t.members.length < 4 ∧ old = some w.set)) ∧
  s.reserveSlots p a.regions = some slots ∧ s.chooseKey = some key ∧ s.keySlotsFree a.keys = some base ∧
  (∀ i, i < a.entries → s.s2Bad p v a.origin.isSome (Claims.number s.mem (a.s2 + 8 * i) 8) = none) ∧
  a.windows.isSome = true ∧ windowsApart (v.windows.map (fun w => (w.va, w.log2))) = true ∧
  (∀ w ∈ v.windows, windowInside v (w.va, w.log2) = true) ∧
  (∀ i, i < a.ranks.length / 8 → rankBad a.regions key (Claims.field a.ranks (8 * i) 8) = none) ∧
  (q = 0 ∨ ∃ w, (((s.joinSet a p (old.getD s.freeSet) old).setPart p v).modPkg (fun k =>
    { k with keySlots := k.keySlots ++ [(base, a.keys)], keyDraws := k.keyDraws + a.keys })).register p v 0 (Claims.field a.args 0x50 1) q = .ok w) ∧
  a.ring + (64 + 256 * a.ringn + 64 * 64) ≤ 2 ^ 46

/-- `i` makes a partition of the 136 bytes of R141 that stand first in `args`, when every step of R143 succeeds: the number, the key,
the regions, the keys, the array and the slots are those of CanCreate, every other partition is as it was, and the results are the
number and the key, with TICK at the end of each step. -/
def Sys2Proof.Claims.Makes (i : Instr) (s : State) (c : CfwQueue) (bs args : List Byte) (origin : Option Migration) : Prop :=
  ∀ (p key base : Nat) (slots : List (Port × Nat)) (old : Option Nat) (folds ranks : List Byte),
    Claims.CanCreate s { args := args.take 136, folds := folds, ranks := ranks, origin := origin } p key base slots old →
    s.populated (Claims.field args 0x20 8) = true → s.populated (Claims.field args 0x20 8 + 8 * Claims.field args 0x28 4 - 1) = true →
    (if Claims.field args 0x19 1 = 0 then folds = [] else Claims.field args 0x40 8 + 16 * Claims.field args 0x19 1 ≤ 2 ^ 46 ∧
      Claims.HostClean s (Claims.field args 0x40 8) (16 * Claims.field args 0x19 1) ∧
      folds = s.mem.readN (16 * Claims.field args 0x19 1) (0x080000000000 + Claims.field args 0x40 8)) →
    (if Claims.field args 0x38 8 = 0 then ranks = [] else Claims.field args 0x38 8 + 8192 ≤ 2 ^ 46 ∧ Claims.HostClean s (Claims.field args 0x38 8) 8192 ∧
      ranks = s.mem.readN 8192 (0x080000000000 + Claims.field args 0x38 8)) →
    (Claims.field args 0x18 1 ≠ 0xFF → ∀ e ∈ s.pkg.inProgress, e.2.1 ≠ Claims.field args 0x18 1) → (∀ e ∈ s.parts, e.2.forming = none) →
    ∃ t u w more, exec i s = .next t ∧ Claims.Completed s u t c bs 0 0 (toBytes 1 p ++ [0] ++ toBytes 2 key) more ∧
      more = (List.range 9).flatMap (fun _ => toBytes 8 s.tick) ∧ (∀ e ∈ s.parts, e.2.key.toNat ≠ key) ∧
      (∀ e ∈ s.pkg.quarantine, e.1 ≠ key) ∧ 1 ≤ key ∧ key ≤ 0xFFFE ∧ t.part? p = some w ∧
      w.regions.toNat = Claims.field args 0 24 ∧ w.key.toNat = key ∧ w.keys = Claims.field args 0x1A 1 ∧ w.s2 = Claims.field args 0x20 8 ∧
      w.entries = Claims.field args 0x28 4 ∧ w.s1root = Claims.field args 0x30 8 ∧ w.slots = slots ∧
      (w.state = .ready ∨ (origin ≠ none ∧ w.state = .migratingIn)) ∧ (∀ n, n ≠ p → t.part? n = s.part? n) ∧
      w.keyBase = base ∧ t.pkg.keySlots = s.pkg.keySlots ++ [(base, w.keys)]

/-- R141 to R148, R329, R398, R399: PART.CREATE makes a partition when every step of R143 succeeds. PART.MIGRATE.IN does the same for a ticket that
names both ends and verifies under the source's certificate, and the new partition is migrating in while a frame of it is remote. That a create is
one step, so that its nine TICKs are equal (log 68), that the array and the record ring are checked as they are (log 65), and that a ticket which
does not match its arguments is DENIED (log 75) are the model's choices. -/
def Obligations.Creates : Prop :=
  ∀ (s : State) (c : CfwQueue) (bs args : List Byte),
    (Claims.AtCommand s c bs args 0x20 136 72 → Claims.Makes .partCreate s c bs args none) ∧
    (∀ cert, Claims.AtCommand s c bs args 0x26 304 72 → (∀ i ∈ [0x8A, 0x8B, 0x8C, 0x8D, 0x8E, 0x8F, 0x12C, 0x12D, 0x12E, 0x12F], args.getD i 0 = 0) →
      Claims.field args 0x88 2 ≤ 4095 → Claims.field args 0x120 8 % 8 = 0 → 1 ≤ Claims.field args 0x128 4 → Claims.field args 0x128 4 ≤ 4096 →
      Claims.field args 0x120 8 + Claims.field args 0x128 4 ≤ 2 ^ 46 → Claims.HostClean s (Claims.field args 0x120 8) (Claims.field args 0x128 4) →
      cert = s.mem.readN (Claims.field args 0x128 4) (0x080000000000 + Claims.field args 0x120 8) →
      let ticket := (args.drop 0x90).take 144
      ticketOk ticket (Claims.field args 0x88 2) (Claims.field args 0x28 4) = true → (cert, ticket) ∈ s.pkg.signed →
      Claims.Makes .partMigrateIn s c bs args
        (some { peer := Claims.field args 0x88 2, session := BitVec.ofNat 128 (Claims.field ticket 0x18 16), ticket := ticket }))

/-- What the end of a partition leaves (R392, R393): the partition is gone, its key is in quarantine for a second, its key slots are free,
every other partition keeps its key and array, and with the last member of a set its regions are clear and their palettes are zero. -/
def Sys2Proof.Claims.Released (s u : State) (p : Nat) (v : Part) : Prop :=
  u.part? p = none ∧ (v.key.toNat, s.tick + 1000000000) ∈ u.pkg.quarantine ∧ (∀ e ∈ u.pkg.keySlots, e.1 ≠ v.keyBase) ∧
    (∀ n w, n ≠ p → s.part? n = some w → ∃ x, u.part? n = some x ∧ x.key = w.key ∧ x.s2 = w.s2 ∧ x.regions = w.regions) ∧
    (∀ t, spFind s.sets v.set = some t → t.members = [p] → spFind u.sets v.set = none ∧
      ∀ r ∈ maskRegions t.regions, (u.reg r).place = none ∧ (u.reg r).seq = {} ∧ (u.reg r).cells = [] ∧
        ∀ i, i < 2 ^ 21 → u.mem.read (2 ^ 52 + r * 2 ^ 21 + i) = 0)

/-- R392 to R395, R398 to R400: PART.DESTROY with no reset and no record due releases the partition, and its result is the seq of the final
record; a source whose destination reports its end is released the same way, and the host is told; PART.MIGRATE.OUT of a suspended
partition makes it a source without regions, which keeps the VC slots on the path to the fabric ports, and answers its signed ticket, with
the tick of its suspension; a key leaves quarantine when its second is over. That the source has no windows and no images left in its record,
and which slots lie on that path, is the model's choice (log 84). -/
def Obligations.PartitionEnds : Prop :=
  ∀ (s : State) (p : Nat) (v : Part),
    (∀ c bs args, Claims.AtCommand s c bs args 0x21 8 0 → Claims.Names s args [] p v → v.reset = none → s.tick < v.meter.nextDue →
      ∃ t u, exec .partDestroy s = .next t ∧ Claims.Completed s u t c bs 0 0 (toBytes 8 v.meter.seq) [] ∧ Claims.Released s u p v) ∧
    (∀ m : Migration, p < 48 → s.part? p = some v → v.state = .migratingOut → v.migration = some m → s.tick < v.meter.nextDue →
      (∀ e ∈ s.pkg.inProgress, e.2.1 ≠ p) →
      ∃ t, exec (.migrationSourceEnd p m.session) s = .next t ∧ Claims.Released s t p v ∧ t.pkg.out.getLast? = some (.interrupt (2144 + p))) ∧
    (∀ c bs args, Claims.AtCommand s c bs args 0x25 8 144 → Claims.Names s args [(2, 2)] p v → Claims.field args 2 2 ≤ 4095 →
      Claims.field args 2 2 ≠ Config.packageId.toNat → v.state = .suspended →
      ∃ t u w m more, exec .partMigrateOut s = .next t ∧ Claims.Completed s u t c bs 0 0 [] more ∧ more.length = 144 ∧ t.part? p = some w ∧
        w.state = .migratingOut ∧ w.regions = 0 ∧ w.windows = [] ∧ w.images = [] ∧ w.slots = s.fabricSlots v ∧ w.key = v.key ∧ w.s2 = v.s2 ∧ w.migration = some m ∧
        m.peer = Claims.field args 2 2 ∧ more.take 48 = m.ticket ∧
        (more.drop 0x10).take 8 = toBytes 8 v.tsusp ∧
        (let sig := Config.sign 0 m.ticket s.steps
         more.drop 48 = (toBytes 48 sig.1.toNat).reverse ++ (toBytes 48 sig.2.toNat).reverse)) ∧
    (∀ key due, key < 65536 → (key, due) ∈ s.pkg.quarantine →
      ∃ t, exec (.keyQuarantineEnd key) s = .next t ∧ ((key, due) ∈ t.pkg.quarantine ↔ s.tick < due) ∧
        (∀ e, e.1 ≠ key → (e ∈ t.pkg.quarantine ↔ e ∈ s.pkg.quarantine)) ∧ t.parts = s.parts ∧ t.mem = s.mem)

/-! ## Boot, links, degradation, power -/

/-- R35 to R38: power-good starts the boot again: TICK is 0, nothing is measured, no partition, set or queue exists, every region is clear, and the
fuses, the retired marks and the memory beyond HBM stay, of which the memory's staying is the model's choice (log 108). Each later step follows the
one before it, and none follows a failed measurement of XD. Step 3 records the measurement of XD, and step 4 those of the fabric dies, one after the
other; a die whose measurement matches the manifest has its islands ON from then on, and no other has. At step 5 the vats, the palettes and the pads
of the dies that were released are zero. That islands come ON when their die is released is the model's choice (log 109). -/
def Sys2Proof.Claims.Boots : Prop :=
  ∀ s : State,
    (∃ t, exec (.coldReset 0) s = .next t ∧ t.tick = 0 ∧ t.pkg.boot = 0 ∧ t.pkg.measured = [] ∧ t.parts = [] ∧ t.sets = [] ∧ t.pkg.cfw = none ∧
      (∀ r, t.reg r = {}) ∧ t.pkg.retired = s.pkg.retired ∧ t.pkg.fusedRegions = s.pkg.fusedRegions ∧
      (∀ x, 2 ^ 39 ≤ x → t.mem.read x = s.mem.read x)) ∧
    (∀ n, 1 ≤ n → n ≤ 6 → (n ≠ s.pkg.boot + 1 ∨ (4, false) ∈ s.pkg.measured → exec (.coldReset n) s = .next s) ∧
      (n = s.pkg.boot + 1 → (4, false) ∉ s.pkg.measured →
        let now := if n = 3 then [4] else if n = 4 then [s.pkg.measured.length - 1] else []
        ∃ t, exec (.coldReset n) s = .next t ∧ t.tick = s.tick ∧ t.parts = s.parts ∧ t.sets = s.sets ∧
          t.pkg.boot = (if n = 4 ∧ s.pkg.measured.length + 1 < 5 then s.pkg.boot else n) ∧
          t.pkg.measured = s.pkg.measured ++ now.map (fun d => (d, Config.measurement d == Config.manifest d)) ∧
          (∀ d ∈ now, d < 4 → (Config.measurement d = Config.manifest d → ∀ i, i < 10 → spFind t.pkg.vf (10 * d + i) = some .on) ∧
            (Config.measurement d ≠ Config.manifest d → t.pkg.vf = s.pkg.vf)) ∧
          (n ≠ 5 → t.mem = s.mem ∧ t.regs = s.regs) ∧
          (n = 5 → ∀ d, d < 4 → s.presentDie d = true →
            (∀ x, x < 0x8000000 → t.mem.read (0x010000000000 + 0x8000000 * d + x) = 0) ∧
            (∀ r i, r / 48 = d → i < 2 ^ 21 → t.mem.read (2 ^ 52 + r * 2 ^ 21 + i) = 0) ∧ ∀ r, r / 48 = d → (t.reg r).cells = [])))

/-- R35, R37: from boot step 2 on an SPDM request is answered with the payload of its kind, and a request for a measurement that has not been taken
with Busy; no request changes anything else. What the payloads hold is the model's choice (log 15). -/
def Sys2Proof.Claims.SpdmAnswers : Prop :=
  ∀ s : State, 2 ≤ s.pkg.boot →
    let answers := fun (i : Instr) (kind : Nat) (x : Option (List Byte)) => exec i s = .next { s with pkg := { s.pkg with out := s.pkg.out ++ [.spdm kind x] } }
    answers .getVersion 0 (some (Config.spdmReply 0 0)) ∧ answers .getCapabilities 1 (some (Config.spdmReply 1 0)) ∧
    answers .negotiateAlgorithms 2 (some (Config.spdmReply 2 0)) ∧ (∀ slot, slot ≤ 1 → answers (.getCertificate slot) 3 (some (Config.certificate slot))) ∧
    (∀ d, d < 5 → (∀ b, (d, b) ∉ s.pkg.measured) → answers (.getMeasurements (some d)) 4 none) ∧
    (∀ d b, d < 5 → (d, b) ∈ s.pkg.measured → answers (.getMeasurements (some d)) 4 (some (toBytes 48 (Config.measurement d).toNat))) ∧
    (s.pkg.boot < 4 → answers (.getMeasurements none) 4 none) ∧
    (4 ≤ s.pkg.boot → answers (.getMeasurements none) 4 (some (s.pkg.measured.flatMap (fun e => toBytes 48 (Config.measurement e.1).toNat))))

/-- R17, R18, R33, R34: a message whose code does not match is logged and discarded; a link goes on with one module less; a fabric port is marked
slow; a pseudo-channel that no stage-2 entry names is mapped out, so that none of its addresses is populated, and its replicas go, while one that an
entry names is left; poison is held by the bytes it names, whose values stay. That a message with a good code has no effect of its own here is the
model's choice (log 82). -/
def Sys2Proof.Claims.Degrades : Prop :=
  ∀ s : State,
    (∀ die key msg code, die < 5 → s.pkg.linkKeys.find? (fun e => e.1 == die) = some (die, key) →
      exec (.tdLinkMessage die msg code) s = .next { s with pkg := { s.pkg with
        log := s.pkg.log ++ (if Config.linkCode key msg = code then [] else [.badCode die s.tick]) } }) ∧
    (∀ link n, link < 13 → spGet (if link < 4 then 8 else if link < 8 then 4 else 1) s.pkg.lanes link = n + 1 →
      ∃ t, exec (.ucieModuleRemoval link) s = .next t ∧ spFind t.pkg.lanes link = some n ∧ t.parts = s.parts ∧ t.regs = s.regs ∧ t.mem = s.mem) ∧
    (∀ port, port < 16 → ∃ t, exec (.fabricPortDownshift port) s = .next t ∧ (∀ x, x ∈ t.pkg.slowPorts ↔ x = port ∨ x ∈ s.pkg.slowPorts) ∧
      t = { s with pkg := { s.pkg with slowPorts := t.pkg.slowPorts } }) ∧
    (∀ pc, pc < 512 →
      let named := ∃ e ∈ s.parts, ∃ f ∈ s.ownedFrames e.2, f / 2 ^ 30 = pc
      (¬named → ∃ t, exec (.pseudoChannelMapOut pc) s = .next t ∧ (∀ x, x / 2 ^ 30 = pc → t.populated x = false) ∧
        (∀ x ∈ t.pkg.replicas, x.pool / 2 ^ 30 ≠ pc) ∧ t.parts = s.parts ∧ t.regs = s.regs ∧ t.mem = s.mem) ∧
      (named → exec (.pseudoChannelMapOut pc) s = .next s)) ∧
    (∀ pa n, 0 < n → s.populated pa = true → s.populated (pa + n - 1) = true →
      ∃ t, exec (.memoryPoison pa n) s = .next t ∧ (∀ x, x ∈ t.mem.poison ↔ (pa ≤ x ∧ x < pa + n) ∨ x ∈ s.mem.poison) ∧
        (∀ x, t.mem.read x = s.mem.read x) ∧ t.regs = s.regs ∧ t.parts = s.parts)

/-- R28, R29, R36, R386: a column that nobody holds can be held, unless it is OFF (log 107), or turned off, and any column can be turned on, on
a die that has been released and that no thermal trip holds; a column of a partition or a set is neither held nor turned off. A column that is
turned off keeps no state of its tiles but the marks of the retired ones and the isolations that TD has logged: its palettes, pads and vat
slices are zero. No column of a die that has not been released is moved, and no other island. What stays behind beside R386 is the model's
choice (log 107). -/
def Sys2Proof.Claims.ColumnStates : Prop :=
  (∀ (s : State) (vf : Nat), vf < 40 → vf % 10 < 8 → s.released (vf / 10) = true → s.tripped (vf / 10) = false →
    let becomes := fun (x : VfState) => ∃ t, exec (.islandStateChange vf x) s = .next t ∧ spFind t.pkg.vf vf = some x ∧
      (∀ n, n ≠ vf → spFind t.pkg.vf n = spFind s.pkg.vf n) ∧ t.parts = s.parts ∧
      (x ≠ .off → t.regs = s.regs ∧ t.mem = s.mem) ∧
      (x = .off → ∀ row, row < 6 → let r := 48 * (vf / 10) + 8 * row + vf % 10
        (t.reg r).cells = [] ∧ (t.reg r).seq = {} ∧ (t.reg r).tags = [] ∧ (t.reg r).streams = [] ∧ (t.reg r).remapping = [] ∧
        (∀ n u, n ≠ 354 → ((n, u) ∈ (t.reg r).tiles ↔ ∃ v, (n, v) ∈ (s.reg r).tiles ∧ (v.state = 6 ∨ v.isolations ≠ []) ∧
          u = (if v.state = 6 then { state := 6, past := [(0, 6)], silent := true, isolations := v.isolations } else { isolations := v.isolations }))) ∧
        ((t.reg r).tiles.map Prod.fst).contains 354 = ((s.reg r).tiles.map Prod.fst).contains 354 ∧
        ∀ i, i < 2 ^ 21 → t.mem.read (2 ^ 52 + r * 2 ^ 21 + i) = 0 ∧ t.mem.read (sliceBase r + i) = 0)
    becomes .on ∧ (s.columnFree vf = true → becomes .off ∧ (spGet .on s.pkg.vf vf ≠ .off → becomes .hold)) ∧
    (s.columnFree vf = false → ∀ x, x ≠ .on → exec (.islandStateChange vf x) s = .next s)) ∧
  (∀ (s : State) (vf : Nat) (x : VfState), vf < 48 → ¬(vf < 40 ∧ vf % 10 < 8) ∨ s.released (vf / 10) = false →
    exec (.islandStateChange vf x) s = .next s)

/-- R36, R368, R388: a level of at most 60 is set on a column, and a higher one never; a die that has been above its trip point for 1 ms with
every level at 60 trips: it is logged, and every partition with a die graph placed, being saved or being restored on it starts to reset with
THERMAL_TRIP; without one the columns of a released die go to HOLD. A tripped die that has been below its recovery point for 1 s returns all
its columns to ON; those of a die that was not released stay as they are. -/
def Sys2Proof.Claims.ThermalSteps : Prop :=
  ∀ s : State,
    (∀ vf level, vf < 40 → vf % 10 < 8 → (level ≤ 60 → ∃ t, exec (.throttleLevelSet vf level) s = .next t ∧ spFind t.pkg.throttle vf = some level ∧
        (∀ n, n ≠ vf → spFind t.pkg.throttle n = spFind s.pkg.throttle n) ∧ t.regs = s.regs ∧ t.parts = s.parts ∧ t.mem = s.mem) ∧
      (60 < level → exec (.throttleLevelSet vf level) s = .next s)) ∧
    (∀ die, die < 4 →
      let z := spGet {} s.pkg.thermal die
      (z.tripped = false → z.zone = .aboveTrip → 1000000 ≤ s.tick - z.since → (∀ c, c < 8 → spGet 0 s.pkg.throttle (10 * die + c) = 60) →
        ∃ t, exec (.thermalTrip die) s = .next t ∧ (spGet {} t.pkg.thermal die).tripped = true ∧ t.pkg.log = s.pkg.log ++ [.thermal die s.tick] ∧
          t.regs = s.regs ∧ t.mem = s.mem ∧
          (∀ e ∈ s.parts, s.part? e.1 = some e.2 → e.2.placedOnDie die = true → e.2.reset = none → ∃ w q, t.part? e.1 = some w ∧ w.state = .resetting ∧
            w.reset = some q ∧ q.cause = 0x142) ∧
          ((∀ e ∈ s.parts, e.2.placedOnDie die = false) → s.released die = true → ∀ c, c < 8 → spFind t.pkg.vf (10 * die + c) = some .hold) ∧
          (s.released die = false → t.pkg.vf = s.pkg.vf)) ∧
      (z.tripped = true → z.zone = .belowRecovery → 1000000000 ≤ s.tick - z.since →
        ∃ t, exec (.thermalRecovery die) s = .next t ∧ (spGet {} t.pkg.thermal die).tripped = false ∧
          (s.released die = true → ∀ c, c < 8 → spFind t.pkg.vf (10 * die + c) = some .on)))

/-! ## The health of the tiles -/

/-- Tile `x` becomes `v`; no other tile, no sequencer, no partition and no byte of memory changes. -/
def Sys2Proof.Claims.TileBecomes (s t : State) (x : TileId) (v : Tile) : Prop :=
  t.tile x = v ∧ (∀ y, y ≠ x → t.tile y = s.tile y) ∧ (∀ r, (t.reg r).seq = (s.reg r).seq) ∧ t.parts = s.parts ∧ t.mem = s.mem

/-- R372, R373, R385, R386: once in a period a tile whose island is ON and that has not fallen silent sends a heartbeat with its state and its state
digest to its audience, whatever its state, and one that appeals sends its signature behind it; a tile that babbles sends beats that break R373.
Otherwise it sends nothing. Who is in the audience of a beat is the model's choice (log 78). -/
def Sys2Proof.Claims.HeartbeatSent : Prop :=
  ∀ (s : State) (r n : Nat), r < 192 → n < 354 →
    let x := s.tile (r, n)
    let d := s.stateDigest (r, n)
    let seq1 := (x.seq + 1) % 2 ^ 16
    let seq2 := (seq1 + 1) % 2 ^ 16
    (s.asleep (r, n) = true ∨ x.silent = true ∨ x.period < x.sent → exec (.heartbeatPeriod r n) s = .next s) ∧
    (s.asleep (r, n) = false → x.silent = false → x.sent ≤ x.period →
      ∃ t l, exec (.heartbeatPeriod r n) s = .next t ∧
        Claims.TileBecomes s t (r, n) { x with sent := x.period + 1, digest := d, seq := if x.state = 4 then seq2 else seq1
                                               probation := if x.state = 5 then x.probation + 1 else x.probation
                                               appealBeats := if x.state = 4 then x.appealBeats + 1 else x.appealBeats } ∧
        t.pkg.beats = s.pkg.beats ++ l ∧ (∀ u ∈ s.audience (r, n), ∃ b ∈ l, b.dst = 2 ^ 16 * u.1 + u.2 ∧ b.kind = 0) ∧
        (x.state = 4 → ∀ u ∈ s.audience (r, n), ∃ b ∈ l, b.dst = 2 ^ 16 * u.1 + u.2 ∧ b.kind = 4) ∧
        (∀ b ∈ l, b.sender = 2 ^ 16 * r + n ∧ b.state = x.state ∧ b.subject = 0 ∧ b.zeros = !x.babbling ∧ b.per = s.per (r, n) ∧
          ((b.kind = 0 ∧ b.seq = seq1 ∧ b.payload = d) ∨ (x.state = 4 ∧ b.kind = 4 ∧ b.seq = seq2 ∧ b.payload = x.sig))))

/-- Tile `x`, whose island is ON, stands before its oldest beat, which keeps to R373; if the tile keeps counts about the sender, it is of
the current period, next in its order and no second heartbeat (R374). -/
def Sys2Proof.Claims.Hears (s : State) (x : TileId) (b : Beat) (rest : List Beat) : Prop :=
  let w := (s.tile x).about (identTile b.sender)
  x.1 < 192 ∧ x.2 < 355 ∧ s.nextBeat x = some (b, rest) ∧ s.asleep x = false ∧
    b.zeros = true ∧ b.state ≤ 6 ∧ (b.kind = 0 ∨ b.kind = 4 → b.subject = 0) ∧ (b.kind ≠ 0 → b.kind ≠ 4 → b.payload = 0) ∧
    (s.watches x (identTile b.sender) = true → b.seq = (w.lastSeq + 1) % 2 ^ 16 ∧ b.per = s.per x ∧ ¬(b.kind = 0 ∧ w.beat = true))

/-- R374 to R377, R379, R385: what a beat does to the tile that takes it. A heartbeat clears the sender's miss count, if the tile watches
it; an accusation is counted with age 0, a withdrawal removes it; a fence beat sends its isolated subject to the self-test and tells any
other tile which links to close; an appeal with the golden signature adds one to the sender's appeals and another resets them; an admit
vote is kept. Where the tile is a router that endorses an accusation or a vote, it forwards it to the sender. -/
def Sys2Proof.Claims.BeatsTaken : Prop :=
  ∀ (s : State) (x : TileId) (b : Beat) (rest : List Beat), Claims.Hears s x b rest →
    let v := s.tile x
    let watched := s.watches x (identTile b.sender)
    let w1 : Watch := { v.about (identTile b.sender) with lastSeq := b.seq }
    let heard := fun (u : Watch) => { v with watch := spInsert v.watch b.sender u }
    let v1 := if watched || decide (observer (identTile b.sender) = x) then heard w1 else v
    let takes := fun (i : Instr) (u : Tile) => ∃ t, exec i s = .next t ∧ Claims.TileBecomes s t x u ∧ t.pkg = { s.pkg with beats := rest }
    let forwards := fun (i : Instr) (u : Tile) => (s.endorses x b = false → takes i u) ∧
      (s.endorses x b = true → ∃ t l, exec i s = .next t ∧ Claims.TileBecomes s t x { u with seq := (u.seq + 1) % 2 ^ 16 } ∧
        t.pkg = { s.pkg with beats := rest ++ l } ∧ (∃ c ∈ l, c.dst = b.sender) ∧
        ∀ c ∈ l, c.sender = tileIdent x ∧ c.kind = b.kind ∧ c.subject = b.subject ∧ c.seq = (u.seq + 1) % 2 ^ 16)
    (b.kind = 0 → takes (.heartbeat x.1 x.2) (if watched then heard { w1 with miss := 0, beat := true } else v1)) ∧
    (b.kind = 1 → forwards (.accuse x.1 x.2) { v1 with
      accusations := v.accusations.filter (fun a => !(a.1 == b.sender && a.2.1 == b.subject)) ++ [(b.sender, b.subject, 0)] }) ∧
    (b.kind = 2 → takes (.withdraw x.1 x.2) { v1 with
      accusations := v.accusations.filter (fun a => !(a.1 == b.sender && a.2.1 == b.subject)) }) ∧
    (b.kind = 3 → b.subject = tileIdent x → takes (.fenceBeat x.1 x.2)
      (if v.state = 2 then { v1 with state := 3, past := (s.per x + 1, 3) :: v.past.filter (fun e => decide (e.1 ≤ s.per x)), since := 0 } else v1)) ∧
    (b.kind = 3 → b.subject ≠ tileIdent x → takes (.fenceBeat x.1 x.2) { v1 with fenced := natInsert v.fenced b.subject }) ∧
    (b.kind = 4 → watched = false → takes (.appeal x.1 x.2) v1) ∧
    (b.kind = 4 → watched = true →
      let good := s.pkg.golden.any (fun e => e.1 == tileKind (identTile b.sender).2 && e.2 == b.payload)
      ∃ t, exec (.appeal x.1 x.2) s = .next t ∧
        (t.tile x).about (identTile b.sender) = { w1 with appealed := true, appeals := if good then w1.appeals + 1 else 0 } ∧
        (∀ y, y ≠ identTile b.sender → (t.tile x).about y = v.about y) ∧
        (t.tile x).state = v.state ∧ (t.tile x).accusations = v.accusations ∧ (∀ y, y ≠ x → t.tile y = s.tile y) ∧
        t.pkg = { s.pkg with beats := rest } ∧ t.parts = s.parts ∧ t.mem = s.mem) ∧
    (b.kind = 5 → forwards (.admitBeat x.1 x.2) { v1 with admits := v.admits.filter (fun a => a != (b.sender, b.subject)) ++ [(b.sender, b.subject)] })

/-- R374: a beat that breaks R373, from a tile that is watched, is an event of babble and has no other effect, but that the next beat is
held to its sequence number, which is the model's choice (log 76). -/
def Sys2Proof.Claims.BabbleCounted : Prop :=
  ∀ (s : State) (x : TileId) (b : Beat) (rest : List Beat), x.1 < 192 → x.2 < 355 → s.nextBeat x = some (b, rest) → s.asleep x = false →
    s.watches x (identTile b.sender) = true → b.wellFormed = false →
    let w := (s.tile x).about (identTile b.sender)
    let w1 : Watch := { w with lastSeq := b.seq, babble := Nat.min 3 (w.babble + 1), babbled := true, appeals := 0 }
    ∃ t, exec (.heartbeat x.1 x.2) s = .next t ∧ t.pkg = { s.pkg with beats := rest } ∧
      Claims.TileBecomes s t x { s.tile x with watch := spInsert (s.tile x).watch b.sender w1 }

/-- R379, R385: the self-test of a tile in TESTING ends with its signature, and the tile appeals (whether one that fell silent or babbled
still does is free, log 16); 4,096 appeal beats send it back to its test; 2^20 heartbeats end PROBATION; a tile that fails falls silent or
babbles. In any other state these leave the tile as it is. -/
def Sys2Proof.Claims.TileSteps : Prop :=
  ∀ (s : State) (r n : Nat), r < 192 → n < 354 →
    let v := s.tile (r, n)
    let per := s.per (r, n)
    let into := fun (st : Nat) => { v with state := st, past := (per + 1, st) :: v.past.filter (fun e => decide (e.1 ≤ per)) }
    let becomes := fun (i : Instr) (u : Tile) => ∃ t, exec i s = .next t ∧ Claims.TileBecomes s t (r, n) u ∧ t.pkg = s.pkg
    becomes (.bistEnd r n) (if v.state = 3 then { into 4 with
      sig := Config.bist (2 ^ 16 * r + n) s.steps, appealBeats := 0, silent := v.silent && Config.freeBool s.steps 0
      babbling := v.babbling && Config.freeBool s.steps 1 } else v) ∧
    becomes (.appealLimit r n) (if v.state = 4 ∧ 4096 ≤ v.appealBeats then { into 3 with appealBeats := 0 } else v) ∧
    becomes (.probationEnd r n) (if v.state = 5 ∧ 2 ^ 20 ≤ v.probation then { into 0 with probation := 0 } else v) ∧
    becomes (.tileFallsSilent r n false) { v with silent := true } ∧ becomes (.tileFallsSilent r n true) { v with babbling := true }

/-- R374, R376: a period ends for a tile once its clock says so and the beats of the period have come. The end of a period of a healthy tile that
neither accuses nor hears of an accusation: what it holds about each tile it watches has its counts moved by one period, no beat is sent and no
tile's state changes, and the tile's next period begins. That it waits for the beats of the period is the model's choice (log 76). -/
def Sys2Proof.Claims.QuietPeriodEnds : Prop :=
  ∀ (s : State) (r n : Nat), r < 192 → n < 354 →
    let x := (r, n)
    let v := s.tile x
    let per := s.per x
    let moved := fun (y : TileId) => (v.about y).periodEnd (s.beatDue y) ((s.tile y).state == 4)
    (s.asleep x = true ∨ s.periodOver x = false → exec (.periodEnd r n) s = .next s) ∧
    (s.asleep x = false → s.periodOver x = true → v.state = 0 → v.stateAt per = 0 → v.accusations = [] → v.fenced = [] →
      (∀ y ∈ s.watched x per, (s.tile y).state = 0 ∧ (s.tile y).stateAt per = 0 ∧ (v.about y).accuse = false ∧ (moved y).accuses = false) →
      ∃ t, exec (.periodEnd r n) s = .next t ∧ (t.tile x).period = v.period + 1 ∧ (t.tile x).state = 0 ∧ (t.tile x).past = v.past ∧
        (∀ y ∈ s.watched x per, (t.tile x).about y = { moved y with accuse := false }) ∧ (∀ y, y ≠ x → t.tile y = s.tile y) ∧
        t.pkg = s.pkg ∧ t.parts = s.parts ∧ t.mem = s.mem)

/-- R383, R384: a remap takes the column of the cell that was isolated first out of service; each isolated cell of that column starts from
the mirrored checkpoint with a pad of zeros, and its old pad comes back with no replay. When a cell of another column waits as well, the
region retires. -/
def Sys2Proof.Claims.ColumnRemapped : Prop :=
  ∀ (s : State) (r : Nat), r < 192 →
    ((s.reg r).remapping = [] → exec (.remap r) s = .next s) ∧
    (∀ c l, (s.reg r).remapping = c :: l →
      let spare := if c % 16 < (s.reg r).spare then c % 16 else c % 16 + 1
      ∃ t, exec (.remap r) s = .next t ∧ (t.reg r).spare = spare ∧ (t.reg r).remapping = [] ∧
        ((∀ d ∈ l, d % 16 = c % 16) → (∀ d ∈ c :: l, (t.reg r).cell d = { spGet {} (s.reg r).mirrors d with pad := [] }) ∧
          (∀ d, d ∉ c :: l → (t.reg r).cell d = (s.reg r).cell d) ∧
          (∀ bank, ∀ k ∈ ((t.reg r).bank bank).checks, ∀ e ∈ k.cells, e.1 ∈ c :: l → e.2.pad = []) ∧
          (t.reg r).seq = (s.reg r).seq ∧ Claims.OnlyRegion s t r) ∧
        ((∃ d ∈ l, d % 16 ≠ c % 16) → t.pkg.retired.getLsbD r = true))

/-- R379, R386: a vote that isolates a live tile leaves it ISOLATED, or retired when it was in PROBATION or this is its fourth isolation in
24 hours; the isolation is kept with its TICK and logged with the digest of the tile's last heartbeat, and no other tile changes. -/
def Sys2Proof.Claims.TileIsolated : Prop :=
  ∀ (s : State) (r n per : Nat), tileLive (s.tile (r, n)).state = true →
    let v := s.tile (r, n)
    let u := s.isolate (r, n) per
    (u.tile (r, n)).state = (if v.state = 5 ∨ 3 ≤ (v.isolations.filter (fun t => decide (s.tick - t < 86400000000000))).length then 6 else 2) ∧
    (u.tile (r, n)).isolations = v.isolations ++ [s.tick] ∧ (∀ y, y ≠ (r, n) → u.tile y = s.tile y) ∧
    u.pkg.log = s.pkg.log ++ [.isolation (2 ^ 16 * r + n) s.tick v.digest] ∧ u.mem = s.mem

/-! ## The statements that are made of several -/

/-- Words written out in the spec decode to their instructions, and the first decode checks come in order. -/
def Obligations.WordsDecode : Prop := Claims.SpecExampleWords ∧ Claims.DecodeCheckOrder

/-- A step runs the instruction that the words at the program counter decode to. -/
def Obligations.StepRunsDecoded : Prop := Claims.StepRunsFetched ∧ Claims.StepRunsCachedWord

/-- An agenda turn, and a pending cause, go before the next fetch (the agenda is the model's choice, log 3). -/
def Obligations.StepTurns : Prop := Claims.StepTakesAgenda ∧ Claims.PendingCauseGoesFirst

/-- What the reset state holds (general registers and predicates as log 1 chooses). -/
def Obligations.ResetState : Prop := Claims.ResetMemoryCanonical ∧ Claims.ResetLeaves

/-- Division truncates, with its corners and its trap; the saturating sums clamp and set STATUS.sat. -/
def Obligations.DivisionAndSaturation : Prop := Claims.Division ∧ Claims.SaturatingSums

/-- Branches and jumps, with the link of jal and jalr, the count of dbnz and the trap of jalr. -/
def Obligations.ControlTransfers : Prop := Claims.ControlTransfers ∧ Claims.JalrMisaligned

/-- nop, end, yield, brk, trap and eret. -/
def Obligations.SysInstructions : Prop := Claims.SysEffects ∧ Claims.SoftwareTraps ∧ Claims.EretReturns

/-- What a delivery writes, and when it is fatal. -/
def Obligations.Deliveries : Prop := Claims.DeliveryRegisters ∧ Claims.FatalDelivery

/-- csrr, csrw, csrs and csrc on every control register, what it holds, and their two causes. -/
def Obligations.ControlRegisters : Prop := Claims.ControlRegisterOps ∧ Claims.ControlRegisterValues ∧ Claims.ControlRegisterTraps

/-- ld and st complete, with the bytes they read and write and their frame. -/
def Obligations.LoadsAndStores : Prop := Claims.LoadCompletes ∧ Claims.StoreCompletes

/-- cfg.drain, cfg.param, cfg.abort, cfg.unbind and cfg.query. -/
def Obligations.CfgCommands : Prop := Claims.CfgDrainParamAbort ∧ Claims.CfgAbortEndsBlocks ∧ Claims.CfgUnbindEndsBindings ∧ Claims.CfgQueryItems

/-- cfg.load loads a block, and cfg.run starts it. -/
def Obligations.CfgLoadRun : Prop := Claims.CfgLoadCompletes ∧ Claims.CfgRunStartsBlock

/-- strm.go, strm.bar, strm.close, strm.seek, strm.filt, strm.bind, strm.pos and strm.stat. -/
def Obligations.StrmCommands : Prop := Claims.StrmCommands ∧ Claims.StrmBindAddsEntry ∧ Claims.StrmReads

/-- The refusals of the cfg and strm groups. -/
def Obligations.CfgStrmTraps : Prop := Claims.CfgTraps ∧ Claims.StrmTraps

/-- The tag instructions on the own region's tags. -/
def Obligations.TagInstructions : Prop := Claims.TagInstructions ∧ Claims.TagWaitAndTest ∧ Claims.TagArmEvaluates

/-- tag.sig and fold send their messages; commit and land.test claim landing slots. -/
def Obligations.MessagesSent : Prop := Claims.TagSigSends ∧ Claims.FoldIsSent ∧ Claims.LandingSlots

/-- The refusals of the tag group and of fold. -/
def Obligations.TagFoldTraps : Prop := Claims.TagTraps ∧ Claims.FoldTraps

/-- push, pull and pushn enter the copy queue and move nothing. -/
def Obligations.CopiesQueue : Prop := Claims.CopyInstructionsQueue

/-- The refusals of the copy and channel groups. -/
def Obligations.CopyChannelTraps : Prop := Claims.CopyTraps ∧ Claims.ChannelTraps

/-- A sector of a copy of each kind moves its bytes alone, a bit that is due is set, and a finished copy decrements its tag. -/
def Obligations.CopyEngine : Prop := Claims.CopySectorMoves ∧ Claims.CopySectorPlaces ∧ Claims.BitmapWriteEvaluates ∧ Claims.CopyCompletionDecrements

/-- chn.send, chn.recv, chn.close and chn.stat. -/
def Obligations.ChannelTransfers : Prop := Claims.ChannelTransfers ∧ Claims.ChannelStatus

/-- launch accepts a replay, traps, or waits. -/
def Obligations.Launches : Prop := Claims.LaunchAccepts ∧ Claims.LaunchTraps

/-- A replay begins with its graph object, and ends with its frame written. -/
def Obligations.ReplayLife : Prop := Claims.ReplayBegins ∧ Claims.ReplayEnds

/-- Queue headers are registered and read, and stop their queue when they break the rules. -/
def Obligations.QueueHeaders : Prop := Claims.HeaderRead ∧ Claims.CfwHeaderRead ∧ Claims.CfwqRegisters

/-- NOP, LAUNCH, PATCH, INVAL, HCOPY, waiting SIGNALs and malformed packets. -/
def Obligations.QueuePackets : Prop := Claims.PacketsParsed ∧ Claims.MalformedStops ∧ Claims.LaunchParsed ∧ Claims.PatchInval ∧ Claims.InvalTurn

/-- A GATE waits, passes or times out. -/
def Obligations.Gates : Prop := Claims.GateWaits ∧ Claims.GateEnds

/-- A SIGNAL writes its counter; an HCOPY moves its sectors and ends. -/
def Obligations.SignalsAndCopies : Prop := Claims.SignalPerformed ∧ Claims.HcopyMoves

/-- Signals, done tokens and armed words act on their tags; the region router delivers words. -/
def Obligations.MessagesArrive : Prop := Claims.SignalApplied ∧ Claims.DoneTokenUnblocks ∧ Claims.ArmEvaluated ∧ Claims.RouterTakesWord

/-- Rank frames land, are dropped, acknowledged and sent again. -/
def Obligations.RankFrames : Prop := Claims.KeyMismatchDrops ∧ Claims.RankFrameLands ∧ Claims.RankFramesAcknowledged

/-- An owner applies a fold and returns its old value; orphans come back and windows are re-homed. -/
def Obligations.FoldsAtOwner : Prop := Claims.FoldApplied ∧ Claims.FoldHolds ∧ Claims.FoldWithoutOwner ∧ Claims.FoldReturned ∧ Claims.OrphanReturned ∧ Claims.WindowRehomed

/-- Decode and fetch faults and queued causes enter the handler; a yield times out. -/
def Obligations.FaultsDelivered : Prop := Claims.DecodeFaultTraps ∧ Claims.CauseDelivered ∧ Claims.YieldTimesOut

/-- Streams deliver and take words and hold the extents they asked for. -/
def Obligations.StreamAgents : Prop := Claims.StreamDelivers ∧ Claims.StreamTakesWord ∧ Claims.ExtentAnswered

/-- Timing islands execute a slot, wait, and switch to a block. -/
def Obligations.Islands : Prop := Claims.IslandSlotRuns ∧ Claims.IslandSlotWaits ∧ Claims.IslandSwitches ∧ Claims.IntegerLanes ∧
  Claims.FloatLanes ∧ Claims.CellFiles ∧ Claims.CellPlaces

/-- The steps of an edge unit, and what its ops give, but for cvt with a float type, fold.x of BF16 or fast, and the elements of quant.mx. -/
def Obligations.EdgeSteps : Prop := Claims.EdgeSteps ∧ Claims.EdgeData ∧ Claims.EdgeOps ∧ Claims.FoldRegisters ∧ Claims.FunctionSpecials

/-- Rounds pass their fences, commit and replay; a drained bank is empty. -/
def Obligations.Rounds : Prop := Claims.FencePasses ∧ Claims.LastRoundComputed ∧ Claims.RoundCommits ∧ Claims.RoundReplays ∧ Claims.BankDrains

/-- Gang ticks pass the slice on, and placement starts regions at their entry. -/
def Obligations.Scheduling : Prop := Claims.PlacedRegion ∧ Claims.GangTickOwner ∧ Claims.SchedulerPlaces

/-- Regions complete, are marked and are saved; a late save is a miss. -/
def Obligations.StageEnds : Prop := Claims.RegionCompletes ∧ Claims.MarkerArrives ∧ Claims.RegionSaved ∧ Claims.SaveDeadlinePasses

/-- PART.SUSPEND and PART.RESUME start and complete, and a suspension times out. -/
def Obligations.SuspendResume : Prop := Claims.Suspends ∧ Claims.Resumes ∧ Claims.SuspendTimesOut

/-- Replicas, collapses and pulled frames. -/
def Obligations.Invalidations : Prop := Claims.ReplicaCreated ∧ Claims.FrameCollapses ∧ Claims.FramePulled ∧ Claims.PullServed

/-- Metering windows and usage records. -/
def Obligations.Metering : Prop := Claims.WindowCloses ∧ Claims.UsageRecorded

/-- Unknown commands, device and partition reports, and the registration of queues. -/
def Obligations.QueryCommands : Prop := Claims.BadCommandCompletes ∧ Claims.DeviceCommands ∧ Claims.ReportCommands ∧ Claims.QueueCommands

/-- RANK.SET, METER.ARM and the stage-2 commands. -/
def Obligations.TableCommands : Prop := Claims.TableCommands ∧ Claims.StageTwoCommands

/-- Boot, SPDM, links, degradation, columns and thermal trips. -/
def Obligations.BootAndDegradation : Prop := Claims.Boots ∧ Claims.SpdmAnswers ∧ Claims.Degrades ∧ Claims.ColumnStates ∧ Claims.ThermalSteps

/-- Beats, counts, self-tests, periods, remaps and isolations of tiles. -/
def Obligations.Health : Prop := Claims.HeartbeatSent ∧ Claims.BeatsTaken ∧ Claims.BabbleCounted ∧ Claims.TileSteps ∧ Claims.QuietPeriodEnds ∧ Claims.ColumnRemapped ∧ Claims.TileIsolated
end

