-- ==== Sys2Proof/Laws/State.lean ====
section
/-!
SUPPORT. What each update of the state and of a sequencer leaves as it was: one lemma per field and update.
-/
namespace Sys2Proof.Machine

/-! ## Updates of the state -/

@[simp] theorem State.setReg_tick (s : State) (r : Nat) (v : Region) : (s.setReg r v).tick = s.tick := rfl
@[simp] theorem State.setReg_steps (s : State) (r : Nat) (v : Region) : (s.setReg r v).steps = s.steps := rfl
@[simp] theorem State.setReg_agenda (s : State) (r : Nat) (v : Region) : (s.setReg r v).agenda = s.agenda := rfl
@[simp] theorem State.setReg_cur (s : State) (r : Nat) (v : Region) : (s.setReg r v).cur = s.cur := rfl
@[simp] theorem State.setReg_pkg (s : State) (r : Nat) (v : Region) : (s.setReg r v).pkg = s.pkg := rfl
@[simp] theorem State.setReg_parts (s : State) (r : Nat) (v : Region) : (s.setReg r v).parts = s.parts := rfl
@[simp] theorem State.setReg_sets (s : State) (r : Nat) (v : Region) : (s.setReg r v).sets = s.sets := rfl
@[simp] theorem State.setReg_mem (s : State) (r : Nat) (v : Region) : (s.setReg r v).mem = s.mem := rfl
@[simp] theorem State.setReg_regs (s : State) (r : Nat) (v : Region) : (s.setReg r v).regs = spInsert s.regs r v := rfl
@[simp] theorem State.modReg_tick (s : State) (r : Nat) (f : Region → Region) : (s.modReg r f).tick = s.tick := rfl
@[simp] theorem State.modReg_steps (s : State) (r : Nat) (f : Region → Region) : (s.modReg r f).steps = s.steps := rfl
@[simp] theorem State.modReg_agenda (s : State) (r : Nat) (f : Region → Region) : (s.modReg r f).agenda = s.agenda := rfl
@[simp] theorem State.modReg_cur (s : State) (r : Nat) (f : Region → Region) : (s.modReg r f).cur = s.cur := rfl
@[simp] theorem State.modReg_pkg (s : State) (r : Nat) (f : Region → Region) : (s.modReg r f).pkg = s.pkg := rfl
@[simp] theorem State.modReg_parts (s : State) (r : Nat) (f : Region → Region) : (s.modReg r f).parts = s.parts := rfl
@[simp] theorem State.modReg_sets (s : State) (r : Nat) (f : Region → Region) : (s.modReg r f).sets = s.sets := rfl
@[simp] theorem State.modReg_mem (s : State) (r : Nat) (f : Region → Region) : (s.modReg r f).mem = s.mem := rfl
@[simp] theorem State.modReg_regs (s : State) (r : Nat) (f : Region → Region) : (s.modReg r f).regs = spInsert s.regs r (f (s.reg r)) := rfl
@[simp] theorem State.setPart_tick (s : State) (p : Nat) (v : Part) : (s.setPart p v).tick = s.tick := rfl
@[simp] theorem State.setPart_steps (s : State) (p : Nat) (v : Part) : (s.setPart p v).steps = s.steps := rfl
@[simp] theorem State.setPart_agenda (s : State) (p : Nat) (v : Part) : (s.setPart p v).agenda = s.agenda := rfl
@[simp] theorem State.setPart_cur (s : State) (p : Nat) (v : Part) : (s.setPart p v).cur = s.cur := rfl
@[simp] theorem State.setPart_pkg (s : State) (p : Nat) (v : Part) : (s.setPart p v).pkg = s.pkg := rfl
@[simp] theorem State.setPart_sets (s : State) (p : Nat) (v : Part) : (s.setPart p v).sets = s.sets := rfl
@[simp] theorem State.setPart_regs (s : State) (p : Nat) (v : Part) : (s.setPart p v).regs = s.regs := rfl
@[simp] theorem State.setPart_mem (s : State) (p : Nat) (v : Part) : (s.setPart p v).mem = s.mem := rfl
@[simp] theorem State.setPart_parts (s : State) (p : Nat) (v : Part) : (s.setPart p v).parts = spInsert s.parts p v := rfl
@[simp] theorem State.modPart_tick (s : State) (p : Nat) (f : Part → Part) : (s.modPart p f).tick = s.tick := by unfold State.modPart; split <;> rfl
@[simp] theorem State.modPart_steps (s : State) (p : Nat) (f : Part → Part) : (s.modPart p f).steps = s.steps := by unfold State.modPart; split <;> rfl
@[simp] theorem State.modPart_agenda (s : State) (p : Nat) (f : Part → Part) : (s.modPart p f).agenda = s.agenda := by unfold State.modPart; split <;> rfl
@[simp] theorem State.modPart_cur (s : State) (p : Nat) (f : Part → Part) : (s.modPart p f).cur = s.cur := by unfold State.modPart; split <;> rfl
@[simp] theorem State.modPart_pkg (s : State) (p : Nat) (f : Part → Part) : (s.modPart p f).pkg = s.pkg := by unfold State.modPart; split <;> rfl
@[simp] theorem State.modPart_sets (s : State) (p : Nat) (f : Part → Part) : (s.modPart p f).sets = s.sets := by unfold State.modPart; split <;> rfl
@[simp] theorem State.modPart_regs (s : State) (p : Nat) (f : Part → Part) : (s.modPart p f).regs = s.regs := by unfold State.modPart; split <;> rfl
@[simp] theorem State.modPart_mem (s : State) (p : Nat) (f : Part → Part) : (s.modPart p f).mem = s.mem := by unfold State.modPart; split <;> rfl
@[simp] theorem State.modPkg_tick (s : State) (f : Pkg → Pkg) : (s.modPkg f).tick = s.tick := rfl
@[simp] theorem State.modPkg_steps (s : State) (f : Pkg → Pkg) : (s.modPkg f).steps = s.steps := rfl
@[simp] theorem State.modPkg_agenda (s : State) (f : Pkg → Pkg) : (s.modPkg f).agenda = s.agenda := rfl
@[simp] theorem State.modPkg_cur (s : State) (f : Pkg → Pkg) : (s.modPkg f).cur = s.cur := rfl
@[simp] theorem State.modPkg_parts (s : State) (f : Pkg → Pkg) : (s.modPkg f).parts = s.parts := rfl
@[simp] theorem State.modPkg_sets (s : State) (f : Pkg → Pkg) : (s.modPkg f).sets = s.sets := rfl
@[simp] theorem State.modPkg_regs (s : State) (f : Pkg → Pkg) : (s.modPkg f).regs = s.regs := rfl
@[simp] theorem State.modPkg_mem (s : State) (f : Pkg → Pkg) : (s.modPkg f).mem = s.mem := rfl
@[simp] theorem State.modPkg_pkg (s : State) (f : Pkg → Pkg) : (s.modPkg f).pkg = f s.pkg := rfl
@[simp] theorem State.modMem_tick (s : State) (f : Memory → Memory) : (s.modMem f).tick = s.tick := rfl
@[simp] theorem State.modMem_steps (s : State) (f : Memory → Memory) : (s.modMem f).steps = s.steps := rfl
@[simp] theorem State.modMem_agenda (s : State) (f : Memory → Memory) : (s.modMem f).agenda = s.agenda := rfl
@[simp] theorem State.modMem_cur (s : State) (f : Memory → Memory) : (s.modMem f).cur = s.cur := rfl
@[simp] theorem State.modMem_pkg (s : State) (f : Memory → Memory) : (s.modMem f).pkg = s.pkg := rfl
@[simp] theorem State.modMem_parts (s : State) (f : Memory → Memory) : (s.modMem f).parts = s.parts := rfl
@[simp] theorem State.modMem_sets (s : State) (f : Memory → Memory) : (s.modMem f).sets = s.sets := rfl
@[simp] theorem State.modMem_regs (s : State) (f : Memory → Memory) : (s.modMem f).regs = s.regs := rfl
@[simp] theorem State.modMem_mem (s : State) (f : Memory → Memory) : (s.modMem f).mem = f s.mem := rfl
@[simp] theorem State.modSeq_tick (s : State) (r : Nat) (f : Seq → Seq) : (s.modSeq r f).tick = s.tick := rfl
@[simp] theorem State.modSeq_steps (s : State) (r : Nat) (f : Seq → Seq) : (s.modSeq r f).steps = s.steps := rfl
@[simp] theorem State.modSeq_agenda (s : State) (r : Nat) (f : Seq → Seq) : (s.modSeq r f).agenda = s.agenda := rfl
@[simp] theorem State.modSeq_cur (s : State) (r : Nat) (f : Seq → Seq) : (s.modSeq r f).cur = s.cur := rfl
@[simp] theorem State.modSeq_pkg (s : State) (r : Nat) (f : Seq → Seq) : (s.modSeq r f).pkg = s.pkg := rfl
@[simp] theorem State.modSeq_parts (s : State) (r : Nat) (f : Seq → Seq) : (s.modSeq r f).parts = s.parts := rfl
@[simp] theorem State.modSeq_sets (s : State) (r : Nat) (f : Seq → Seq) : (s.modSeq r f).sets = s.sets := rfl
@[simp] theorem State.modSeq_mem (s : State) (r : Nat) (f : Seq → Seq) : (s.modSeq r f).mem = s.mem := rfl
@[simp] theorem State.mod_tick (s : State) (f : Seq → Seq) : (s.mod f).tick = s.tick := rfl
@[simp] theorem State.mod_steps (s : State) (f : Seq → Seq) : (s.mod f).steps = s.steps := rfl
@[simp] theorem State.mod_agenda (s : State) (f : Seq → Seq) : (s.mod f).agenda = s.agenda := rfl
@[simp] theorem State.mod_cur (s : State) (f : Seq → Seq) : (s.mod f).cur = s.cur := rfl
@[simp] theorem State.mod_pkg (s : State) (f : Seq → Seq) : (s.mod f).pkg = s.pkg := rfl
@[simp] theorem State.mod_parts (s : State) (f : Seq → Seq) : (s.mod f).parts = s.parts := rfl
@[simp] theorem State.mod_sets (s : State) (f : Seq → Seq) : (s.mod f).sets = s.sets := rfl
@[simp] theorem State.mod_mem (s : State) (f : Seq → Seq) : (s.mod f).mem = s.mem := rfl
@[simp] theorem State.emit_tick (s : State) (o : Output) : (s.emit o).tick = s.tick := rfl
@[simp] theorem State.emit_steps (s : State) (o : Output) : (s.emit o).steps = s.steps := rfl
@[simp] theorem State.emit_agenda (s : State) (o : Output) : (s.emit o).agenda = s.agenda := rfl
@[simp] theorem State.emit_cur (s : State) (o : Output) : (s.emit o).cur = s.cur := rfl
@[simp] theorem State.emit_parts (s : State) (o : Output) : (s.emit o).parts = s.parts := rfl
@[simp] theorem State.emit_sets (s : State) (o : Output) : (s.emit o).sets = s.sets := rfl
@[simp] theorem State.emit_regs (s : State) (o : Output) : (s.emit o).regs = s.regs := rfl
@[simp] theorem State.emit_mem (s : State) (o : Output) : (s.emit o).mem = s.mem := rfl
@[simp] theorem State.wait_tick (s : State)  : (s.wait).tick = s.tick := rfl
@[simp] theorem State.wait_steps (s : State)  : (s.wait).steps = s.steps := rfl
@[simp] theorem State.wait_agenda (s : State)  : (s.wait).agenda = s.agenda := rfl
@[simp] theorem State.wait_cur (s : State)  : (s.wait).cur = s.cur := rfl
@[simp] theorem State.wait_pkg (s : State)  : (s.wait).pkg = s.pkg := rfl
@[simp] theorem State.wait_parts (s : State)  : (s.wait).parts = s.parts := rfl
@[simp] theorem State.wait_sets (s : State)  : (s.wait).sets = s.sets := rfl
@[simp] theorem State.wait_mem (s : State)  : (s.wait).mem = s.mem := rfl
@[simp] theorem State.advance_tick (s : State) (n : Nat) : (s.advance n).tick = s.tick := rfl
@[simp] theorem State.advance_steps (s : State) (n : Nat) : (s.advance n).steps = s.steps := rfl
@[simp] theorem State.advance_agenda (s : State) (n : Nat) : (s.advance n).agenda = s.agenda := rfl
@[simp] theorem State.advance_cur (s : State) (n : Nat) : (s.advance n).cur = s.cur := rfl
@[simp] theorem State.advance_pkg (s : State) (n : Nat) : (s.advance n).pkg = s.pkg := rfl
@[simp] theorem State.advance_parts (s : State) (n : Nat) : (s.advance n).parts = s.parts := rfl
@[simp] theorem State.advance_sets (s : State) (n : Nat) : (s.advance n).sets = s.sets := rfl
@[simp] theorem State.advance_mem (s : State) (n : Nat) : (s.advance n).mem = s.mem := rfl
@[simp] theorem State.setG_tick (s : State) (d : BitVec 5) (v : Word) (n : Nat) : (s.setG d v n).tick = s.tick := rfl
@[simp] theorem State.setG_steps (s : State) (d : BitVec 5) (v : Word) (n : Nat) : (s.setG d v n).steps = s.steps := rfl
@[simp] theorem State.setG_agenda (s : State) (d : BitVec 5) (v : Word) (n : Nat) : (s.setG d v n).agenda = s.agenda := rfl
@[simp] theorem State.setG_cur (s : State) (d : BitVec 5) (v : Word) (n : Nat) : (s.setG d v n).cur = s.cur := rfl
@[simp] theorem State.setG_pkg (s : State) (d : BitVec 5) (v : Word) (n : Nat) : (s.setG d v n).pkg = s.pkg := rfl
@[simp] theorem State.setG_parts (s : State) (d : BitVec 5) (v : Word) (n : Nat) : (s.setG d v n).parts = s.parts := rfl
@[simp] theorem State.setG_sets (s : State) (d : BitVec 5) (v : Word) (n : Nat) : (s.setG d v n).sets = s.sets := rfl
@[simp] theorem State.setG_mem (s : State) (d : BitVec 5) (v : Word) (n : Nat) : (s.setG d v n).mem = s.mem := rfl
@[simp] theorem State.setK_tick (s : State) (d : BitVec 3) (v : Bool) (n : Nat) : (s.setK d v n).tick = s.tick := rfl
@[simp] theorem State.setK_steps (s : State) (d : BitVec 3) (v : Bool) (n : Nat) : (s.setK d v n).steps = s.steps := rfl
@[simp] theorem State.setK_agenda (s : State) (d : BitVec 3) (v : Bool) (n : Nat) : (s.setK d v n).agenda = s.agenda := rfl
@[simp] theorem State.setK_cur (s : State) (d : BitVec 3) (v : Bool) (n : Nat) : (s.setK d v n).cur = s.cur := rfl
@[simp] theorem State.setK_pkg (s : State) (d : BitVec 3) (v : Bool) (n : Nat) : (s.setK d v n).pkg = s.pkg := rfl
@[simp] theorem State.setK_parts (s : State) (d : BitVec 3) (v : Bool) (n : Nat) : (s.setK d v n).parts = s.parts := rfl
@[simp] theorem State.setK_sets (s : State) (d : BitVec 3) (v : Bool) (n : Nat) : (s.setK d v n).sets = s.sets := rfl
@[simp] theorem State.setK_mem (s : State) (d : BitVec 3) (v : Bool) (n : Nat) : (s.setK d v n).mem = s.mem := rfl
@[simp] theorem State.writePhys_tick (s : State) (pa n v : Nat) : (s.writePhys pa n v).tick = s.tick := rfl
@[simp] theorem State.writePhys_steps (s : State) (pa n v : Nat) : (s.writePhys pa n v).steps = s.steps := rfl
@[simp] theorem State.writePhys_agenda (s : State) (pa n v : Nat) : (s.writePhys pa n v).agenda = s.agenda := rfl
@[simp] theorem State.writePhys_cur (s : State) (pa n v : Nat) : (s.writePhys pa n v).cur = s.cur := rfl
@[simp] theorem State.writePhys_pkg (s : State) (pa n v : Nat) : (s.writePhys pa n v).pkg = s.pkg := rfl
@[simp] theorem State.writePhys_parts (s : State) (pa n v : Nat) : (s.writePhys pa n v).parts = s.parts := rfl
@[simp] theorem State.writePhys_sets (s : State) (pa n v : Nat) : (s.writePhys pa n v).sets = s.sets := rfl
@[simp] theorem State.writePhys_regs (s : State) (pa n v : Nat) : (s.writePhys pa n v).regs = s.regs := rfl
@[simp] theorem State.timePasses_agenda (s : State)  : (s.timePasses).agenda = s.agenda := rfl
@[simp] theorem State.timePasses_cur (s : State)  : (s.timePasses).cur = s.cur := rfl
@[simp] theorem State.timePasses_pkg (s : State)  : (s.timePasses).pkg = s.pkg := rfl
@[simp] theorem State.timePasses_parts (s : State)  : (s.timePasses).parts = s.parts := rfl
@[simp] theorem State.timePasses_sets (s : State)  : (s.timePasses).sets = s.sets := rfl
@[simp] theorem State.timePasses_regs (s : State)  : (s.timePasses).regs = s.regs := rfl
@[simp] theorem State.timePasses_mem (s : State)  : (s.timePasses).mem = s.mem := rfl

/-! ## Updates of a sequencer -/

@[simp] theorem Seq.goto_g (q : Seq) (pc : Word) : (q.goto pc).g = q.g := rfl
@[simp] theorem Seq.goto_k (q : Seq) (pc : Word) : (q.goto pc).k = q.k := rfl
@[simp] theorem Seq.goto_pc (q : Seq) (pc : Word) : (q.goto pc).pc = pc := rfl
@[simp] theorem Seq.goto_status (q : Seq) (pc : Word) : (q.goto pc).status = q.status := rfl
@[simp] theorem Seq.goto_tvec (q : Seq) (pc : Word) : (q.goto pc).tvec = q.tvec := rfl
@[simp] theorem Seq.goto_epc (q : Seq) (pc : Word) : (q.goto pc).epc = q.epc := rfl
@[simp] theorem Seq.goto_cause (q : Seq) (pc : Word) : (q.goto pc).cause = q.cause := rfl
@[simp] theorem Seq.goto_fva (q : Seq) (pc : Word) : (q.goto pc).fva = q.fva := rfl
@[simp] theorem Seq.goto_iva (q : Seq) (pc : Word) : (q.goto pc).iva = q.iva := rfl
@[simp] theorem Seq.goto_finfo (q : Seq) (pc : Word) : (q.goto pc).finfo = q.finfo := rfl
@[simp] theorem Seq.goto_scr (q : Seq) (pc : Word) : (q.goto pc).scr = q.scr := rfl
@[simp] theorem Seq.goto_slots (q : Seq) (pc : Word) : (q.goto pc).slots = q.slots := rfl
@[simp] theorem Seq.goto_pending (q : Seq) (pc : Word) : (q.goto pc).pending = q.pending := rfl
@[simp] theorem Seq.goto_run (q : Seq) (pc : Word) : (q.goto pc).run = SeqRun.boundary := rfl
@[simp] theorem Seq.goto_wake (q : Seq) (pc : Word) : (q.goto pc).wake = q.wake := rfl
@[simp] theorem Seq.goto_waitFrom (q : Seq) (pc : Word) : (q.goto pc).waitFrom = none := rfl
@[simp] theorem Seq.goto_holds (q : Seq) (pc : Word) : (q.goto pc).holds = q.holds := rfl
@[simp] theorem Seq.advance_g (q : Seq) (n : Nat) : (q.advance n).g = q.g := rfl
@[simp] theorem Seq.advance_k (q : Seq) (n : Nat) : (q.advance n).k = q.k := rfl
@[simp] theorem Seq.advance_pc (q : Seq) (n : Nat) : (q.advance n).pc = q.pc + BitVec.ofNat 64 n := rfl
@[simp] theorem Seq.advance_status (q : Seq) (n : Nat) : (q.advance n).status = q.status := rfl
@[simp] theorem Seq.advance_tvec (q : Seq) (n : Nat) : (q.advance n).tvec = q.tvec := rfl
@[simp] theorem Seq.advance_epc (q : Seq) (n : Nat) : (q.advance n).epc = q.epc := rfl
@[simp] theorem Seq.advance_cause (q : Seq) (n : Nat) : (q.advance n).cause = q.cause := rfl
@[simp] theorem Seq.advance_fva (q : Seq) (n : Nat) : (q.advance n).fva = q.fva := rfl
@[simp] theorem Seq.advance_iva (q : Seq) (n : Nat) : (q.advance n).iva = q.iva := rfl
@[simp] theorem Seq.advance_finfo (q : Seq) (n : Nat) : (q.advance n).finfo = q.finfo := rfl
@[simp] theorem Seq.advance_scr (q : Seq) (n : Nat) : (q.advance n).scr = q.scr := rfl
@[simp] theorem Seq.advance_slots (q : Seq) (n : Nat) : (q.advance n).slots = q.slots := rfl
@[simp] theorem Seq.advance_pending (q : Seq) (n : Nat) : (q.advance n).pending = q.pending := rfl
@[simp] theorem Seq.advance_run (q : Seq) (n : Nat) : (q.advance n).run = SeqRun.boundary := rfl
@[simp] theorem Seq.advance_wake (q : Seq) (n : Nat) : (q.advance n).wake = q.wake := rfl
@[simp] theorem Seq.advance_waitFrom (q : Seq) (n : Nat) : (q.advance n).waitFrom = none := rfl
@[simp] theorem Seq.advance_holds (q : Seq) (n : Nat) : (q.advance n).holds = q.holds := rfl
@[simp] theorem Seq.gw_k (q : Seq) (d : BitVec 5) (v : Word) : (q.gw d v).k = q.k := by unfold Seq.gw; split <;> rfl
@[simp] theorem Seq.gw_pc (q : Seq) (d : BitVec 5) (v : Word) : (q.gw d v).pc = q.pc := by unfold Seq.gw; split <;> rfl
@[simp] theorem Seq.gw_status (q : Seq) (d : BitVec 5) (v : Word) : (q.gw d v).status = q.status := by unfold Seq.gw; split <;> rfl
@[simp] theorem Seq.gw_tvec (q : Seq) (d : BitVec 5) (v : Word) : (q.gw d v).tvec = q.tvec := by unfold Seq.gw; split <;> rfl
@[simp] theorem Seq.gw_epc (q : Seq) (d : BitVec 5) (v : Word) : (q.gw d v).epc = q.epc := by unfold Seq.gw; split <;> rfl
@[simp] theorem Seq.gw_cause (q : Seq) (d : BitVec 5) (v : Word) : (q.gw d v).cause = q.cause := by unfold Seq.gw; split <;> rfl
@[simp] theorem Seq.gw_fva (q : Seq) (d : BitVec 5) (v : Word) : (q.gw d v).fva = q.fva := by unfold Seq.gw; split <;> rfl
@[simp] theorem Seq.gw_iva (q : Seq) (d : BitVec 5) (v : Word) : (q.gw d v).iva = q.iva := by unfold Seq.gw; split <;> rfl
@[simp] theorem Seq.gw_finfo (q : Seq) (d : BitVec 5) (v : Word) : (q.gw d v).finfo = q.finfo := by unfold Seq.gw; split <;> rfl
@[simp] theorem Seq.gw_scr (q : Seq) (d : BitVec 5) (v : Word) : (q.gw d v).scr = q.scr := by unfold Seq.gw; split <;> rfl
@[simp] theorem Seq.gw_slots (q : Seq) (d : BitVec 5) (v : Word) : (q.gw d v).slots = q.slots := by unfold Seq.gw; split <;> rfl
@[simp] theorem Seq.gw_pending (q : Seq) (d : BitVec 5) (v : Word) : (q.gw d v).pending = q.pending := by unfold Seq.gw; split <;> rfl
@[simp] theorem Seq.gw_run (q : Seq) (d : BitVec 5) (v : Word) : (q.gw d v).run = q.run := by unfold Seq.gw; split <;> rfl
@[simp] theorem Seq.gw_wake (q : Seq) (d : BitVec 5) (v : Word) : (q.gw d v).wake = q.wake := by unfold Seq.gw; split <;> rfl
@[simp] theorem Seq.gw_waitFrom (q : Seq) (d : BitVec 5) (v : Word) : (q.gw d v).waitFrom = q.waitFrom := by unfold Seq.gw; split <;> rfl
@[simp] theorem Seq.gw_holds (q : Seq) (d : BitVec 5) (v : Word) : (q.gw d v).holds = q.holds := by unfold Seq.gw; split <;> rfl
@[simp] theorem Seq.kw_g (q : Seq) (d : BitVec 3) (v : Bool) : (q.kw d v).g = q.g := by unfold Seq.kw; split <;> rfl
@[simp] theorem Seq.kw_pc (q : Seq) (d : BitVec 3) (v : Bool) : (q.kw d v).pc = q.pc := by unfold Seq.kw; split <;> rfl
@[simp] theorem Seq.kw_status (q : Seq) (d : BitVec 3) (v : Bool) : (q.kw d v).status = q.status := by unfold Seq.kw; split <;> rfl
@[simp] theorem Seq.kw_tvec (q : Seq) (d : BitVec 3) (v : Bool) : (q.kw d v).tvec = q.tvec := by unfold Seq.kw; split <;> rfl
@[simp] theorem Seq.kw_epc (q : Seq) (d : BitVec 3) (v : Bool) : (q.kw d v).epc = q.epc := by unfold Seq.kw; split <;> rfl
@[simp] theorem Seq.kw_cause (q : Seq) (d : BitVec 3) (v : Bool) : (q.kw d v).cause = q.cause := by unfold Seq.kw; split <;> rfl
@[simp] theorem Seq.kw_fva (q : Seq) (d : BitVec 3) (v : Bool) : (q.kw d v).fva = q.fva := by unfold Seq.kw; split <;> rfl
@[simp] theorem Seq.kw_iva (q : Seq) (d : BitVec 3) (v : Bool) : (q.kw d v).iva = q.iva := by unfold Seq.kw; split <;> rfl
@[simp] theorem Seq.kw_finfo (q : Seq) (d : BitVec 3) (v : Bool) : (q.kw d v).finfo = q.finfo := by unfold Seq.kw; split <;> rfl
@[simp] theorem Seq.kw_scr (q : Seq) (d : BitVec 3) (v : Bool) : (q.kw d v).scr = q.scr := by unfold Seq.kw; split <;> rfl
@[simp] theorem Seq.kw_slots (q : Seq) (d : BitVec 3) (v : Bool) : (q.kw d v).slots = q.slots := by unfold Seq.kw; split <;> rfl
@[simp] theorem Seq.kw_pending (q : Seq) (d : BitVec 3) (v : Bool) : (q.kw d v).pending = q.pending := by unfold Seq.kw; split <;> rfl
@[simp] theorem Seq.kw_run (q : Seq) (d : BitVec 3) (v : Bool) : (q.kw d v).run = q.run := by unfold Seq.kw; split <;> rfl
@[simp] theorem Seq.kw_wake (q : Seq) (d : BitVec 3) (v : Bool) : (q.kw d v).wake = q.wake := by unfold Seq.kw; split <;> rfl
@[simp] theorem Seq.kw_waitFrom (q : Seq) (d : BitVec 3) (v : Bool) : (q.kw d v).waitFrom = q.waitFrom := by unfold Seq.kw; split <;> rfl
@[simp] theorem Seq.kw_holds (q : Seq) (d : BitVec 3) (v : Bool) : (q.kw d v).holds = q.holds := by unfold Seq.kw; split <;> rfl
@[simp] theorem Seq.setSat_g (q : Seq)  : (q.setSat).g = q.g := rfl
@[simp] theorem Seq.setSat_k (q : Seq)  : (q.setSat).k = q.k := rfl
@[simp] theorem Seq.setSat_pc (q : Seq)  : (q.setSat).pc = q.pc := rfl
@[simp] theorem Seq.setSat_status (q : Seq)  : (q.setSat).status = q.status ||| 4 := rfl
@[simp] theorem Seq.setSat_tvec (q : Seq)  : (q.setSat).tvec = q.tvec := rfl
@[simp] theorem Seq.setSat_epc (q : Seq)  : (q.setSat).epc = q.epc := rfl
@[simp] theorem Seq.setSat_cause (q : Seq)  : (q.setSat).cause = q.cause := rfl
@[simp] theorem Seq.setSat_fva (q : Seq)  : (q.setSat).fva = q.fva := rfl
@[simp] theorem Seq.setSat_iva (q : Seq)  : (q.setSat).iva = q.iva := rfl
@[simp] theorem Seq.setSat_finfo (q : Seq)  : (q.setSat).finfo = q.finfo := rfl
@[simp] theorem Seq.setSat_scr (q : Seq)  : (q.setSat).scr = q.scr := rfl
@[simp] theorem Seq.setSat_slots (q : Seq)  : (q.setSat).slots = q.slots := rfl
@[simp] theorem Seq.setSat_pending (q : Seq)  : (q.setSat).pending = q.pending := rfl
@[simp] theorem Seq.setSat_run (q : Seq)  : (q.setSat).run = q.run := rfl
@[simp] theorem Seq.setSat_wake (q : Seq)  : (q.setSat).wake = q.wake := rfl
@[simp] theorem Seq.setSat_waitFrom (q : Seq)  : (q.setSat).waitFrom = q.waitFrom := rfl
@[simp] theorem Seq.setSat_holds (q : Seq)  : (q.setSat).holds = q.holds := rfl
@[simp] theorem Seq.setSlot_g (q : Seq) (n : BitVec 4) (v : Slot) : (q.setSlot n v).g = q.g := rfl
@[simp] theorem Seq.setSlot_k (q : Seq) (n : BitVec 4) (v : Slot) : (q.setSlot n v).k = q.k := rfl
@[simp] theorem Seq.setSlot_pc (q : Seq) (n : BitVec 4) (v : Slot) : (q.setSlot n v).pc = q.pc := rfl
@[simp] theorem Seq.setSlot_status (q : Seq) (n : BitVec 4) (v : Slot) : (q.setSlot n v).status = q.status := rfl
@[simp] theorem Seq.setSlot_tvec (q : Seq) (n : BitVec 4) (v : Slot) : (q.setSlot n v).tvec = q.tvec := rfl
@[simp] theorem Seq.setSlot_epc (q : Seq) (n : BitVec 4) (v : Slot) : (q.setSlot n v).epc = q.epc := rfl
@[simp] theorem Seq.setSlot_cause (q : Seq) (n : BitVec 4) (v : Slot) : (q.setSlot n v).cause = q.cause := rfl
@[simp] theorem Seq.setSlot_fva (q : Seq) (n : BitVec 4) (v : Slot) : (q.setSlot n v).fva = q.fva := rfl
@[simp] theorem Seq.setSlot_iva (q : Seq) (n : BitVec 4) (v : Slot) : (q.setSlot n v).iva = q.iva := rfl
@[simp] theorem Seq.setSlot_finfo (q : Seq) (n : BitVec 4) (v : Slot) : (q.setSlot n v).finfo = q.finfo := rfl
@[simp] theorem Seq.setSlot_scr (q : Seq) (n : BitVec 4) (v : Slot) : (q.setSlot n v).scr = q.scr := rfl
@[simp] theorem Seq.setSlot_pending (q : Seq) (n : BitVec 4) (v : Slot) : (q.setSlot n v).pending = q.pending := rfl
@[simp] theorem Seq.setSlot_run (q : Seq) (n : BitVec 4) (v : Slot) : (q.setSlot n v).run = q.run := rfl
@[simp] theorem Seq.setSlot_wake (q : Seq) (n : BitVec 4) (v : Slot) : (q.setSlot n v).wake = q.wake := rfl
@[simp] theorem Seq.setSlot_waitFrom (q : Seq) (n : BitVec 4) (v : Slot) : (q.setSlot n v).waitFrom = q.waitFrom := rfl
@[simp] theorem Seq.setSlot_holds (q : Seq) (n : BitVec 4) (v : Slot) : (q.setSlot n v).holds = q.holds := rfl
@[simp] theorem Seq.deliver_g (q : Seq) (c : BitVec 9) (a b x y : Word) : (q.deliver c a b x y).g = q.g := rfl
@[simp] theorem Seq.deliver_k (q : Seq) (c : BitVec 9) (a b x y : Word) : (q.deliver c a b x y).k = q.k := rfl
@[simp] theorem Seq.deliver_pc (q : Seq) (c : BitVec 9) (a b x y : Word) : (q.deliver c a b x y).pc = q.tvec := rfl
@[simp] theorem Seq.deliver_status (q : Seq) (c : BitVec 9) (a b x y : Word) : (q.deliver c a b x y).status = q.status ||| 1 := rfl
@[simp] theorem Seq.deliver_tvec (q : Seq) (c : BitVec 9) (a b x y : Word) : (q.deliver c a b x y).tvec = q.tvec := rfl
@[simp] theorem Seq.deliver_epc (q : Seq) (c : BitVec 9) (a b x y : Word) : (q.deliver c a b x y).epc = a := rfl
@[simp] theorem Seq.deliver_cause (q : Seq) (c : BitVec 9) (a b x y : Word) : (q.deliver c a b x y).cause = c.setWidth 64 := rfl
@[simp] theorem Seq.deliver_fva (q : Seq) (c : BitVec 9) (a b x y : Word) : (q.deliver c a b x y).fva = x := rfl
@[simp] theorem Seq.deliver_iva (q : Seq) (c : BitVec 9) (a b x y : Word) : (q.deliver c a b x y).iva = b := rfl
@[simp] theorem Seq.deliver_finfo (q : Seq) (c : BitVec 9) (a b x y : Word) : (q.deliver c a b x y).finfo = y := rfl
@[simp] theorem Seq.deliver_scr (q : Seq) (c : BitVec 9) (a b x y : Word) : (q.deliver c a b x y).scr = q.scr := rfl
@[simp] theorem Seq.deliver_slots (q : Seq) (c : BitVec 9) (a b x y : Word) : (q.deliver c a b x y).slots = q.slots := rfl
@[simp] theorem Seq.deliver_pending (q : Seq) (c : BitVec 9) (a b x y : Word) : (q.deliver c a b x y).pending = q.pending := rfl
@[simp] theorem Seq.deliver_run (q : Seq) (c : BitVec 9) (a b x y : Word) : (q.deliver c a b x y).run = SeqRun.boundary := rfl
@[simp] theorem Seq.deliver_wake (q : Seq) (c : BitVec 9) (a b x y : Word) : (q.deliver c a b x y).wake = q.wake := rfl
@[simp] theorem Seq.deliver_waitFrom (q : Seq) (c : BitVec 9) (a b x y : Word) : (q.deliver c a b x y).waitFrom = none := rfl
@[simp] theorem Seq.deliver_holds (q : Seq) (c : BitVec 9) (a b x y : Word) : (q.deliver c a b x y).holds = q.holds := rfl
@[simp] theorem Seq.eret_g (q : Seq)  : (q.eret).g = q.g := rfl
@[simp] theorem Seq.eret_k (q : Seq)  : (q.eret).k = q.k := rfl
@[simp] theorem Seq.eret_pc (q : Seq)  : (q.eret).pc = q.epc := rfl
@[simp] theorem Seq.eret_status (q : Seq)  : (q.eret).status = q.status &&& ~~~(1 : Word) := rfl
@[simp] theorem Seq.eret_tvec (q : Seq)  : (q.eret).tvec = q.tvec := rfl
@[simp] theorem Seq.eret_epc (q : Seq)  : (q.eret).epc = q.epc := rfl
@[simp] theorem Seq.eret_cause (q : Seq)  : (q.eret).cause = q.cause := rfl
@[simp] theorem Seq.eret_fva (q : Seq)  : (q.eret).fva = q.fva := rfl
@[simp] theorem Seq.eret_iva (q : Seq)  : (q.eret).iva = q.iva := rfl
@[simp] theorem Seq.eret_finfo (q : Seq)  : (q.eret).finfo = q.finfo := rfl
@[simp] theorem Seq.eret_scr (q : Seq)  : (q.eret).scr = q.scr := rfl
@[simp] theorem Seq.eret_slots (q : Seq)  : (q.eret).slots = q.slots := rfl
@[simp] theorem Seq.eret_pending (q : Seq)  : (q.eret).pending = q.pending := rfl
@[simp] theorem Seq.eret_run (q : Seq)  : (q.eret).run = SeqRun.boundary := rfl
@[simp] theorem Seq.eret_wake (q : Seq)  : (q.eret).wake = q.wake := rfl
@[simp] theorem Seq.eret_waitFrom (q : Seq)  : (q.eret).waitFrom = none := rfl
@[simp] theorem Seq.eret_holds (q : Seq)  : (q.eret).holds = q.holds := rfl

/-! ## Reading what an update wrote -/

theorem spFind_spInsert {α : Type} (l : Sparse α) (n m : Nat) (v : α) :
    spFind (spInsert l n v) m = if m = n then some v else spFind l m := by
  induction l with
  | nil => simp only [spInsert, spFind]; grind
  | cons e l ih => obtain ⟨k, w⟩ := e; simp only [spInsert]; grind [spFind]

theorem spFind_spErase {α : Type} (l : Sparse α) (n m : Nat) :
    spFind (spErase l n) m = if m = n then none else spFind l m := by
  induction l with
  | nil => simp [spErase, spFind]
  | cons e l ih => obtain ⟨k, w⟩ := e; simp only [spErase, List.filter_cons] at *; grind [spFind]

/-- A region reads as it was last written, and the others as before. -/
theorem State.reg_setReg (s : State) (r q : Nat) (v : Region) : (s.setReg r v).reg q = if q = r then v else s.reg q := by
  simp only [State.reg, spGet, State.setReg_regs, spFind_spInsert]; split <;> rfl

theorem State.reg_modReg (s : State) (r q : Nat) (f : Region → Region) :
    (s.modReg r f).reg q = if q = r then f (s.reg r) else s.reg q := State.reg_setReg ..

theorem State.reg_modSeq (s : State) (r q : Nat) (f : Seq → Seq) :
    (s.modSeq r f).reg q = if q = r then { s.reg r with seq := f (s.reg r).seq } else s.reg q := State.reg_setReg ..

theorem State.part_setPart (s : State) (p q : Nat) (v : Part) :
    (s.setPart p v).part? q = if q = p then some v else s.part? q := spFind_spInsert ..

@[simp] theorem State.seq_mod (s : State) (f : Seq → Seq) : (s.mod f).seq = f s.seq := by
  simp [State.seq, State.mod, State.reg_modSeq]

@[simp] theorem State.reg_mod_cur (s : State) (f : Seq → Seq) : (s.mod f).reg s.cur = { s.reg s.cur with seq := f s.seq } := by
  simp only [State.mod, State.reg_modSeq, if_true, State.seq]

theorem State.reg_mod_other (s : State) (f : Seq → Seq) (r : Nat) (h : r ≠ s.cur) : (s.mod f).reg r = s.reg r := by
  simp only [State.mod, State.reg_modSeq, if_neg h]

/-! ## The registers (R183) -/

@[simp] theorem Seq.gr_zero (q : Seq) : q.gr 0 = 0 := rfl

@[simp] theorem Seq.kr_zero (q : Seq) : q.kr 0 = true := rfl

theorem Seq.gr_gw (q : Seq) (d a : BitVec 5) (v : Word) :
    (q.gw d v).gr a = if a = d ∧ d ≠ 0 then v else q.gr a := by
  unfold Seq.gw Seq.gr
  by_cases hd : d = 0
  · simp [hd]
  · have hne : a ≠ d → d.toNat ≠ a.toNat := fun h e => h (BitVec.eq_of_toNat_eq e.symm)
    simp only [hd, if_false]
    by_cases h : a = d
    · subst h; simp only [hd, if_false, not_false_eq_true, ne_eq, and_self, if_true, Vector.getElem_set_self]
    · simp only [h, false_and, if_false, Vector.getElem_set_ne _ _ (hne h)]

theorem Seq.kr_kw (q : Seq) (d a : BitVec 3) (v : Bool) :
    (q.kw d v).kr a = if a = d ∧ d ≠ 0 then v else q.kr a := by
  have key : ∀ (d a : BitVec 3) (v : Bool) (k : BitVec 8),
      (a == 0 || (if d = 0 then k else if v then k ||| ((1 : BitVec 8) <<< d.toNat) else k &&& ~~~((1 : BitVec 8) <<< d.toNat)).getLsbD a.toNat)
        = if a = d ∧ d ≠ 0 then v else (a == 0 || k.getLsbD a.toNat) := by decide +kernel
  have hk : (q.kw d v).k = if d = 0 then q.k else if v then q.k ||| ((1 : BitVec 8) <<< d.toNat) else q.k &&& ~~~((1 : BitVec 8) <<< d.toNat) := by
    unfold Seq.kw; split <;> rfl
  simpa only [Seq.kr, hk] using key d a v q.k

theorem Seq.g_gw_zero (q : Seq) (v : Word) : q.gw 0 v = q := rfl
theorem Seq.k_kw_zero (q : Seq) (v : Bool) : q.kw 0 v = q := rfl

end Sys2Proof.Machine
end

