-- ==== Sys2Proof/Laws/Memory.lean ====
section
/-!
SUPPORT. Memory: what a read gives after a write, and that every operation keeps the canonical form.
-/
namespace Sys2Proof.Machine

/-! ## Rising lists -/

theorem mem_natInsert (l : List Nat) (n m : Nat) : m ∈ natInsert l n ↔ m = n ∨ m ∈ l := by
  induction l with
  | nil => simp [natInsert]
  | cons k l ih => simp only [natInsert]; split <;> [skip; split] <;> grind

/-- A rising list, said of each pair. -/
theorem natWf_iff (l : List Nat) : natWf l = true ↔ l.Pairwise (· < ·) := by
  induction l with
  | nil => simp [natWf]
  | cons k l ih =>
    cases l with
    | nil => simp [natWf]
    | cons j l =>
      rw [natWf, Bool.and_eq_true, ih]
      simp only [decide_eq_true_eq, List.pairwise_cons, List.mem_cons]
      grind

theorem spWf_iff {α : Type} (l : Sparse α) : spWf l = true ↔ l.Pairwise (fun a b => a.1 < b.1) := by
  induction l with
  | nil => simp [spWf]
  | cons k l ih =>
    cases l with
    | nil => simp [spWf]
    | cons j l =>
      rw [spWf, Bool.and_eq_true, ih]
      simp only [decide_eq_true_eq, List.pairwise_cons, List.mem_cons]
      grind

theorem natWf_natInsert (l : List Nat) (n : Nat) (h : natWf l = true) : natWf (natInsert l n) = true := by
  rw [natWf_iff] at *
  induction l with
  | nil => simp [natInsert]
  | cons k l ih =>
    have h' := h
    rw [List.pairwise_cons] at h
    simp only [natInsert]
    split
    · exact List.pairwise_cons.2 ⟨fun m hm => by rcases List.mem_cons.1 hm with rfl | hm <;> [assumption; exact lt_trans ‹_› (h.1 m hm)], h'⟩
    · split
      · exact h'
      · rw [List.pairwise_cons]; refine ⟨fun m hm => ?_, ih h.2⟩
        rw [mem_natInsert] at hm; grind

theorem natWf_filter (l : List Nat) (f : Nat → Bool) (h : natWf l = true) : natWf (l.filter f) = true := by
  rw [natWf_iff] at *; exact h.filter f

theorem mem_spInsert {α : Type} (l : Sparse α) (n : Nat) (v : α) (e : Nat × α) (h : e ∈ spInsert l n v) :
    e = (n, v) ∨ e ∈ l := by
  induction l with
  | nil => simpa [spInsert] using h
  | cons k l ih => obtain ⟨k, w⟩ := k; simp only [spInsert] at h; grind

theorem spWf_spInsert {α : Type} (l : Sparse α) (n : Nat) (v : α) (h : spWf l = true) : spWf (spInsert l n v) = true := by
  rw [spWf_iff] at *
  induction l with
  | nil => simp [spInsert]
  | cons k l ih =>
    obtain ⟨k, w⟩ := k
    have h' := h
    rw [List.pairwise_cons] at h
    simp only [spInsert]
    split
    · exact List.pairwise_cons.2 ⟨fun m hm => by rcases List.mem_cons.1 hm with rfl | hm <;> [assumption; exact lt_trans ‹_› (h.1 m hm)], h'⟩
    · split
      · subst_vars; exact List.pairwise_cons.2 h
      · rw [List.pairwise_cons]; refine ⟨fun e he => ?_, ih h.2⟩
        rcases mem_spInsert _ _ _ _ he with rfl | he
        · grind
        · exact h.1 e he

theorem spWf_filter {α : Type} (l : Sparse α) (f : Nat × α → Bool) (h : spWf l = true) : spWf (l.filter f) = true := by
  rw [spWf_iff] at *; exact h.filter f

/-! ## The canonical form -/

theorem Memory.wf_def (m : Memory) : m.wf = true ↔
    spWf m.cells = true ∧ (∀ c ∈ m.cells, c.2 ≠ unlisted) ∧ natWf m.poison = true ∧ natWf m.fresh = true := by
  simp only [Memory.wf, Bool.and_eq_true, List.all_eq_true, bne_iff_ne, ne_eq, and_assoc]

/-- Reset memory has the canonical form. -/
theorem Memory.wf_empty : Memory.wf {} = true := rfl

theorem Memory.wf_write (m : Memory) (a : Nat) (b : Byte) (h : m.wf = true) : (m.write a b).wf = true := by
  rw [Memory.wf_def] at *
  obtain ⟨h1, h2, h3, h4⟩ := h
  refine ⟨?_, ?_, natWf_filter _ _ h3, ?_⟩
  · simp only [Memory.write, cellsWrite]
    split
    · exact spWf_filter _ _ h1
    · exact spWf_spInsert _ _ _ h1
  · intro c hc
    simp only [Memory.write, cellsWrite] at hc
    split at hc
    · exact h2 c (List.mem_of_mem_filter hc)
    · rcases mem_spInsert _ _ _ _ hc with rfl | hc
      · assumption
      · exact h2 c hc
  · simp only [Memory.write]
    split
    · exact natWf_natInsert _ _ h4
    · exact h4

theorem Memory.wf_writeN (m : Memory) (a : Nat) (bs : List Byte) (h : m.wf = true) : (m.writeN a bs).wf = true := by
  induction bs generalizing m a with
  | nil => exact h
  | cons b bs ih => exact ih _ _ (m.wf_write a b h)

theorem Memory.wf_writeAt (m : Memory) (l : List (Nat × Byte)) (h : m.wf = true) : (m.writeAt l).wf = true := by
  induction l generalizing m with
  | nil => exact h
  | cons e l ih => obtain ⟨a, b⟩ := e; exact ih _ (m.wf_write a b h)

theorem Memory.wf_paste (m : Memory) (base : Nat) (l : List Host.Cell) (h : m.wf = true) : (m.paste base l).wf = true :=
  m.wf_writeAt _ h

theorem natWf_foldl_natInsert (l l' : List Nat) (f : Nat → Nat) (h : natWf l = true) :
    natWf (l'.foldl (fun l i => natInsert l (f i)) l) = true := by
  induction l' generalizing l with
  | nil => exact h
  | cons i l' ih => exact ih _ (natWf_natInsert _ _ h)

theorem Memory.wf_scrub (m : Memory) (base len : Nat) (h : m.wf = true) : (m.scrub base len).wf = true := by
  rw [Memory.wf_def] at *
  obtain ⟨h1, h2, h3, h4⟩ := h
  refine ⟨spWf_filter _ _ h1, fun c hc => h2 c (List.mem_of_mem_filter hc), natWf_filter _ _ h3, ?_⟩
  simp only [Memory.scrub]
  split
  · exact natWf_foldl_natInsert _ _ _ h4
  · exact natWf_filter _ _ h4

theorem Memory.wf_kill (m : Memory) (base len gen : Nat) (h : m.wf = true) : (m.kill base len gen).wf = true := by
  rw [Memory.wf_def] at *
  obtain ⟨h1, h2, h3, h4⟩ := h
  exact ⟨spWf_filter _ _ h1, fun c hc => h2 c (List.mem_of_mem_filter hc), natWf_filter _ _ h3, natWf_filter _ _ h4⟩

theorem Memory.wf_spoil (m : Memory) (base n : Nat) (h : m.wf = true) : (m.spoil base n).wf = true := by
  induction n with
  | zero => exact h
  | succ n ih =>
    rw [Memory.wf_def] at *
    exact ⟨ih.1, ih.2.1, natWf_natInsert _ _ ih.2.2.1, ih.2.2.2⟩

/-! ## A read after a write -/

theorem Memory.staleAt_none (m : Memory) (a : Nat) : m.staleAt a = none ↔ a ∈ m.fresh ∨ m.inStale a = false := by
  unfold Memory.staleAt Memory.inStale
  split <;> simp_all

/-- A byte reads as it was written, and every other byte as before. -/
theorem Memory.read_write (m : Memory) (a x : Nat) (b : Byte) : (m.write a b).read x = if x = a then b else m.read x := by
  have hf : x ∈ (m.write a b).fresh ↔ x ∈ m.fresh ∨ (x = a ∧ m.inStale a = true) := by
    simp only [Memory.write]; split <;> simp_all [mem_natInsert, or_comm]
  have hc : spGet unlisted (m.write a b).cells x = if x = a then b else spGet unlisted m.cells x := by
    simp only [Memory.write, cellsWrite, spGet]
    split
    · rw [spFind_spErase]; split <;> simp_all
    · rw [spFind_spInsert]; split <;> simp_all
  by_cases hx : x = a
  · subst hx
    have : (m.write x b).staleAt x = none := by
      rw [Memory.staleAt_none, hf]
      cases h : m.inStale x
      · right; simpa [Memory.inStale, Memory.write] using h
      · simp
    simp only [Memory.read, this, hc]; rfl
  · have : (m.write a b).staleAt x = m.staleAt x := by
      simp only [Memory.staleAt, hf]; simp [hx, Memory.write]
    simp only [Memory.read, this, hc, if_neg hx]

/-- The bytes of a range read as they were written, and every other byte as before. -/
theorem Memory.read_writeN (m : Memory) (a x : Nat) (bs : List Byte) :
    (m.writeN a bs).read x = if a ≤ x ∧ x < a + bs.length then bs.getD (x - a) 0 else m.read x := by
  induction bs generalizing m a with
  | nil => simp [Memory.writeN]
  | cons b bs ih =>
    rw [Memory.writeN, ih, Memory.read_write]
    by_cases h : x = a
    · subst h; simp
    · simp only [List.length_cons, h, if_false]
      by_cases h2 : a + 1 ≤ x ∧ x < a + 1 + bs.length
      · rw [if_pos h2, if_pos (by omega), show x - a = (x - (a + 1)) + 1 by omega]; rfl
      · rw [if_neg h2, if_neg (by omega)]

end Sys2Proof.Machine
end

