-- ==== Sys2Proof/Laws/Ops.lean ====
section
/-!
SUPPORT. What each shared operation answers: guards, the taking of a cause, addresses, and the reads and writes that
units make through them. One lemma says once everything that an operation can do; proofs cite it and unfold nothing.
-/
namespace Sys2Proof.Machine

/-! ## Guards and waits -/

/-- With its guard true, an instruction has its effect. -/
theorem State.guarded_true (s : State) (k : BitVec 3) (n : Nat) (f : State → Out) (h : s.seq.kr k = true) :
    s.guarded k n f = f s := by
  simp only [State.guarded, h, if_true]

/-- With its guard false, an instruction is only passed over. -/
theorem State.guarded_false (s : State) (k : BitVec 3) (n : Nat) (f : State → Out) (h : s.seq.kr k = false) :
    s.guarded k n f = .next (s.advance n) := by
  simp only [State.guarded, h, Bool.false_eq_true, if_false]

/-- Without a guard field, k0 is the guard. -/
theorem State.guarded_zero (s : State) (n : Nat) (f : State → Out) : s.guarded 0 n f = f s :=
  s.guarded_true 0 n f (Seq.kr_zero _)

/-! ## Taking a cause -/

/-- In normal mode with a handler, a cause enters the handler and touches nothing but its sequencer. -/
theorem State.deliver_entered (s : State) (r : Nat) (c : BitVec 9) (a b x y : Word)
    (h : (s.reg r).seq.handler = false) (ht : (s.reg r).seq.tvec ≠ 0) :
    s.deliver r c a b x y = s.modSeq r (fun q => q.deliver c a b x y) := by
  have h2 : ((s.reg r).seq.tvec == 0) = false := by simpa using ht
  simp only [State.deliver, h, h2, Bool.or_self, Bool.false_eq_true, if_false]

/-- In handler mode or without a handler, a cause halts the sequencer and its partition will be reset. -/
theorem State.deliver_fatal (s : State) (r p : Nat) (c : BitVec 9) (a b x y : Word)
    (h : (s.reg r).seq.handler = true ∨ (s.reg r).seq.tvec = 0) (hp : s.owner r = some p) :
    s.deliver r c a b x y = (s.modSeq r (fun q => { q with run := .halted })).fatal p
      { cause := if (s.reg r).seq.handler then causeNested else c, delivered := c, region := r, resume := a, first := b,
        fva := x } := by
  have h2 : ((s.reg r).seq.handler || (s.reg r).seq.tvec == 0) = true := by
    rcases h with h | h <;> simp [h]
  have h3 : (s.modSeq r (fun q => { q with run := .halted })).owner r = some p := by
    simpa only [State.owner, State.reg_modSeq, if_true] using hp
  simp only [State.deliver, h2, if_true]
  split <;> simp_all

/-- A trap in normal mode with a handler. -/
theorem State.trap_entered (s : State) (c : BitVec 9) (fva info : Word) (h : s.seq.handler = false) (ht : s.seq.tvec ≠ 0) :
    s.trap c fva info = s.mod (fun q => q.deliver c s.seq.pc s.seq.pc fva info) :=
  s.deliver_entered s.cur c s.seq.pc s.seq.pc fva info h ht

/-- A trap that resumes behind its instruction, in normal mode with a handler. -/
theorem State.trapNext_entered (s : State) (c : BitVec 9) (n : Nat) (info : Word) (h : s.seq.handler = false)
    (ht : s.seq.tvec ≠ 0) :
    s.trapNext c n info = s.mod (fun q => q.deliver c (s.seq.pc + BitVec.ofNat 64 n) s.seq.pc 0 info) :=
  s.deliver_entered s.cur c (s.seq.pc + BitVec.ofNat 64 n) s.seq.pc 0 info h ht

/-! ## Addresses -/

/-- The use of a translation changes at most the cache of the region that asked. -/
theorem State.useCache_cases (s : State) (w : Who) (x : Xlate) : s.useCache w x = s ∨
    ∃ r, w.region = some r ∧ s.useCache w x = s.modReg r (fun g => { g with tlb := cacheXlate g.tlb x 512 }) := by
  unfold State.useCache
  split
  · exact .inr ⟨_, ‹_›, rfl⟩
  · exact .inl rfl

/-- The start of the next operation touches no memory. -/
@[simp] theorem State.invStart_mem (s : State) (p : Nat) : (s.invStart p).mem = s.mem := by
  unfold State.invStart
  split
  · rfl
  · repeat (first | rfl | split)

/-- An operation that is put into the invalidation sequencer touches no memory. -/
@[simp] theorem State.invQueue_mem (s : State) (p : Nat) (o : InvOp) : (s.invQueue p o).mem = s.mem := by
  unfold State.invQueue; simp

/-- A translation that is found stands first in the cache of the region that asked. -/
theorem State.xlateFor_ok (s s1 : State) (w : Who) (va : Nat) (k : AKind) (x : Xlate)
    (h : s.xlateFor w va k = (s1, .ok x)) :
    s1 = s ∨ ∃ r, w.region = some r ∧ s1 = s.modReg r (fun g => { g with tlb := cacheXlate g.tlb x 512 }) := by
  unfold State.xlateFor at h
  split at h
  · simp at h
  · simp only at h
    split at h
    · split at h <;> simp at h
    · simp only [Prod.mk.injEq, Got.ok.injEq] at h
      obtain ⟨rfl, rfl⟩ := h
      exact State.useCache_cases ..
    · split at h
      · simp at h
      · split at h <;> simp at h
      · split at h
        · split at h <;> simp at h
        · simp at h
      · simp only [Prod.mk.injEq, Got.ok.injEq] at h
        obtain ⟨rfl, rfl⟩ := h
        exact State.useCache_cases ..

/-- A translation that may be used changes nothing, and leads home or, for a read, to the replica on the reader's die. -/
theorem State.useXlate_ok (s s1 : State) (w : Who) (x : Xlate) (va pa : Nat) (k : AKind)
    (h : s.useXlate w x va k = (s1, .ok pa)) : s1 = s ∧ (pa = x.pa + (va - x.va) ∨
      ∃ r q, w.region = some r ∧ k = .read ∧ s.replica? w.part (frameOf (x.pa + (va - x.va))) (dieOf r) = some q ∧
        pa = q.pool + (x.pa + (va - x.va)) % 2 ^ 21) := by
  unfold State.useXlate at h
  simp only at h
  split at h
  · unfold State.awaitAnswer at h; split at h <;> simp at h
  · split at h
    · simp at h
    · split at h
      · simp at h
      · split at h
        · unfold State.holdFault at h
          split at h
          · simp at h
          · split at h <;> simp at h
        · split at h
          · simp at h
          · split at h
            · simp only [Prod.mk.injEq, Got.ok.injEq] at h; exact ⟨h.1.symm, .inl h.2.symm⟩
            · split at h
              · simp at h
              · split at h
                · simp only [Prod.mk.injEq, Got.ok.injEq] at h
                  obtain ⟨rfl, rfl⟩ := h
                  refine ⟨rfl, ?_⟩
                  split
                  · rename_i hk
                    simp only [Bool.and_eq_true, beq_iff_eq] at hk
                    exact .inr ⟨_, _, ‹_›, hk.1, ‹_›, rfl⟩
                  · exact .inl rfl
                · simp only [Prod.mk.injEq, Got.ok.injEq] at h; exact ⟨h.1.symm, .inl h.2.symm⟩

/-- An address that is reached changes nothing but, at most, the translation cache of the region that asked. -/
theorem State.reach_ok (s s1 : State) (w : Who) (va pa : Nat) (k : AKind) (h : s.reach w va k = (s1, .ok pa)) :
    s1 = s ∨ ∃ r x, w.region = some r ∧ s1 = s.modReg r (fun g => { g with tlb := cacheXlate g.tlb x 512 }) := by
  unfold State.reach at h
  split at h
  · simp at h
  · split at h
    · split at h
      · simp at h
      · split at h
        · simp only [Prod.mk.injEq] at h; exact .inl h.1.symm
        · simp at h
    · split at h
      · simp only [Prod.mk.injEq] at h; exact .inl h.1.symm
      · simp at h
    · simp at h
    · simp at h
    · split at h
      · rename_i hx
        obtain ⟨rfl, -⟩ := State.useXlate_ok _ _ _ _ _ _ _ h
        rcases State.xlateFor_ok _ _ _ _ _ _ hx with rfl | ⟨r, hr, rfl⟩
        · exact .inl rfl
        · exact .inr ⟨r, _, hr, rfl⟩
      · simp at h
      · simp at h

/-- What stays as it was when an address is reached. -/
theorem State.reach_ok_frame (s s1 : State) (w : Who) (va pa : Nat) (k : AKind) (h : s.reach w va k = (s1, .ok pa)) :
    s1.mem = s.mem ∧ s1.pkg = s.pkg ∧ s1.parts = s.parts ∧ s1.sets = s.sets ∧ s1.tick = s.tick ∧ s1.steps = s.steps ∧
      s1.agenda = s.agenda ∧ s1.cur = s.cur ∧ ∀ r, s1.reg r = { s.reg r with tlb := (s1.reg r).tlb } ∧
        (w.region ≠ some r → s1.reg r = s.reg r) := by
  rcases State.reach_ok _ _ _ _ _ _ h with rfl | ⟨r, x, hr, rfl⟩
  · exact ⟨rfl, rfl, rfl, rfl, rfl, rfl, rfl, rfl, fun _ => ⟨rfl, fun _ => rfl⟩⟩
  · refine ⟨rfl, rfl, rfl, rfl, rfl, rfl, rfl, rfl, fun q => ?_⟩
    rw [State.reg_modReg]
    split
    · subst q; exact ⟨rfl, fun hn => absurd hr hn⟩
    · exact ⟨rfl, fun _ => rfl⟩

/-! ## Reads and writes -/

/-- A read of a page that completes: where it was, and what it counted. -/
theorem State.readPage_ok (s s2 : State) (w : Who) (va n : Nat) (bs : List Byte) :
    s.readPage w va n = (s2, .ok bs) ↔ ∃ s1 pa, s.reach w va .read = (s1, .ok pa) ∧ s1.physFault pa n .read = none ∧
      s2 = s1.countBytes w.part pa n ∧ bs = s1.mem.readN n pa := by
  unfold State.readPage
  constructor
  · intro h
    split at h
    · simp at h
    · simp at h
    · split at h
      · simp at h
      · simp only [Prod.mk.injEq, Got.ok.injEq] at h
        exact ⟨_, _, ‹_›, ‹_›, h.1.symm, h.2.symm⟩
  · rintro ⟨s1, pa, h1, h2, rfl, rfl⟩
    simp only [h1, h2]

/-- A write into a page that completes: where it was, what it counted, and the bytes that memory then holds. -/
theorem State.writePage_ok (s s2 : State) (w : Who) (va : Nat) (bs : List Byte) :
    s.writePage w va bs = (s2, .ok ()) ↔ ∃ s1 pa, s.reach w va .write = (s1, .ok pa) ∧
      s1.physFault pa bs.length .write = none ∧ s2 = (s1.countBytes w.part pa bs.length).modMem (fun m => m.writeN pa bs) := by
  unfold State.writePage
  constructor
  · intro h
    split at h
    · simp at h
    · simp at h
    · split at h
      · simp at h
      · simp only [Prod.mk.injEq, and_true] at h
        exact ⟨_, _, ‹_›, ‹_›, h.symm⟩
  · rintro ⟨s1, pa, h1, h2, rfl⟩
    simp only [h1, h2]

/-- An aligned access of at most 64 bytes lies within one page. -/
theorem firstPage_aligned (va n : Nat) (hn : n ∣ 4096) (h : va % n = 0) : firstPage va n = n := by
  obtain ⟨c, hc⟩ := hn
  have hn0 : 0 < n := by rcases Nat.eq_zero_or_pos n with rfl | h <;> omega
  have h1 : va % 4096 = n * (va / n % c) := by
    rw [hc, Nat.mod_mul, h, Nat.zero_add]
  have h2 : va / n % c < c := Nat.mod_lt _ (by rcases Nat.eq_zero_or_pos c with rfl | h <;> omega)
  have h3 : n * (va / n % c) + n ≤ 4096 := by
    rw [hc, ← Nat.mul_succ]; exact Nat.mul_le_mul_left _ h2
  unfold firstPage
  rw [h1]
  exact Nat.min_eq_left (by omega)

/-- A read that lies within one page. -/
theorem State.readVA_page (s : State) (w : Who) (va n : Nat) (h : firstPage va n = n) : s.readVA w va n = s.readPage w va n := by
  unfold State.readVA
  simp only [h, if_true]
  split <;> simp_all

/-- A write that lies within one page and outside the fold windows. -/
theorem State.writeVA_page (s : State) (w : Who) (va : Nat) (bs : List Byte) (h : firstPage va bs.length = bs.length)
    (hw : w.owner = true ∨ ∀ v, s.part? w.part = some v → inWindow v va bs.length = false) :
    s.writeVA w va bs = s.writePage w va bs := by
  unfold State.writeVA
  rw [if_neg]
  · simp only [h, if_true]
  · rcases hw with hw | hw
    · simp [hw]
    · cases hp : s.part? w.part <;> simp_all

/-! ## What a completed read leaves -/

/-- `t` differs from `s` at most in the translation cache of the party's region and in the meters of partitions: what a
completed read leaves. -/
structure State.ReadOnly (w : Who) (s t : State) : Prop where
  mem : t.mem = s.mem
  pkg : t.pkg = s.pkg
  sets : t.sets = s.sets
  tick : t.tick = s.tick
  steps : t.steps = s.steps
  agenda : t.agenda = s.agenda
  cur : t.cur = s.cur
  reg : ∀ r, t.reg r = { s.reg r with tlb := (t.reg r).tlb }
  other : ∀ r, w.region ≠ some r → t.reg r = s.reg r
  part : ∀ p, ∃ m, t.part? p = (s.part? p).map (fun v => { v with meter := m })

/-- Nothing read. -/
theorem State.ReadOnly.rfl (w : Who) (s : State) : State.ReadOnly w s s where
  mem := Eq.refl _
  pkg := Eq.refl _
  sets := Eq.refl _
  tick := Eq.refl _
  steps := Eq.refl _
  agenda := Eq.refl _
  cur := Eq.refl _
  reg _ := Eq.refl _
  other _ _ := Eq.refl _
  part p := by
    cases h : s.part? p with
    | none => exact ⟨{}, Eq.refl _⟩
    | some v => exact ⟨v.meter, Eq.refl _⟩

/-- One read after another. -/
theorem State.ReadOnly.trans {w : Who} {s t u : State} (h : State.ReadOnly w s t) (g : State.ReadOnly w t u) :
    State.ReadOnly w s u where
  mem := g.mem.trans h.mem
  pkg := g.pkg.trans h.pkg
  sets := g.sets.trans h.sets
  tick := g.tick.trans h.tick
  steps := g.steps.trans h.steps
  agenda := g.agenda.trans h.agenda
  cur := g.cur.trans h.cur
  reg r := by rw [g.reg r, h.reg r]
  other r hr := (g.other r hr).trans (h.other r hr)
  part p := by
    obtain ⟨m, hm⟩ := g.part p
    obtain ⟨n, hn⟩ := h.part p
    refine ⟨m, ?_⟩
    rw [hm, hn]
    cases s.part? p <;> simp only [Option.map_none, Option.map_some]

/-- The sequencer after a read. -/
theorem State.ReadOnly.seq {w : Who} {s t : State} (h : State.ReadOnly w s t) : t.seq = s.seq := by
  rw [State.seq, State.seq, h.cur, h.reg]

/-- The partition of a region after a read. -/
theorem State.ReadOnly.owner {w : Who} {s t : State} (h : State.ReadOnly w s t) (r : Nat) : t.owner r = s.owner r := by
  rw [State.owner, State.owner, h.reg]

/-- Reaching an address is a read. -/
theorem State.reach_readOnly (s s1 : State) (w : Who) (va pa : Nat) (k : AKind) (h : s.reach w va k = (s1, .ok pa)) :
    State.ReadOnly w s s1 := by
  obtain ⟨h1, h2, h3, h4, h5, h6, h7, h8, h9⟩ := State.reach_ok_frame _ _ _ _ _ _ h
  exact { mem := h1, pkg := h2, sets := h4, tick := h5, steps := h6, agenda := h7, cur := h8, reg := fun r => (h9 r).1,
          other := fun r => (h9 r).2,
          part := fun p => by simpa only [State.part?, h3] using (State.ReadOnly.rfl w s).part p }

/-- Counting in a window is a read. -/
theorem State.meterIn_readOnly (s : State) (w : Who) (p n d : Nat) (f : Counters → Counters) : State.ReadOnly w s (s.meterIn p n d f) where
  mem := State.modPart_mem ..
  pkg := State.modPart_pkg ..
  sets := State.modPart_sets ..
  tick := State.modPart_tick ..
  steps := State.modPart_steps ..
  agenda := State.modPart_agenda ..
  cur := State.modPart_cur ..
  reg r := by
    have h : (s.meterIn p n d f).reg r = s.reg r := by rw [State.reg, State.reg, State.meterIn, State.modPart_regs]
    rw [h]
  other r _ := by rw [State.reg, State.reg, State.meterIn, State.modPart_regs]
  part q := by
    unfold State.meterIn State.modPart
    cases h : s.part? p with
    | none => exact (State.ReadOnly.rfl w s).part q
    | some v =>
      simp only [State.part_setPart]
      split
      · subst q; rw [h]; exact ⟨_, Eq.refl _⟩
      · exact (State.ReadOnly.rfl w s).part q

/-- Metering is a read. -/
theorem State.meter_readOnly (s : State) (w : Who) (p d : Nat) (f : Counters → Counters) : State.ReadOnly w s (s.meter p d f) :=
  s.meterIn_readOnly w p _ d f

/-- Counting bytes is a read. -/
theorem State.countBytes_readOnly (s : State) (w : Who) (p pa n : Nat) : State.ReadOnly w s (s.countBytes p pa n) := by
  unfold State.countBytes
  split
  · exact State.meter_readOnly ..
  · split
    · exact State.meter_readOnly ..
    · exact State.ReadOnly.rfl ..

/-- A read within a page. -/
theorem State.readPage_readOnly (s s1 : State) (w : Who) (va n : Nat) (bs : List Byte) (h : s.readPage w va n = (s1, .ok bs)) :
    State.ReadOnly w s s1 := by
  obtain ⟨s2, pa, hr, -, rfl, -⟩ := (State.readPage_ok ..).1 h
  exact (State.reach_readOnly _ _ _ _ _ _ hr).trans (State.countBytes_readOnly ..)

/-- A read. -/
theorem State.readVA_readOnly (s s1 : State) (w : Who) (va n : Nat) (bs : List Byte) (h : s.readVA w va n = (s1, .ok bs)) :
    State.ReadOnly w s s1 := by
  unfold State.readVA at h
  simp only at h
  split at h
  · rename_i e
    have h1 := State.readPage_readOnly _ _ _ _ _ _ e
    split at h
    · cases h; exact h1
    · split at h
      · rename_i e2
        cases h
        exact h1.trans (State.readPage_readOnly _ _ _ _ _ _ e2)
      · exact h1.trans (State.readPage_readOnly _ _ _ _ _ _ h)
  · exact State.readPage_readOnly _ _ _ _ _ _ h

/-- A read of a number. -/
theorem State.readNum_readOnly (s s1 : State) (w : Who) (va n v : Nat) (h : s.readNum w va n = (s1, .ok v)) :
    State.ReadOnly w s s1 := by
  unfold State.readNum at h
  split at h
  · rename_i e; cases h; exact State.readVA_readOnly _ _ _ _ _ _ e
  · cases h
  · cases h

/-- A read in pieces. -/
theorem State.readMany_readOnly (w : Who) (n k : Nat) : ∀ (s s1 : State) (va : Nat) (bs : List Byte),
    s.readMany w n k va = (s1, .ok bs) → State.ReadOnly w s s1 := by
  induction k with
  | zero => intro s s1 va bs h; unfold State.readMany at h; cases h; exact State.ReadOnly.rfl ..
  | succ k ih =>
    intro s s1 va bs h
    unfold State.readMany at h
    split at h
    · rename_i e
      have h1 := State.readVA_readOnly _ _ _ _ _ _ e
      split at h
      · rename_i e2; cases h; exact h1.trans (ih _ _ _ _ e2)
      · exact h1.trans (ih _ _ _ _ h)
    · exact State.readVA_readOnly _ _ _ _ _ _ h

/-! ## The canonical form of memory -/

/-- Counting bytes touches no memory. -/
@[simp] theorem State.countBytes_mem (s : State) (p pa n : Nat) : (s.countBytes p pa n).mem = s.mem := by
  unfold State.countBytes State.meter State.meterIn
  split
  · simp
  · split <;> simp

/-- Counting bytes touches no region. -/
@[simp] theorem State.countBytes_regs (s : State) (p pa n : Nat) : (s.countBytes p pa n).regs = s.regs := by
  unfold State.countBytes State.meter State.meterIn
  split
  · simp
  · split <;> simp

/-- Counting bytes leaves the current sequencer current. -/
@[simp] theorem State.countBytes_cur (s : State) (p pa n : Nat) : (s.countBytes p pa n).cur = s.cur := by
  unfold State.countBytes State.meter State.meterIn
  split
  · simp
  · split <;> simp

/-- Counting bytes changes nothing of the package. -/
@[simp] theorem State.countBytes_pkg (s : State) (p pa n : Nat) : (s.countBytes p pa n).pkg = s.pkg := by
  unfold State.countBytes State.meter State.meterIn
  split
  · simp
  · split <;> simp

/-- A record in the fault ring keeps the canonical form. -/
theorem State.ringWrite_wf (s : State) (p : Nat) (bs : List Byte) (h : s.mem.wf = true) : (s.ringWrite p bs).mem.wf = true := by
  unfold State.ringWrite
  split
  · exact h
  · dsimp only [State.setPart]
    split
    · exact h
    · exact Memory.wf_writeN _ _ _ (Memory.wf_writeN _ _ _ h)

/-- A held fault keeps the canonical form. -/
theorem State.holdFault_wf (s : State) (w : Who) (c : BitVec 9) (l a va gpa : Nat) (h : s.mem.wf = true) :
    (s.holdFault w c l a va gpa).1.mem.wf = true := by
  unfold State.holdFault
  split
  · exact h
  · split
    · exact h
    · exact State.ringWrite_wf _ _ _ h

/-- An awaited answer keeps the canonical form. -/
theorem State.awaitAnswer_wf (s : State) (w : Who) (f : FaultRec) (h : s.mem.wf = true) :
    (s.awaitAnswer w f).1.mem.wf = true := by
  unfold State.awaitAnswer
  split
  · simpa using h
  · exact h

/-- The use of a translation keeps the canonical form. -/
theorem State.useXlate_wf (s : State) (w : Who) (x : Xlate) (va : Nat) (k : AKind) (h : s.mem.wf = true) :
    (s.useXlate w x va k).1.mem.wf = true := by
  have hq : ∀ o : InvOp, (s.invQueue w.part o).mem.wf = true := fun o => by rw [State.invQueue_mem]; exact h
  unfold State.useXlate
  simp only
  split
  · exact State.awaitAnswer_wf _ _ _ h
  · refine iteInduction (motive := fun y : State × Got Nat => y.1.mem.wf = true) (fun _ => h) (fun _ => ?_)
    refine iteInduction (motive := fun y : State × Got Nat => y.1.mem.wf = true) (fun _ => h) (fun _ => ?_)
    refine iteInduction (motive := fun y : State × Got Nat => y.1.mem.wf = true)
      (fun _ => State.holdFault_wf _ _ _ _ _ _ _ h) (fun _ => ?_)
    refine iteInduction (motive := fun y : State × Got Nat => y.1.mem.wf = true) (fun _ => hq _) (fun _ => ?_)
    split
    · exact h
    · refine iteInduction (motive := fun y : State × Got Nat => y.1.mem.wf = true) (fun _ => hq _) (fun _ => ?_)
      split <;> exact h

/-- The search for a translation keeps the canonical form. -/
theorem State.xlateFor_wf (s : State) (w : Who) (va : Nat) (k : AKind) (h : s.mem.wf = true) :
    (s.xlateFor w va k).1.mem.wf = true := by
  have hup : ∀ y : State × Got Nat, y.1.mem.wf = true →
      (match y with | (s1, .fault c a) => ((s1, .fault c a) : State × Got Xlate) | (s1, _) => (s1, .held)).1.mem.wf = true := by
    intro y hy; split <;> exact hy
  have huse : ∀ x : Xlate, (s.useCache w x).mem.wf = true := by
    intro x
    rcases State.useCache_cases s w x with e | ⟨r, -, e⟩ <;> simpa [e] using h
  unfold State.xlateFor
  simp only
  split
  · exact h
  · split
    · exact hup _ (State.awaitAnswer_wf _ _ _ h)
    · exact huse _
    · split
      · exact h
      · exact hup _ (State.holdFault_wf _ _ _ _ _ _ _ h)
      · split
        · exact hup _ (State.holdFault_wf _ _ _ _ _ _ _ h)
        · simpa using h
      · exact huse _

/-- Reaching an address keeps the canonical form. -/
theorem State.reach_wf (s : State) (w : Who) (va : Nat) (k : AKind) (h : s.mem.wf = true) : (s.reach w va k).1.mem.wf = true := by
  have hx := State.xlateFor_wf s w va k h
  unfold State.reach
  split
  · exact h
  · split
    · split
      · exact h
      · split <;> exact h
    · split <;> exact h
    · exact h
    · exact h
    · split
      · rename_i e; rw [e] at hx; exact State.useXlate_wf _ _ _ _ _ hx
      · rename_i e; rw [e] at hx; exact hx
      · rename_i e; rw [e] at hx; exact hx

/-- A read within a page keeps the canonical form. -/
theorem State.readPage_wf (s : State) (w : Who) (va n : Nat) (h : s.mem.wf = true) : (s.readPage w va n).1.mem.wf = true := by
  have hx := State.reach_wf s w va .read h
  unfold State.readPage
  split
  · rename_i e; rw [e] at hx; exact hx
  · rename_i e; rw [e] at hx; exact hx
  · rename_i e; rw [e] at hx
    split
    · exact hx
    · simpa using hx

/-- A write within a page keeps the canonical form. -/
theorem State.writePage_wf (s : State) (w : Who) (va : Nat) (bs : List Byte) (h : s.mem.wf = true) :
    (s.writePage w va bs).1.mem.wf = true := by
  have hx := State.reach_wf s w va .write h
  unfold State.writePage
  split
  · rename_i e; rw [e] at hx; exact hx
  · rename_i e; rw [e] at hx; exact hx
  · rename_i e; rw [e] at hx
    split
    · exact hx
    · exact Memory.wf_writeN _ _ _ (by simpa using hx)

/-- A read keeps the canonical form. -/
theorem State.readVA_wf (s : State) (w : Who) (va n : Nat) (h : s.mem.wf = true) : (s.readVA w va n).1.mem.wf = true := by
  have hx := State.readPage_wf s w va (firstPage va n) h
  unfold State.readVA
  simp only
  split
  · rename_i e; rw [e] at hx
    split
    · exact hx
    · have hy := State.readPage_wf _ w (va + firstPage va n) (n - firstPage va n) hx
      split
      · rename_i e2; rw [e2] at hy; exact hy
      · exact hy
  · exact hx

/-- A write keeps the canonical form. -/
theorem State.writeVA_wf (s : State) (w : Who) (va : Nat) (bs : List Byte) (h : s.mem.wf = true) :
    (s.writeVA w va bs).1.mem.wf = true := by
  unfold State.writeVA
  refine iteInduction (motive := fun y : State × Got Unit => y.1.mem.wf = true) (fun _ => h) (fun _ => ?_)
  · simp only
    split
    · exact State.writePage_wf _ _ _ _ h
    · have hx := State.reach_wf s w (va + firstPage va bs.length) .write h
      split
      · rename_i e; rw [e] at hx
        split
        · exact hx
        · have hy := State.writePage_wf _ w va (bs.take (firstPage va bs.length)) hx
          split
          · rename_i e2; rw [e2] at hy; exact State.writePage_wf _ _ _ _ hy
          · exact hy
      · rename_i e; rw [e] at hx; exact hx
      · rename_i e; rw [e] at hx; exact hx

/-- A read of a number keeps the canonical form. -/
theorem State.readNum_wf (s : State) (w : Who) (va n : Nat) (h : s.mem.wf = true) : (s.readNum w va n).1.mem.wf = true := by
  have hx := State.readVA_wf s w va n h
  unfold State.readNum
  split <;> (rename_i e; rw [e] at hx; exact hx)

/-- A write of a number keeps the canonical form. -/
theorem State.writeNum_wf (s : State) (w : Who) (va n v : Nat) (h : s.mem.wf = true) :
    (s.writeNum w va n v).1.mem.wf = true := State.writeVA_wf _ _ _ _ h

/-- A read in pieces keeps the canonical form. -/
theorem State.readMany_wf (w : Who) (n k : Nat) : ∀ (s : State) (va : Nat), s.mem.wf = true →
    (s.readMany w n k va).1.mem.wf = true := by
  induction k with
  | zero => intro s va h; exact h
  | succ k ih =>
    intro s va h
    have hx := State.readVA_wf s w va n h
    unfold State.readMany
    split
    · rename_i e; rw [e] at hx
      have hy := ih _ (va + n) hx
      split
      · rename_i e2; rw [e2] at hy; exact hy
      · exact hy
    · exact hx

/-- A write in pieces keeps the canonical form. -/
theorem State.writeMany_wf (w : Who) (k : Nat) : ∀ (s : State) (va : Nat) (bs : List Byte), s.mem.wf = true →
    (s.writeMany w k va bs).1.mem.wf = true := by
  induction k with
  | zero => intro s va bs h; exact h
  | succ k ih =>
    intro s va bs h
    have hx := State.writeVA_wf s w va (bs.take 64) h
    unfold State.writeMany
    split
    · exact h
    · split
      · rename_i e; rw [e] at hx; exact ih _ _ _ hx
      · exact hx

/-- A cause, delivered or fatal, keeps memory. -/
@[simp] theorem State.deliver_mem (s : State) (r : Nat) (c : BitVec 9) (a b x y : Word) : (s.deliver r c a b x y).mem = s.mem := by
  unfold State.deliver State.fatal
  simp only
  split
  · split <;> simp
  · simp

/-- A trap keeps memory. -/
@[simp] theorem State.trap_mem (s : State) (c : BitVec 9) (x y : Word) : (s.trap c x y).mem = s.mem := State.deliver_mem ..

/-- A trap that resumes behind its instruction keeps memory. -/
@[simp] theorem State.trapNext_mem (s : State) (c : BitVec 9) (n : Nat) (y : Word) : (s.trapNext c n y).mem = s.mem :=
  State.deliver_mem ..

/-- A queued cause keeps memory. -/
@[simp] theorem State.queueCause_mem (s : State) (r : Nat) (c : Pend) : (s.queueCause r c).mem = s.mem := by
  unfold State.queueCause State.fatal
  split
  · rfl
  · simp only
    split <;> simp

end Sys2Proof.Machine
end

