-- ==== Sys2Proof/Laws/PerInstr.lean ====
section
/-!
SUPPORT. One lemma per instruction: the length code of its lead word names the number of its words (R92).
-/
namespace Sys2Proof.Laws

/-! ## The top field of a word -/

theorem packNat_top (fs : List (Nat × Nat)) (n v : Nat) :
    packNat (fs ++ [(n, v)]) / 2 ^ (fs.map Prod.fst).sum = v % 2 ^ n := by
  induction fs with
  | nil => simp [packNat]
  | cons f fs ih =>
    obtain ⟨m, u⟩ := f
    simp only [List.cons_append, packNat, List.map_cons, List.sum_cons, pow_add]
    rw [← Nat.div_div_eq_div_mul, Nat.add_mul_div_left _ _ (by positivity), Nat.div_eq_of_lt (Nat.mod_lt _ (by positivity)), zero_add, ih]

/-- The length code of a word whose top field is given. -/
theorem lengthCode_packWord (fs : List (Nat × Nat)) (v : Nat) (h : (fs.map Prod.fst).sum = 30) :
    fieldN (packWord (fs ++ [(2, v)])) 30 2 = v % 4 := by
  have := packNat_top fs 2 v
  rw [h] at this
  simp only [fieldN, packWord, BitVec.toNat_ofNat]
  omega

theorem lengthCode_lead (len major low : Nat) : fieldN (lead len major low) 30 2 = len % 4 :=
  lengthCode_packWord [(24, low), (6, major)] len rfl
theorem lengthCode_r3 (major fn d a b k : Nat) : fieldN (r3 major fn d a b k) 30 2 = 0 :=
  lengthCode_packWord [(3, k), (6, fn), (5, b), (5, a), (5, d), (6, major)] 0 rfl
theorem lengthCode_ri (major d a i : Nat) : fieldN (ri major d a i) 30 2 = 0 :=
  lengthCode_packWord [(14, i), (5, a), (5, d), (6, major)] 0 rfl
theorem lengthCode_memWord (major d a size order scope k : Nat) : fieldN (memWord major d a size order scope k) 30 2 = 1 :=
  lengthCode_packWord [(3, k), (3, 0), (3, scope), (2, order), (3, size), (5, a), (5, d), (6, major)] 1 rfl
theorem lengthCode_fenceWord (kind scope k : Nat) : fieldN (fenceWord kind scope k) 30 2 = 0 :=
  lengthCode_packWord [(3, k), (3, 0), (3, scope), (13, 0), (2, kind), (6, 0x1E)] 0 rfl
theorem lengthCode_strmWord (s a b fn nw : Nat) : fieldN (strmWord s a b fn nw) 30 2 = 1 :=
  lengthCode_packWord [(1, nw), (6, fn), (5, b), (5, a), (7, s), (6, 0x24)] 1 rfl
theorem lengthCode_tagLead (t a b fn : Nat) : fieldN (tagLead t a b fn) 30 2 = 1 :=
  lengthCode_packWord [(2, 0), (4, fn), (5, b), (5, a), (8, t), (6, 0x2C)] 1 rfl
theorem lengthCode_commitWord (fn d n : Nat) : fieldN (commitWord fn d n) 30 2 = 0 :=
  lengthCode_packWord [(3, 0), (6, fn), (6, 0), (4, n), (5, d), (6, 0x31)] 0 rfl
theorem lengthCode_csrWord (op d a c : Nat) : fieldN (csrWord op d a c) 30 2 = 0 :=
  lengthCode_packWord [(2, op), (12, c), (5, a), (5, d), (6, 0x3C)] 0 rfl

/-! ## The family -/

/-- The length code of the lead word, if the instruction has words, is one less than their number, and they are at most three (R92). -/
def Encoding.Statement (i : Instr) : Prop :=
  (encode i).length ≤ 3 ∧ ∀ w ∈ (encode i).head?, fieldN w 30 2 + 1 = (encode i).length

/-- An instruction without words. -/
theorem encoding_none (i : Instr) (h : encode i = []) : Encoding.Statement i := by simp [Encoding.Statement, h]
/-- An instruction whose lead word carries the code of its words. -/
theorem encoding_some (i : Instr) (w : IWord) (ws : List IWord) (h : encode i = w :: ws) (hl : ws.length ≤ 2)
    (hc : fieldN w 30 2 = ws.length) : Encoding.Statement i := by
  refine ⟨by simp [h]; omega, fun x hx => ?_⟩
  simp only [h, List.head?_cons, Option.mem_def, Option.some.injEq] at hx
  simp [h, ← hx, hc]

theorem Encoding.coldReset (stage : Nat) : Encoding.Statement (.coldReset stage) :=
  encoding_none _ rfl
theorem Encoding.getVersion : Encoding.Statement .getVersion := encoding_none _ rfl
theorem Encoding.getCapabilities : Encoding.Statement .getCapabilities := encoding_none _ rfl
theorem Encoding.negotiateAlgorithms : Encoding.Statement .negotiateAlgorithms := encoding_none _ rfl
theorem Encoding.getCertificate (slot : Nat) : Encoding.Statement (.getCertificate slot) :=
  encoding_none _ rfl
theorem Encoding.getMeasurements (which : Option Nat) : Encoding.Statement (.getMeasurements which) :=
  encoding_none _ rfl
theorem Encoding.tdLinkMessage (die : Nat) (msg : List Byte) (code : BitVec 128) : Encoding.Statement (.tdLinkMessage die msg code) :=
  encoding_none _ rfl
theorem Encoding.ucieModuleRemoval (link : Nat) : Encoding.Statement (.ucieModuleRemoval link) :=
  encoding_none _ rfl
theorem Encoding.fabricPortDownshift (port : Nat) : Encoding.Statement (.fabricPortDownshift port) :=
  encoding_none _ rfl
theorem Encoding.pseudoChannelMapOut (pc : Nat) : Encoding.Statement (.pseudoChannelMapOut pc) :=
  encoding_none _ rfl
theorem Encoding.islandStateChange (vf : Nat) (st : VfState) : Encoding.Statement (.islandStateChange vf st) :=
  encoding_none _ rfl
theorem Encoding.cfwq (pa : Word) : Encoding.Statement (.cfwq pa) :=
  encoding_none _ rfl
theorem Encoding.headerLineChange (q : QueueName) : Encoding.Statement (.headerLineChange q) :=
  encoding_none _ rfl
theorem Encoding.badCommand : Encoding.Statement .badCommand := encoding_none _ rfl
theorem Encoding.devInfo : Encoding.Statement .devInfo := encoding_none _ rfl
theorem Encoding.devHealth : Encoding.Statement .devHealth := encoding_none _ rfl
theorem Encoding.queueReg : Encoding.Statement .queueReg := encoding_none _ rfl
theorem Encoding.queueUnreg : Encoding.Statement .queueUnreg := encoding_none _ rfl
theorem Encoding.partCreate : Encoding.Statement .partCreate := encoding_none _ rfl
theorem Encoding.partDestroy : Encoding.Statement .partDestroy := encoding_none _ rfl
theorem Encoding.partQuery : Encoding.Statement .partQuery := encoding_none _ rfl
theorem Encoding.partSuspend (fin : Option Nat) : Encoding.Statement (.partSuspend fin) :=
  encoding_none _ rfl
theorem Encoding.partResume (fin : Option Nat) : Encoding.Statement (.partResume fin) :=
  encoding_none _ rfl
theorem Encoding.partMigrateOut : Encoding.Statement .partMigrateOut := encoding_none _ rfl
theorem Encoding.partMigrateIn : Encoding.Statement .partMigrateIn := encoding_none _ rfl
theorem Encoding.s2Update : Encoding.Statement .s2Update := encoding_none _ rfl
theorem Encoding.s2Resume : Encoding.Statement .s2Resume := encoding_none _ rfl
theorem Encoding.s2Abort : Encoding.Statement .s2Abort := encoding_none _ rfl
theorem Encoding.rankSet : Encoding.Statement .rankSet := encoding_none _ rfl
theorem Encoding.meterArm : Encoding.Statement .meterArm := encoding_none _ rfl
theorem Encoding.meterRead : Encoding.Statement .meterRead := encoding_none _ rfl
theorem Encoding.nopPacket (p q : Nat) : Encoding.Statement (.nopPacket p q) :=
  encoding_none _ rfl
theorem Encoding.launchPacket (p q : Nat) : Encoding.Statement (.launchPacket p q) :=
  encoding_none _ rfl
theorem Encoding.gate (p q : Nat) : Encoding.Statement (.gate p q) :=
  encoding_none _ rfl
theorem Encoding.patch (p q : Nat) : Encoding.Statement (.patch p q) :=
  encoding_none _ rfl
theorem Encoding.inval (p q : Nat) : Encoding.Statement (.inval p q) :=
  encoding_none _ rfl
theorem Encoding.hcopy (p q : Nat) : Encoding.Statement (.hcopy p q) :=
  encoding_none _ rfl
theorem Encoding.signal (p q : Nat) : Encoding.Statement (.signal p q) :=
  encoding_none _ rfl
theorem Encoding.packetMalformed (p q : Nat) : Encoding.Statement (.packetMalformed p q) :=
  encoding_none _ rfl
theorem Encoding.gateEvaluation (p q : Nat) : Encoding.Statement (.gateEvaluation p q) :=
  encoding_none _ rfl
theorem Encoding.gateTimeout (p q : Nat) : Encoding.Statement (.gateTimeout p q) :=
  encoding_none _ rfl
theorem Encoding.hcopyCompletion (p q sector : Nat) : Encoding.Statement (.hcopyCompletion p q sector) :=
  encoding_none _ rfl
theorem Encoding.signalAfterReplays (p q : Nat) : Encoding.Statement (.signalAfterReplays p q) :=
  encoding_none _ rfl
theorem Encoding.replayBegin (p n : Nat) : Encoding.Statement (.replayBegin p n) :=
  encoding_none _ rfl
theorem Encoding.replayComplete (p n : Nat) : Encoding.Statement (.replayComplete p n) :=
  encoding_none _ rfl
theorem Encoding.gangTick (set : Nat) : Encoding.Statement (.gangTick set) :=
  encoding_none _ rfl
theorem Encoding.regionCompletion (r : Nat) : Encoding.Statement (.regionCompletion r) :=
  encoding_none _ rfl
theorem Encoding.markerArrival (r : Nat) : Encoding.Statement (.markerArrival r) :=
  encoding_none _ rfl
theorem Encoding.regionSaveComplete (r : Nat) : Encoding.Statement (.regionSaveComplete r) :=
  encoding_none _ rfl
theorem Encoding.saveDeadline (p n dg : Nat) : Encoding.Statement (.saveDeadline p n dg) :=
  encoding_none _ rfl
theorem Encoding.partitionReset (p : Nat) : Encoding.Statement (.partitionReset p) :=
  encoding_none _ rfl
theorem Encoding.causeDelivery (r : Nat) : Encoding.Statement (.causeDelivery r) :=
  encoding_none _ rfl
theorem Encoding.yieldTimeout (r : Nat) : Encoding.Statement (.yieldTimeout r) :=
  encoding_none _ rfl
theorem Encoding.replicaCreation (p : Nat) : Encoding.Statement (.replicaCreation p) :=
  encoding_none _ rfl
theorem Encoding.collapse (p : Nat) : Encoding.Statement (.collapse p) :=
  encoding_none _ rfl
theorem Encoding.remotePage (p : Nat) (data : List Byte) : Encoding.Statement (.remotePage p data) :=
  encoding_none _ rfl
theorem Encoding.remotePullTimeout (p : Nat) : Encoding.Statement (.remotePullTimeout p) :=
  encoding_none _ rfl
theorem Encoding.remainingFramePull (p : Nat) (data : List Byte) : Encoding.Statement (.remainingFramePull p data) :=
  encoding_none _ rfl
theorem Encoding.pullServe (p frame : Nat) (session : BitVec 128) : Encoding.Statement (.pullServe p frame session) :=
  encoding_none _ rfl
theorem Encoding.migrationSourceEnd (p : Nat) (session : BitVec 128) : Encoding.Statement (.migrationSourceEnd p session) :=
  encoding_none _ rfl
theorem Encoding.extentMiss (r s : Nat) : Encoding.Statement (.extentMiss r s) :=
  encoding_none _ rfl
theorem Encoding.streamAccess (r s : Nat) : Encoding.Statement (.streamAccess r s) :=
  encoding_none _ rfl
theorem Encoding.copySector (r c sector : Nat) : Encoding.Statement (.copySector r c sector) :=
  encoding_none _ rfl
theorem Encoding.copyCompletion (r c : Nat) : Encoding.Statement (.copyCompletion r c) :=
  encoding_none _ rfl
theorem Encoding.remoteSignal (src dst : Nat) : Encoding.Statement (.remoteSignal src dst) :=
  encoding_none _ rfl
theorem Encoding.doneToken (r : Nat) : Encoding.Statement (.doneToken r) :=
  encoding_none _ rfl
theorem Encoding.armEvaluation (r t : Nat) : Encoding.Statement (.armEvaluation r t) :=
  encoding_none _ rfl
theorem Encoding.routerWordArrival (r : Nat) (mesh : Bool) : Encoding.Statement (.routerWordArrival r mesh) :=
  encoding_none _ rfl
theorem Encoding.keyMismatch (port key : Nat) : Encoding.Statement (.keyMismatch port key) :=
  encoding_none _ rfl
theorem Encoding.rankFrameArrival (port key region : Nat) (body : RankBody) : Encoding.Statement (.rankFrameArrival port key region body) :=
  encoding_none _ rfl
theorem Encoding.rankAck (p frame : Nat) : Encoding.Statement (.rankAck p frame) :=
  encoding_none _ rfl
theorem Encoding.foldOperation (issuer owner row : Nat) : Encoding.Statement (.foldOperation issuer owner row) :=
  encoding_none _ rfl
theorem Encoding.foldReturn (r : Nat) : Encoding.Statement (.foldReturn r) :=
  encoding_none _ rfl
theorem Encoding.orphanReturn (src dst : Nat) : Encoding.Statement (.orphanReturn src dst) :=
  encoding_none _ rfl
theorem Encoding.windowRehome (p w : Nat) : Encoding.Statement (.windowRehome p w) :=
  encoding_none _ rfl
theorem Encoding.islandSlot (r : Nat) (bank : Bool) (isl : Nat) : Encoding.Statement (.islandSlot r bank isl) :=
  encoding_none _ rfl
theorem Encoding.islandSwitch (r isl : Nat) : Encoding.Statement (.islandSwitch r isl) :=
  encoding_none _ rfl
theorem Encoding.roundFence (r : Nat) (bank : Bool) : Encoding.Statement (.roundFence r bank) :=
  encoding_none _ rfl
theorem Encoding.roundCommit (r : Nat) (bank : Bool) : Encoding.Statement (.roundCommit r bank) :=
  encoding_none _ rfl
theorem Encoding.roundReplay (r : Nat) (bank : Bool) : Encoding.Statement (.roundReplay r bank) :=
  encoding_none _ rfl
theorem Encoding.bankDrain (r : Nat) (bank : Bool) : Encoding.Statement (.bankDrain r bank) :=
  encoding_none _ rfl
theorem Encoding.edgeStep (r row : Nat) : Encoding.Statement (.edgeStep r row) :=
  encoding_none _ rfl
theorem Encoding.throttleLevelSet (vf level : Nat) : Encoding.Statement (.throttleLevelSet vf level) :=
  encoding_none _ rfl
theorem Encoding.thermalTrip (die : Nat) : Encoding.Statement (.thermalTrip die) :=
  encoding_none _ rfl
theorem Encoding.thermalRecovery (die : Nat) : Encoding.Statement (.thermalRecovery die) :=
  encoding_none _ rfl
theorem Encoding.heartbeatPeriod (r t : Nat) : Encoding.Statement (.heartbeatPeriod r t) :=
  encoding_none _ rfl
theorem Encoding.heartbeat (r t : Nat) : Encoding.Statement (.heartbeat r t) :=
  encoding_none _ rfl
theorem Encoding.accuse (r t : Nat) : Encoding.Statement (.accuse r t) :=
  encoding_none _ rfl
theorem Encoding.withdraw (r t : Nat) : Encoding.Statement (.withdraw r t) :=
  encoding_none _ rfl
theorem Encoding.fenceBeat (r t : Nat) : Encoding.Statement (.fenceBeat r t) :=
  encoding_none _ rfl
theorem Encoding.appeal (r t : Nat) : Encoding.Statement (.appeal r t) :=
  encoding_none _ rfl
theorem Encoding.admitBeat (r t : Nat) : Encoding.Statement (.admitBeat r t) :=
  encoding_none _ rfl
theorem Encoding.periodEnd (r t : Nat) : Encoding.Statement (.periodEnd r t) :=
  encoding_none _ rfl
theorem Encoding.remap (r : Nat) : Encoding.Statement (.remap r) :=
  encoding_none _ rfl
theorem Encoding.bistEnd (r t : Nat) : Encoding.Statement (.bistEnd r t) :=
  encoding_none _ rfl
theorem Encoding.appealLimit (r t : Nat) : Encoding.Statement (.appealLimit r t) :=
  encoding_none _ rfl
theorem Encoding.probationEnd (r t : Nat) : Encoding.Statement (.probationEnd r t) :=
  encoding_none _ rfl
theorem Encoding.meterWindow (die : Nat) (codeOk : Bool) : Encoding.Statement (.meterWindow die codeOk) :=
  encoding_none _ rfl
theorem Encoding.usageRecord (p : Nat) : Encoding.Statement (.usageRecord p) :=
  encoding_none _ rfl
theorem Encoding.keyQuarantineEnd (key : Nat) : Encoding.Statement (.keyQuarantineEnd key) :=
  encoding_none _ rfl
theorem Encoding.decodeFault : Encoding.Statement .decodeFault := encoding_none _ rfl
theorem Encoding.rankFrameRetransmission (p frame : Nat) : Encoding.Statement (.rankFrameRetransmission p frame) :=
  encoding_none _ rfl
theorem Encoding.suspendTimeout (p : Nat) : Encoding.Statement (.suspendTimeout p) :=
  encoding_none _ rfl
theorem Encoding.tileFallsSilent (r t : Nat) (babble : Bool) : Encoding.Statement (.tileFallsSilent r t babble) :=
  encoding_none _ rfl
theorem Encoding.memoryPoison (pa len : Nat) : Encoding.Statement (.memoryPoison pa len) :=
  encoding_none _ rfl
theorem Encoding.nop (k : BitVec 3) : Encoding.Statement (.nop k) :=
  encoding_some _ _ _ rfl (by simp) (lengthCode_r3 ..)
theorem Encoding.brk (k : BitVec 3) : Encoding.Statement (.brk k) :=
  encoding_some _ _ _ rfl (by simp) (lengthCode_r3 ..)
theorem Encoding.seqEnd (k : BitVec 3) : Encoding.Statement (.seqEnd k) :=
  encoding_some _ _ _ rfl (by simp) (lengthCode_r3 ..)
theorem Encoding.yield (k : BitVec 3) : Encoding.Statement (.yield k) :=
  encoding_some _ _ _ rfl (by simp) (lengthCode_r3 ..)
theorem Encoding.eret (k : BitVec 3) : Encoding.Statement (.eret k) :=
  encoding_some _ _ _ rfl (by simp) (lengthCode_r3 ..)
theorem Encoding.time (d : BitVec 5) (k : BitVec 3) : Encoding.Statement (.time d k) :=
  encoding_some _ _ _ rfl (by simp) (lengthCode_r3 ..)
theorem Encoding.whoami (d : BitVec 5) (k : BitVec 3) : Encoding.Statement (.whoami d k) :=
  encoding_some _ _ _ rfl (by simp) (lengthCode_r3 ..)
theorem Encoding.add (d a b : BitVec 5) (k : BitVec 3) : Encoding.Statement (.add d a b k) :=
  encoding_some _ _ _ rfl (by simp) (lengthCode_r3 ..)
theorem Encoding.sub (d a b : BitVec 5) (k : BitVec 3) : Encoding.Statement (.sub d a b k) :=
  encoding_some _ _ _ rfl (by simp) (lengthCode_r3 ..)
theorem Encoding.mul (d a b : BitVec 5) (k : BitVec 3) : Encoding.Statement (.mul d a b k) :=
  encoding_some _ _ _ rfl (by simp) (lengthCode_r3 ..)
theorem Encoding.mulh (d a b : BitVec 5) (k : BitVec 3) : Encoding.Statement (.mulh d a b k) :=
  encoding_some _ _ _ rfl (by simp) (lengthCode_r3 ..)
theorem Encoding.mulhu (d a b : BitVec 5) (k : BitVec 3) : Encoding.Statement (.mulhu d a b k) :=
  encoding_some _ _ _ rfl (by simp) (lengthCode_r3 ..)
theorem Encoding.div (d a b : BitVec 5) (k : BitVec 3) : Encoding.Statement (.div d a b k) :=
  encoding_some _ _ _ rfl (by simp) (lengthCode_r3 ..)
theorem Encoding.divu (d a b : BitVec 5) (k : BitVec 3) : Encoding.Statement (.divu d a b k) :=
  encoding_some _ _ _ rfl (by simp) (lengthCode_r3 ..)
theorem Encoding.rem (d a b : BitVec 5) (k : BitVec 3) : Encoding.Statement (.rem d a b k) :=
  encoding_some _ _ _ rfl (by simp) (lengthCode_r3 ..)
theorem Encoding.remu (d a b : BitVec 5) (k : BitVec 3) : Encoding.Statement (.remu d a b k) :=
  encoding_some _ _ _ rfl (by simp) (lengthCode_r3 ..)
theorem Encoding.and (d a b : BitVec 5) (k : BitVec 3) : Encoding.Statement (.and d a b k) :=
  encoding_some _ _ _ rfl (by simp) (lengthCode_r3 ..)
theorem Encoding.or (d a b : BitVec 5) (k : BitVec 3) : Encoding.Statement (.or d a b k) :=
  encoding_some _ _ _ rfl (by simp) (lengthCode_r3 ..)
theorem Encoding.xor (d a b : BitVec 5) (k : BitVec 3) : Encoding.Statement (.xor d a b k) :=
  encoding_some _ _ _ rfl (by simp) (lengthCode_r3 ..)
theorem Encoding.andn (d a b : BitVec 5) (k : BitVec 3) : Encoding.Statement (.andn d a b k) :=
  encoding_some _ _ _ rfl (by simp) (lengthCode_r3 ..)
theorem Encoding.shl (d a b : BitVec 5) (k : BitVec 3) : Encoding.Statement (.shl d a b k) :=
  encoding_some _ _ _ rfl (by simp) (lengthCode_r3 ..)
theorem Encoding.shr (d a b : BitVec 5) (k : BitVec 3) : Encoding.Statement (.shr d a b k) :=
  encoding_some _ _ _ rfl (by simp) (lengthCode_r3 ..)
theorem Encoding.sar (d a b : BitVec 5) (k : BitVec 3) : Encoding.Statement (.sar d a b k) :=
  encoding_some _ _ _ rfl (by simp) (lengthCode_r3 ..)
theorem Encoding.rol (d a b : BitVec 5) (k : BitVec 3) : Encoding.Statement (.rol d a b k) :=
  encoding_some _ _ _ rfl (by simp) (lengthCode_r3 ..)
theorem Encoding.min (d a b : BitVec 5) (k : BitVec 3) : Encoding.Statement (.min d a b k) :=
  encoding_some _ _ _ rfl (by simp) (lengthCode_r3 ..)
theorem Encoding.max (d a b : BitVec 5) (k : BitVec 3) : Encoding.Statement (.max d a b k) :=
  encoding_some _ _ _ rfl (by simp) (lengthCode_r3 ..)
theorem Encoding.minu (d a b : BitVec 5) (k : BitVec 3) : Encoding.Statement (.minu d a b k) :=
  encoding_some _ _ _ rfl (by simp) (lengthCode_r3 ..)
theorem Encoding.maxu (d a b : BitVec 5) (k : BitVec 3) : Encoding.Statement (.maxu d a b k) :=
  encoding_some _ _ _ rfl (by simp) (lengthCode_r3 ..)
theorem Encoding.clz (d a : BitVec 5) (k : BitVec 3) : Encoding.Statement (.clz d a k) :=
  encoding_some _ _ _ rfl (by simp) (lengthCode_r3 ..)
theorem Encoding.ctz (d a : BitVec 5) (k : BitVec 3) : Encoding.Statement (.ctz d a k) :=
  encoding_some _ _ _ rfl (by simp) (lengthCode_r3 ..)
theorem Encoding.popc (d a : BitVec 5) (k : BitVec 3) : Encoding.Statement (.popc d a k) :=
  encoding_some _ _ _ rfl (by simp) (lengthCode_r3 ..)
theorem Encoding.bswap (d a : BitVec 5) (k : BitVec 3) : Encoding.Statement (.bswap d a k) :=
  encoding_some _ _ _ rfl (by simp) (lengthCode_r3 ..)
theorem Encoding.sextB (d a : BitVec 5) (k : BitVec 3) : Encoding.Statement (.sextB d a k) :=
  encoding_some _ _ _ rfl (by simp) (lengthCode_r3 ..)
theorem Encoding.sextH (d a : BitVec 5) (k : BitVec 3) : Encoding.Statement (.sextH d a k) :=
  encoding_some _ _ _ rfl (by simp) (lengthCode_r3 ..)
theorem Encoding.sextW (d a : BitVec 5) (k : BitVec 3) : Encoding.Statement (.sextW d a k) :=
  encoding_some _ _ _ rfl (by simp) (lengthCode_r3 ..)
theorem Encoding.addsat (d a b : BitVec 5) (k : BitVec 3) : Encoding.Statement (.addsat d a b k) :=
  encoding_some _ _ _ rfl (by simp) (lengthCode_r3 ..)
theorem Encoding.subsat (d a b : BitVec 5) (k : BitVec 3) : Encoding.Statement (.subsat d a b k) :=
  encoding_some _ _ _ rfl (by simp) (lengthCode_r3 ..)
theorem Encoding.sel (d a b : BitVec 5) (p : BitVec 3) : Encoding.Statement (.sel d a b p) :=
  encoding_some _ _ _ rfl (by simp) (lengthCode_r3 ..)
theorem Encoding.addi (d a : BitVec 5) (i : BitVec 14) : Encoding.Statement (.addi d a i) :=
  encoding_some _ _ _ rfl (by simp) (lengthCode_ri ..)
theorem Encoding.andi (d a : BitVec 5) (i : BitVec 14) : Encoding.Statement (.andi d a i) :=
  encoding_some _ _ _ rfl (by simp) (lengthCode_ri ..)
theorem Encoding.ori (d a : BitVec 5) (i : BitVec 14) : Encoding.Statement (.ori d a i) :=
  encoding_some _ _ _ rfl (by simp) (lengthCode_ri ..)
theorem Encoding.xori (d a : BitVec 5) (i : BitVec 14) : Encoding.Statement (.xori d a i) :=
  encoding_some _ _ _ rfl (by simp) (lengthCode_ri ..)
theorem Encoding.shli (d a : BitVec 5) (n : BitVec 6) : Encoding.Statement (.shli d a n) :=
  encoding_some _ _ _ rfl (by simp) (lengthCode_ri ..)
theorem Encoding.shri (d a : BitVec 5) (n : BitVec 6) : Encoding.Statement (.shri d a n) :=
  encoding_some _ _ _ rfl (by simp) (lengthCode_ri ..)
theorem Encoding.sari (d a : BitVec 5) (n : BitVec 6) : Encoding.Statement (.sari d a n) :=
  encoding_some _ _ _ rfl (by simp) (lengthCode_ri ..)
theorem Encoding.li8 (d : BitVec 5) (i : BitVec 32) : Encoding.Statement (.li8 d i) :=
  encoding_some _ _ _ rfl (by simp) (lengthCode_lead ..)
theorem Encoding.li12 (d : BitVec 5) (i : BitVec 64) : Encoding.Statement (.li12 d i) :=
  encoding_some _ _ _ rfl (by simp) (lengthCode_lead ..)
theorem Encoding.addpc4 (d : BitVec 5) (i : BitVec 14) : Encoding.Statement (.addpc4 d i) :=
  encoding_some _ _ _ rfl (by simp) (lengthCode_ri ..)
theorem Encoding.addpc8 (d : BitVec 5) (i : BitVec 32) : Encoding.Statement (.addpc8 d i) :=
  encoding_some _ _ _ rfl (by simp) (lengthCode_lead ..)
theorem Encoding.cmpEq (d : BitVec 3) (a b : BitVec 5) (k : BitVec 3) : Encoding.Statement (.cmpEq d a b k) :=
  encoding_some _ _ _ rfl (by simp) (lengthCode_r3 ..)
theorem Encoding.cmpNe (d : BitVec 3) (a b : BitVec 5) (k : BitVec 3) : Encoding.Statement (.cmpNe d a b k) :=
  encoding_some _ _ _ rfl (by simp) (lengthCode_r3 ..)
theorem Encoding.cmpLt (d : BitVec 3) (a b : BitVec 5) (k : BitVec 3) : Encoding.Statement (.cmpLt d a b k) :=
  encoding_some _ _ _ rfl (by simp) (lengthCode_r3 ..)
theorem Encoding.cmpLtu (d : BitVec 3) (a b : BitVec 5) (k : BitVec 3) : Encoding.Statement (.cmpLtu d a b k) :=
  encoding_some _ _ _ rfl (by simp) (lengthCode_r3 ..)
theorem Encoding.cmpGe (d : BitVec 3) (a b : BitVec 5) (k : BitVec 3) : Encoding.Statement (.cmpGe d a b k) :=
  encoding_some _ _ _ rfl (by simp) (lengthCode_r3 ..)
theorem Encoding.cmpGeu (d : BitVec 3) (a b : BitVec 5) (k : BitVec 3) : Encoding.Statement (.cmpGeu d a b k) :=
  encoding_some _ _ _ rfl (by simp) (lengthCode_r3 ..)
theorem Encoding.cmpBit (d : BitVec 3) (a b : BitVec 5) (k : BitVec 3) : Encoding.Statement (.cmpBit d a b k) :=
  encoding_some _ _ _ rfl (by simp) (lengthCode_r3 ..)
theorem Encoding.cmpiEq (d : BitVec 3) (a : BitVec 5) (i : BitVec 14) : Encoding.Statement (.cmpiEq d a i) :=
  encoding_some _ _ _ rfl (by simp) (lengthCode_ri ..)
theorem Encoding.cmpiNe (d : BitVec 3) (a : BitVec 5) (i : BitVec 14) : Encoding.Statement (.cmpiNe d a i) :=
  encoding_some _ _ _ rfl (by simp) (lengthCode_ri ..)
theorem Encoding.cmpiLt (d : BitVec 3) (a : BitVec 5) (i : BitVec 14) : Encoding.Statement (.cmpiLt d a i) :=
  encoding_some _ _ _ rfl (by simp) (lengthCode_ri ..)
theorem Encoding.cmpiGe (d : BitVec 3) (a : BitVec 5) (i : BitVec 14) : Encoding.Statement (.cmpiGe d a i) :=
  encoding_some _ _ _ rfl (by simp) (lengthCode_ri ..)
theorem Encoding.cmpiuLt (d : BitVec 3) (a : BitVec 5) (i : BitVec 14) : Encoding.Statement (.cmpiuLt d a i) :=
  encoding_some _ _ _ rfl (by simp) (lengthCode_ri ..)
theorem Encoding.cmpiuGe (d : BitVec 3) (a : BitVec 5) (i : BitVec 14) : Encoding.Statement (.cmpiuGe d a i) :=
  encoding_some _ _ _ rfl (by simp) (lengthCode_ri ..)
theorem Encoding.pand (d a b k : BitVec 3) : Encoding.Statement (.pand d a b k) :=
  encoding_some _ _ _ rfl (by simp) (lengthCode_r3 ..)
theorem Encoding.por (d a b k : BitVec 3) : Encoding.Statement (.por d a b k) :=
  encoding_some _ _ _ rfl (by simp) (lengthCode_r3 ..)
theorem Encoding.pxor (d a b k : BitVec 3) : Encoding.Statement (.pxor d a b k) :=
  encoding_some _ _ _ rfl (by simp) (lengthCode_r3 ..)
theorem Encoding.pandn (d a b k : BitVec 3) : Encoding.Statement (.pandn d a b k) :=
  encoding_some _ _ _ rfl (by simp) (lengthCode_r3 ..)
theorem Encoding.pnot (d a k : BitVec 3) : Encoding.Statement (.pnot d a k) :=
  encoding_some _ _ _ rfl (by simp) (lengthCode_r3 ..)
theorem Encoding.kmov (d a k : BitVec 3) : Encoding.Statement (.kmov d a k) :=
  encoding_some _ _ _ rfl (by simp) (lengthCode_r3 ..)
theorem Encoding.kset (d : BitVec 3) (a : BitVec 5) (k : BitVec 3) : Encoding.Statement (.kset d a k) :=
  encoding_some _ _ _ rfl (by simp) (lengthCode_r3 ..)
theorem Encoding.br (c : BitVec 3) (n : BitVec 1) (i : BitVec 20) : Encoding.Statement (.br c n i) :=
  encoding_some _ _ _ rfl (by simp) (lengthCode_packWord [_, _, _, _] 0 rfl)
theorem Encoding.jmp (i : BitVec 24) : Encoding.Statement (.jmp i) :=
  encoding_some _ _ _ rfl (by simp) (lengthCode_lead ..)
theorem Encoding.jal (d : BitVec 5) (i : BitVec 19) : Encoding.Statement (.jal d i) :=
  encoding_some _ _ _ rfl (by simp) (lengthCode_packWord [_, _, _] 0 rfl)
theorem Encoding.jalr (d a : BitVec 5) (i : BitVec 14) : Encoding.Statement (.jalr d a i) :=
  encoding_some _ _ _ rfl (by simp) (lengthCode_ri ..)
theorem Encoding.dbnz (a : BitVec 5) (i : BitVec 14) : Encoding.Statement (.dbnz a i) :=
  encoding_some _ _ _ rfl (by simp) (lengthCode_ri ..)
theorem Encoding.ld (d a : BitVec 5) (size : BitVec 3) (order : BitVec 2) (scope k : BitVec 3) (off : BitVec 32) : Encoding.Statement (.ld d a size order scope k off) :=
  encoding_some _ _ _ rfl (by simp) (lengthCode_memWord ..)
theorem Encoding.st (d a : BitVec 5) (size : BitVec 3) (order : BitVec 2) (scope k : BitVec 3) (off : BitVec 32) : Encoding.Statement (.st d a size order scope k off) :=
  encoding_some _ _ _ rfl (by simp) (lengthCode_memWord ..)
theorem Encoding.fence (scope k : BitVec 3) : Encoding.Statement (.fence scope k) :=
  encoding_some _ _ _ rfl (by simp) (lengthCode_fenceWord ..)
theorem Encoding.fenceAcq (scope k : BitVec 3) : Encoding.Statement (.fenceAcq scope k) :=
  encoding_some _ _ _ rfl (by simp) (lengthCode_fenceWord ..)
theorem Encoding.fenceRel (scope k : BitVec 3) : Encoding.Statement (.fenceRel scope k) :=
  encoding_some _ _ _ rfl (by simp) (lengthCode_fenceWord ..)
theorem Encoding.fenceStrm (scope k : BitVec 3) : Encoding.Statement (.fenceStrm scope k) :=
  encoding_some _ _ _ rfl (by simp) (lengthCode_fenceWord ..)
theorem Encoding.cfgLoad (a : BitVec 5) (k : BitVec 3) : Encoding.Statement (.cfgLoad a k) :=
  encoding_some _ _ _ rfl (by simp) (lengthCode_r3 ..)
theorem Encoding.cfgRun (k : BitVec 3) : Encoding.Statement (.cfgRun k) :=
  encoding_some _ _ _ rfl (by simp) (lengthCode_r3 ..)
theorem Encoding.cfgDrain (k : BitVec 3) : Encoding.Statement (.cfgDrain k) :=
  encoding_some _ _ _ rfl (by simp) (lengthCode_r3 ..)
theorem Encoding.cfgParam (a b : BitVec 5) (k : BitVec 3) : Encoding.Statement (.cfgParam a b k) :=
  encoding_some _ _ _ rfl (by simp) (lengthCode_r3 ..)
theorem Encoding.cfgUnbind (a : BitVec 5) (k : BitVec 3) : Encoding.Statement (.cfgUnbind a k) :=
  encoding_some _ _ _ rfl (by simp) (lengthCode_r3 ..)
theorem Encoding.cfgQuery (d a : BitVec 5) (k : BitVec 3) : Encoding.Statement (.cfgQuery d a k) :=
  encoding_some _ _ _ rfl (by simp) (lengthCode_r3 ..)
theorem Encoding.cfgAbort (k : BitVec 3) : Encoding.Statement (.cfgAbort k) :=
  encoding_some _ _ _ rfl (by simp) (lengthCode_r3 ..)
theorem Encoding.strmOpen (s : BitVec 7) (a : BitVec 5) (nw : BitVec 1) (off : BitVec 32) : Encoding.Statement (.strmOpen s a nw off) :=
  encoding_some _ _ _ rfl (by simp) (lengthCode_strmWord ..)
theorem Encoding.strmGo (s : BitVec 7) (nw acq rel : BitVec 1) (scope : BitVec 3) : Encoding.Statement (.strmGo s nw acq rel scope) :=
  encoding_some _ _ _ rfl (by simp) (lengthCode_strmWord ..)
theorem Encoding.strmBar (s : BitVec 7) (a b : BitVec 5) (nw : BitVec 1) : Encoding.Statement (.strmBar s a b nw) :=
  encoding_some _ _ _ rfl (by simp) (lengthCode_strmWord ..)
theorem Encoding.strmClose (s : BitVec 7) (nw : BitVec 1) : Encoding.Statement (.strmClose s nw) :=
  encoding_some _ _ _ rfl (by simp) (lengthCode_strmWord ..)
theorem Encoding.strmPos (s : BitVec 7) (a : BitVec 5) : Encoding.Statement (.strmPos s a) :=
  encoding_some _ _ _ rfl (by simp) (lengthCode_strmWord ..)
theorem Encoding.strmSeek (s : BitVec 7) (a : BitVec 5) (nw : BitVec 1) (off : BitVec 32) : Encoding.Statement (.strmSeek s a nw off) :=
  encoding_some _ _ _ rfl (by simp) (lengthCode_strmWord ..)
theorem Encoding.strmBind (s : BitVec 7) (kind pos idx : BitVec 8) (nw : BitVec 1) : Encoding.Statement (.strmBind s kind pos idx nw) :=
  encoding_some _ _ _ rfl (by simp) (lengthCode_strmWord ..)
theorem Encoding.strmFilt (s : BitVec 7) (f : BitVec 8) (nw : BitVec 1) : Encoding.Statement (.strmFilt s f nw) :=
  encoding_some _ _ _ rfl (by simp) (lengthCode_strmWord ..)
theorem Encoding.strmStat (s : BitVec 7) (a : BitVec 5) : Encoding.Statement (.strmStat s a) :=
  encoding_some _ _ _ rfl (by simp) (lengthCode_strmWord ..)
theorem Encoding.push (a b n : BitVec 5) (acq rel : BitVec 1) (scope k : BitVec 3) (off : BitVec 32) (m : BitVec 5) (t : BitVec 8) : Encoding.Statement (.push a b n acq rel scope k off m t) :=
  encoding_some _ _ _ rfl (by simp) (lengthCode_packWord [_, _, _, _, _, _, _, _, _] 2 rfl)
theorem Encoding.pull (a b n : BitVec 5) (acq rel : BitVec 1) (scope k : BitVec 3) (off : BitVec 32) (m : BitVec 5) (t : BitVec 8) : Encoding.Statement (.pull a b n acq rel scope k off m t) :=
  encoding_some _ _ _ rfl (by simp) (lengthCode_packWord [_, _, _, _, _, _, _, _, _] 2 rfl)
theorem Encoding.pushn (a b n : BitVec 5) (acq rel : BitVec 1) (scope k : BitVec 3) (off : BitVec 32) (m : BitVec 5) (t region : BitVec 8) : Encoding.Statement (.pushn a b n acq rel scope k off m t region) :=
  encoding_some _ _ _ rfl (by simp) (lengthCode_packWord [_, _, _, _, _, _, _, _, _] 2 rfl)
theorem Encoding.tagBlk (t : BitVec 8) (k : BitVec 3) : Encoding.Statement (.tagBlk t k) :=
  encoding_some _ _ _ rfl (by simp) (lengthCode_tagLead ..)
theorem Encoding.tagUbk (t : BitVec 8) (k : BitVec 3) : Encoding.Statement (.tagUbk t k) :=
  encoding_some _ _ _ rfl (by simp) (lengthCode_tagLead ..)
theorem Encoding.tagWait (t : BitVec 8) (k : BitVec 3) : Encoding.Statement (.tagWait t k) :=
  encoding_some _ _ _ rfl (by simp) (lengthCode_tagLead ..)
theorem Encoding.tagTest (t : BitVec 8) (d k : BitVec 3) : Encoding.Statement (.tagTest t d k) :=
  encoding_some _ _ _ rfl (by simp) (lengthCode_tagLead ..)
theorem Encoding.tagCnt (t : BitVec 8) (i : BitVec 16) (k : BitVec 3) : Encoding.Statement (.tagCnt t i k) :=
  encoding_some _ _ _ rfl (by simp) (lengthCode_tagLead ..)
theorem Encoding.tagBind (t : BitVec 8) (isl : BitVec 4) (k : BitVec 3) : Encoding.Statement (.tagBind t isl k) :=
  encoding_some _ _ _ rfl (by simp) (lengthCode_tagLead ..)
theorem Encoding.tagArm (t : BitVec 8) (a b : BitVec 5) (k : BitVec 3) : Encoding.Statement (.tagArm t a b k) :=
  encoding_some _ _ _ rfl (by simp) (lengthCode_tagLead ..)
theorem Encoding.tagSig (t : BitVec 8) (a : BitVec 5) (mode acq rel : BitVec 1) (scope k : BitVec 3) : Encoding.Statement (.tagSig t a mode acq rel scope k) :=
  encoding_some _ _ _ rfl (by simp) (lengthCode_tagLead ..)
theorem Encoding.tagClr (t : BitVec 8) (k : BitVec 3) : Encoding.Statement (.tagClr t k) :=
  encoding_some _ _ _ rfl (by simp) (lengthCode_tagLead ..)
theorem Encoding.fold (a b c : BitVec 5) (op : BitVec 4) (r : BitVec 1) (slot : BitVec 4) (off : BitVec 20) (size : BitVec 2) (acq rel : BitVec 1) (scope k : BitVec 3) : Encoding.Statement (.fold a b c op r slot off size acq rel scope k) :=
  encoding_some _ _ _ rfl (by simp) (lengthCode_packWord [_, _, _, _, _, _, _] 1 rfl)
theorem Encoding.commit (d : BitVec 5) (n : BitVec 4) : Encoding.Statement (.commit d n) :=
  encoding_some _ _ _ rfl (by simp) (lengthCode_commitWord ..)
theorem Encoding.landTest (d : BitVec 3) (n : BitVec 4) : Encoding.Statement (.landTest d n) :=
  encoding_some _ _ _ rfl (by simp) (lengthCode_commitWord ..)
theorem Encoding.chnOpen (k : BitVec 3) (ch : BitVec 12) : Encoding.Statement (.chnOpen k ch) :=
  encoding_some _ _ _ rfl (by simp) (lengthCode_packWord [_, _, _, _, _, _] 1 rfl)
theorem Encoding.chnSend (a b : BitVec 5) (k : BitVec 3) (ch : BitVec 12) : Encoding.Statement (.chnSend a b k ch) :=
  encoding_some _ _ _ rfl (by simp) (lengthCode_packWord [_, _, _, _, _, _] 1 rfl)
theorem Encoding.chnRecv (d a b : BitVec 5) (k : BitVec 3) (ch : BitVec 12) : Encoding.Statement (.chnRecv d a b k ch) :=
  encoding_some _ _ _ rfl (by simp) (lengthCode_packWord [_, _, _, _, _, _] 1 rfl)
theorem Encoding.chnClose (k : BitVec 3) (ch : BitVec 12) : Encoding.Statement (.chnClose k ch) :=
  encoding_some _ _ _ rfl (by simp) (lengthCode_packWord [_, _, _, _, _, _] 1 rfl)
theorem Encoding.chnStat (d : BitVec 5) (k : BitVec 3) (ch : BitVec 12) : Encoding.Statement (.chnStat d k ch) :=
  encoding_some _ _ _ rfl (by simp) (lengthCode_packWord [_, _, _, _, _, _] 1 rfl)
theorem Encoding.launch (d a b : BitVec 5) (prio : BitVec 2) (nw : BitVec 1) (k : BitVec 3) (immG immF : BitVec 32) : Encoding.Statement (.launch d a b prio nw k immG immF) :=
  encoding_some _ _ _ rfl (by simp) (lengthCode_packWord [_, _, _, _, _, _, _, _] 2 rfl)
theorem Encoding.csrr (d : BitVec 5) (c : BitVec 12) : Encoding.Statement (.csrr d c) :=
  encoding_some _ _ _ rfl (by simp) (lengthCode_csrWord ..)
theorem Encoding.csrw (d a : BitVec 5) (c : BitVec 12) : Encoding.Statement (.csrw d a c) :=
  encoding_some _ _ _ rfl (by simp) (lengthCode_csrWord ..)
theorem Encoding.csrs (d a : BitVec 5) (c : BitVec 12) : Encoding.Statement (.csrs d a c) :=
  encoding_some _ _ _ rfl (by simp) (lengthCode_csrWord ..)
theorem Encoding.csrc (d a : BitVec 5) (c : BitVec 12) : Encoding.Statement (.csrc d a c) :=
  encoding_some _ _ _ rfl (by simp) (lengthCode_csrWord ..)
theorem Encoding.trap (i : BitVec 14) : Encoding.Statement (.trap i) :=
  encoding_some _ _ _ rfl (by simp) (lengthCode_lead ..)

end Sys2Proof.Laws
end

