-- ==== Sys2Proof/Tests/Slice0.lean ====
section
/-!
SUPPORT. The author's tests: terms that WellFormed refuses, words written out from the encodings of the spec, single steps
with results worked out from the spec, and for each statement a state that meets its hypotheses.
-/
namespace Sys2Proof.Test

set_option Elab.async false
open Sys2Proof Sys2Proof.Machine

/-! ## WellFormed -/

/-- One ill-formed event for each check on a unit number or a field (R12 to R38, R141, R371). -/
theorem test_wellFormed_refuses_events :
    ([.coldReset 7, .getCertificate 8, .getMeasurements (some 5), .tdLinkMessage 5 [] 0, .ucieModuleRemoval 13, .fabricPortDownshift 16,
      .pseudoChannelMapOut 512, .islandStateChange 48 .on, .headerLineChange (.host 48 0), .headerLineChange (.host 0 16),
      .partSuspend (some 48), .partResume (some 48), .nopPacket 48 0, .launchPacket 0 16, .gate 48 0, .patch 0 16, .inval 48 0,
      .hcopy 0 16, .signal 48 0, .packetMalformed 0 16, .gateEvaluation 48 0, .gateTimeout 0 16, .hcopyCompletion 48 0 0,
      .signalAfterReplays 0 16, .replayBegin 48 1, .replayComplete 48 1, .gangTick 48, .regionCompletion 192, .markerArrival 192,
      .regionSaveComplete 192, .saveDeadline 48 1 0, .saveDeadline 0 1 4, .partitionReset 48, .causeDelivery 192, .yieldTimeout 192,
      .replicaCreation 48, .collapse 48, .remotePage 48 [], .remotePullTimeout 48, .remainingFramePull 48 [], .pullServe 48 0 0,
      .migrationSourceEnd 48 0] : List Instr).all (fun i => !WellFormed i) = true := by decide

/-- The same for the steps of the regions and their tiles (R19, R46, R268, R283, R317, R371). -/
theorem test_wellFormed_refuses_region_events :
    ([.extentMiss 192 0, .extentMiss 0 128, .streamAccess 192 0, .streamAccess 0 128, .copySector 192 0 0, .copyCompletion 192 0,
      .remoteSignal 192 0, .remoteSignal 0 192, .doneToken 192, .armEvaluation 192 0, .armEvaluation 0 256, .routerWordArrival 192 true,
      .keyMismatch 65536 0, .keyMismatch 0 65536, .rankFrameArrival 16 0 0 (.signal 0 0 0), .rankFrameArrival 0 65536 0 (.signal 0 0 0),
      .rankFrameArrival 0 0 192 (.signal 0 0 0), .rankFrameArrival 0 0 0 (.signal 0 0 192), .rankFrameArrival 0 0 0 (.sector 8 (List.replicate 32 0)),
      .rankFrameArrival 0 0 0 (.sector 2097152 (List.replicate 32 0)), .rankFrameArrival 0 0 0 (.sector 0 []), .rankAck 48 0,
      .foldOperation 192 0 0, .foldOperation 0 192 0, .foldOperation 0 0 16, .foldReturn 192, .orphanReturn 192 0, .orphanReturn 0 192,
      .windowRehome 48 0, .windowRehome 0 64, .islandSlot 192 true 0, .islandSlot 0 true 16, .islandSwitch 192 0, .islandSwitch 0 16,
      .roundFence 192 true, .roundCommit 192 true, .roundReplay 192 true, .bankDrain 192 true, .edgeStep 192 0, .edgeStep 0 16,
      .throttleLevelSet 40 0, .throttleLevelSet 8 0, .throttleLevelSet 0 61, .thermalTrip 4, .thermalRecovery 4, .heartbeatPeriod 192 0,
      .heartbeatPeriod 0 354, .heartbeat 192 0, .accuse 0 354, .withdraw 192 0, .fenceBeat 0 354, .appeal 192 0, .admitBeat 0 354,
      .periodEnd 192 0, .remap 192, .bistEnd 0 354, .appealLimit 192 0, .probationEnd 0 354, .meterWindow 4 true, .usageRecord 48,
      .keyQuarantineEnd 65536, .rankFrameRetransmission 48 0, .suspendTimeout 48, .tileFallsSilent 0 354 true,
      .memoryPoison (2 ^ 52) 1] : List Instr).all (fun i => !WellFormed i) = true := by decide

/-- One ill-formed term for each check on the fields of a sequencer instruction: sizes, orders, scopes, ops and slots (R101 to R106). -/
theorem test_wellFormed_refuses_fields :
    ([.ld 1 2 7 0 0 0 0, .ld 1 2 0 2 0 0 0, .ld 1 2 0 3 0 0 0, .ld 1 2 0 0 1 0 0, .ld 1 2 0 1 7 0 0, .st 1 2 4 0 0 0 0, .st 1 2 0 1 0 0 0,
      .st 1 2 0 3 0 0 0, .st 1 2 0 0 1 0 0, .st 1 2 0 2 7 0 0, .fence 7 0, .fenceAcq 7 0, .fenceRel 7 0, .fenceStrm 7 0,
      .strmGo 0 0 0 0 7, .push 1 2 3 0 0 1 0 0 0 0, .push 1 2 3 1 0 7 0 0 0 0, .pull 1 2 3 0 0 1 0 0 0 0, .pull 1 2 3 0 1 7 0 0 0 0,
      .pushn 1 2 3 0 0 1 0 0 0 0 0, .pushn 1 2 3 1 1 7 0 0 0 0 0, .tagSig 0 1 0 0 0 7 0, .fold 1 2 0 14 0 0 0 0 0 0 0 0,
      .fold 1 2 0 2 0 0 0 1 0 0 0 0, .fold 1 2 0 0 0 0 0 2 0 0 0 0, .fold 1 2 0 0 0 0 0 3 0 0 0 0, .fold 1 2 0 13 0 0 0 0 0 0 0 0,
      .fold 1 2 3 0 0 0 0 0 0 0 0 0, .fold 1 2 0 0 0 1 0 0 0 0 0 0, .fold 1 2 0 0 0 0 0 0 0 0 1 0, .fold 1 2 0 0 0 0 0 0 1 0 7 0]
      : List Instr).all (fun i => !WellFormed i) = true := by decide

/-! ## Words written out from the encodings -/

/-- A word from its fields, the most significant first: each field's width and its value. -/
def word (l : List (Nat × Nat)) : Nat := l.foldl (fun n f => n * 2 ^ f.1 + f.2) 0

/-- Whether each list of words decodes to the instruction beside it. -/
def decodes (l : List (List (List (Nat × Nat)) × Instr)) : Bool :=
  l.all (fun e => decodeTableWord (32 * e.1.length) ((e.1.map word).foldr (fun w n => w + 2 ^ 32 * n) 0) == some e.2)

/-- The fields of the R3 majors (R95). -/
def r3 (major d a b fn k : Nat) : List (Nat × Nat) := [(2, 0), (6, major), (5, d), (5, a), (5, b), (6, fn), (3, k)]
/-- The fields of the I majors (R95). -/
def iform (major d a imm : Nat) : List (Nat × Nat) := [(2, 0), (6, major), (5, d), (5, a), (14, imm)]

/-- sys (R97). -/
theorem test_decode_sys : decodes [([r3 0 0 0 0 0 1], .nop 1), ([r3 0 0 0 0 1 0], .brk 0), ([r3 0 0 0 0 2 7], .seqEnd 7),
    ([r3 0 0 0 0 3 2], .yield 2), ([r3 0 0 0 0 4 0], .eret 0), ([r3 0 9 0 0 5 0], .time 9 0), ([r3 0 31 0 0 6 3], .whoami 31 3)] = true := by
  decide

/-- int, ops 0x00 to 0x10 (R97). -/
theorem test_decode_int : decodes [([r3 1 3 4 5 0x00 0], .add 3 4 5 0), ([r3 1 3 4 5 0x01 7], .sub 3 4 5 7), ([r3 1 31 1 2 0x02 1], .mul 31 1 2 1),
    ([r3 1 1 31 2 0x03 2], .mulh 1 31 2 2), ([r3 1 1 2 31 0x04 3], .mulhu 1 2 31 3), ([r3 1 3 4 5 0x05 0], .div 3 4 5 0),
    ([r3 1 3 4 5 0x06 0], .divu 3 4 5 0), ([r3 1 3 4 5 0x07 0], .rem 3 4 5 0), ([r3 1 3 4 5 0x08 0], .remu 3 4 5 0),
    ([r3 1 3 4 5 0x09 0], .and 3 4 5 0), ([r3 1 3 4 5 0x0A 0], .or 3 4 5 0), ([r3 1 3 4 5 0x0B 0], .xor 3 4 5 0),
    ([r3 1 3 4 5 0x0C 0], .andn 3 4 5 0), ([r3 1 3 4 5 0x0D 0], .shl 3 4 5 0), ([r3 1 3 4 5 0x0E 0], .shr 3 4 5 0),
    ([r3 1 3 4 5 0x0F 0], .sar 3 4 5 0), ([r3 1 3 4 5 0x10 0], .rol 3 4 5 0)] = true := by decide

/-- int, ops 0x11 to 0x1E (R97). -/
theorem test_decode_int_rest : decodes [([r3 1 3 4 5 0x11 0], .min 3 4 5 0), ([r3 1 3 4 5 0x12 0], .max 3 4 5 0), ([r3 1 3 4 5 0x13 0], .minu 3 4 5 0),
    ([r3 1 3 4 5 0x14 0], .maxu 3 4 5 0), ([r3 1 3 4 0 0x15 1], .clz 3 4 1), ([r3 1 3 4 0 0x16 1], .ctz 3 4 1),
    ([r3 1 3 4 0 0x17 1], .popc 3 4 1), ([r3 1 3 4 0 0x18 1], .bswap 3 4 1), ([r3 1 3 4 0 0x19 1], .sextB 3 4 1),
    ([r3 1 3 4 0 0x1A 1], .sextH 3 4 1), ([r3 1 3 4 0 0x1B 1], .sextW 3 4 1), ([r3 1 1 1 2 0x1C 2], .addsat 1 1 2 2),
    ([r3 1 1 1 2 0x1D 2], .subsat 1 1 2 2), ([r3 1 3 4 5 0x1E 2], .sel 3 4 5 2)] = true := by decide

/-- The immediate majors, li and addpc (R98, R99). -/
theorem test_decode_immediates : decodes [([iform 2 6 6 0x3FFC], .addi 6 6 (-4)), ([iform 3 1 2 0x1FFF], .andi 1 2 8191), ([iform 4 1 2 0x2000], .ori 1 2 (-8192)),
    ([iform 5 1 2 1], .xori 1 2 1), ([iform 6 1 2 63], .shli 1 2 63), ([iform 7 1 2 1], .shri 1 2 1), ([iform 8 1 2 32], .sari 1 2 32),
    ([[(2, 1), (6, 9), (5, 7), (19, 0)], [(32, 0x12345678)]], .li8 7 0x12345678),
    ([[(2, 2), (6, 9), (5, 7), (19, 0)], [(32, 0x89ABCDEF)], [(32, 0x01234567)]], .li12 7 0x0123456789ABCDEF),
    ([[(2, 0), (6, 10), (5, 4), (5, 0), (14, 0x3FFF)]], .addpc4 4 (-1)),
    ([[(2, 1), (6, 10), (5, 4), (19, 0)], [(32, 0xFFFFFFF0)]], .addpc8 4 (-16))] = true := by decide

/-- cmp, cmpi, cmpiu and pred (R97, R98). -/
theorem test_decode_predicates : decodes [([r3 0x10 3 4 5 0 0], .cmpEq 3 4 5 0), ([r3 0x10 3 4 5 1 0], .cmpNe 3 4 5 0), ([r3 0x10 3 4 5 2 0], .cmpLt 3 4 5 0),
    ([r3 0x10 3 4 5 3 0], .cmpLtu 3 4 5 0), ([r3 0x10 3 4 5 4 0], .cmpGe 3 4 5 0), ([r3 0x10 3 4 5 5 0], .cmpGeu 3 4 5 0),
    ([r3 0x10 7 4 5 6 1], .cmpBit 7 4 5 1), ([iform 0x11 2 9 0x3FFF], .cmpiEq 2 9 (-1)), ([iform 0x11 (8 + 2) 9 0x3FFF], .cmpiNe 2 9 (-1)),
    ([iform 0x11 (16 + 2) 9 0x3FFF], .cmpiLt 2 9 (-1)), ([iform 0x11 (24 + 2) 9 0x3FFF], .cmpiGe 2 9 (-1)),
    ([iform 0x12 2 9 0x3FFF], .cmpiuLt 2 9 0x3FFF), ([iform 0x12 (8 + 2) 9 0x3FFF], .cmpiuGe 2 9 0x3FFF),
    ([r3 0x13 1 2 3 0 4], .pand 1 2 3 4), ([r3 0x13 1 2 3 1 4], .por 1 2 3 4), ([r3 0x13 1 2 3 2 4], .pxor 1 2 3 4),
    ([r3 0x13 1 2 3 3 4], .pandn 1 2 3 4), ([r3 0x13 1 2 0 4 0], .pnot 1 2 0), ([r3 0x13 1 2 0 5 0], .kmov 1 2 0),
    ([r3 0x13 1 31 0 6 0], .kset 1 31 0)] = true := by decide

/-- Branches and jumps (R95, R98, R100). -/
theorem test_decode_control : decodes [([[(2, 0), (6, 0x14), (3, 1), (1, 1), (20, 0xFFFF9)]], .br 1 1 (-7)), ([[(2, 0), (6, 0x15), (24, 0xFFFFFF)]], .jmp (-1)),
    ([[(2, 0), (6, 0x16), (5, 31), (19, 64)]], .jal 31 64), ([iform 0x17 0 31 0], .jalr 0 31 0), ([iform 0x18 0 5 0x3FFE], .dbnz 5 (-2))] = true := by
  decide

/-- ld, st and the fences (R101, R102). -/
theorem test_decode_memory : decodes [
    ([[(2, 1), (6, 0x1C), (5, 4), (5, 5), (3, 2), (2, 1), (3, 4), (3, 0), (3, 0)], [(32, 16)]], .ld 4 5 2 1 4 0 16),
    ([[(2, 1), (6, 0x1D), (5, 4), (5, 5), (3, 3), (2, 2), (3, 6), (3, 0), (3, 1)], [(32, 0xFFFFFFF8)]], .st 4 5 3 2 6 1 (-8)),
    ([[(2, 0), (6, 0x1E), (2, 0), (13, 0), (3, 1), (3, 0), (3, 0)]], .fence 1 0), ([[(2, 0), (6, 0x1E), (2, 1), (13, 0), (3, 2), (3, 0), (3, 1)]], .fenceAcq 2 1),
    ([[(2, 0), (6, 0x1E), (2, 2), (13, 0), (3, 4), (3, 0), (3, 0)]], .fenceRel 4 0), ([[(2, 0), (6, 0x1E), (2, 3), (13, 0), (3, 6), (3, 0), (3, 7)]], .fenceStrm 6 7)] = true := by
  decide

/-- cfg and csr, trap, commit (R97, R107, R109, R110). -/
theorem test_decode_cfg_csr : decodes [([r3 0x20 0 9 0 0 0], .cfgLoad 9 0), ([r3 0x20 0 0 0 1 0], .cfgRun 0), ([r3 0x20 0 0 0 2 1], .cfgDrain 1),
    ([r3 0x20 0 9 10 3 0], .cfgParam 9 10 0), ([r3 0x20 0 9 0 4 0], .cfgUnbind 9 0), ([r3 0x20 8 9 0 5 0], .cfgQuery 8 9 0), ([r3 0x20 0 0 0 6 2], .cfgAbort 2),
    ([[(2, 0), (6, 0x3C), (5, 5), (5, 0), (12, 0x020), (2, 0)]], .csrr 5 0x020), ([[(2, 0), (6, 0x3C), (5, 0), (5, 6), (12, 0x001), (2, 1)]], .csrw 0 6 0x001),
    ([[(2, 0), (6, 0x3C), (5, 1), (5, 6), (12, 0x04F), (2, 2)]], .csrs 1 6 0x04F), ([[(2, 0), (6, 0x3C), (5, 1), (5, 6), (12, 0xFFF), (2, 3)]], .csrc 1 6 0xFFF),
    ([[(2, 0), (6, 0x3F), (10, 0), (14, 0x125)]], .trap 0x125), ([[(2, 0), (6, 0x31), (5, 9), (4, 3), (6, 0), (6, 0), (3, 0)]], .commit 9 3),
    ([[(2, 0), (6, 0x31), (5, 2), (4, 15), (6, 0), (6, 1), (3, 0)]], .landTest 2 15)] = true := by decide

/-- The fields of strm: s, a, b, fn, nowait (R103). -/
def strm (s a b fn nw imm : Nat) : List (List (Nat × Nat)) := [[(2, 1), (6, 0x24), (7, s), (5, a), (5, b), (6, fn), (1, nw)], [(32, imm)]]

/-- strm (R103). -/
theorem test_decode_strm : decodes [(strm 127 9 0 0 1 0xFFFFFFC0, .strmOpen 127 9 1 (-64)), (strm 1 0 0 1 0 (1 + 4 * 4), .strmGo 1 0 1 0 4), (strm 1 2 3 2 1 0, .strmBar 1 2 3 1),
    (strm 5 0 0 3 0 0, .strmClose 5 0), (strm 5 9 0 4 0 0, .strmPos 5 9), (strm 5 9 0 5 1 8, .strmSeek 5 9 1 8),
    (strm 5 0 0 6 0 (4 + 256 * 2 + 65536 * 15), .strmBind 5 4 2 15 0), (strm 5 0 0 7 0 0xFF, .strmFilt 5 0xFF 0), (strm 5 9 0 8 0 0, .strmStat 5 9)] = true := by
  decide

/-- The fields of the copies (R104). -/
def copy (major a b n acq rel scope k imm m t region : Nat) : List (List (Nat × Nat)) :=
  [[(2, 2), (6, major), (5, a), (5, b), (5, n), (1, acq), (1, rel), (3, scope), (1, 0), (3, k)], [(32, imm)], [(5, m), (8, t), (8, region), (11, 0)]]

/-- push, pull, pushn and launch (R104, R58). -/
theorem test_decode_copies : decodes [(copy 0x28 1 2 3 1 0 4 5 0xFFFFFFE0 7 255 0, .push 1 2 3 1 0 4 5 (-32) 7 255), (copy 0x29 1 2 3 0 1 6 0 32 0 4 0, .pull 1 2 3 0 1 6 0 32 0 4),
    (copy 0x2A 1 2 3 0 0 0 0 0 31 9 191, .pushn 1 2 3 0 0 0 0 0 31 9 191),
    ([[(2, 2), (6, 0x38), (5, 5), (5, 6), (5, 7), (2, 2), (1, 0), (3, 0), (3, 0)], [(32, 0)], [(32, 0x40)]], .launch 5 6 7 2 0 0 0 0x40)] = true := by decide

/-- The examples of tag, fold and chn (R322, R332, R311), with the forms the examples leave out from R105, R106 and R108. -/
theorem test_decode_tag_fold_chn : decodes [([[(32, 0x6C040000)], [(32, 0)]], .tagBlk 4 0), ([[(32, 0x6C040004)], [(32, 0)]], .tagUbk 4 0), ([[(32, 0x6C140008)], [(32, 0)]], .tagWait 20 0),
    ([[(32, 0x6C05008C)], [(32, 0)]], .tagTest 5 2 0), ([[(32, 0x6C140010)], [(32, 0x00030000)]], .tagCnt 20 3 0), ([[(32, 0x6C280014)], [(32, 0x00030000)]], .tagBind 40 3 0),
    ([[(32, 0x6C0C3A18)], [(32, 0)]], .tagArm 12 7 8 0), ([[(32, 0x6C14501C)], [(32, 0x50)]], .tagSig 20 10 0 0 1 2 0), ([[(32, 0x6C090020)], [(32, 0)]], .tagClr 9 0),
    ([[(32, 0x70214000)], [(32, 0x00010580)]], .fold 4 5 0 0 0 0 16 1 0 1 4 0), ([[(32, 0x7031D193)], [(32, 0)]], .fold 6 7 8 12 1 3 0 0 0 0 0 0),
    ([[(32, 0x70214040)], [(32, 0x00002800)]], .fold 4 5 0 2 0 0 2 2 0 0 0 0), ([[(32, 0x744A9610)], [(32, 3)]], .chnRecv 9 10 11 0 3),
    ([[(32, 0x74000000)], [(32, 0xFFF)]], .chnOpen 0 0xFFF), ([[(32, 0x74000000 + 10 * 2 ^ 14 + 11 * 2 ^ 9 + 8)], [(32, 3)]], .chnSend 10 11 0 3),
    ([[(32, 0x74000000 + 24)], [(32, 3)]], .chnClose 0 3), ([[(32, 0x74000000 + 9 * 2 ^ 19 + 32 + 1)], [(32, 3)]], .chnStat 9 1 3)] = true := by decide

/-- The words of the worked encodings that are no instruction (R93, after R110): fn 0x3F of int, and length code 3. -/
theorem test_decode_refuses : decodeTableWord 32 0x011FFFF8 = none ∧ decodeTableWord 32 0xC1190A00 = none ∧ decodeTableWord 32 0x0B000000 = none := by decide

/-! ## Small states -/

/-- Region 0 with partition 0 placed on it: its sequencer stands at VA 0, and VAs below 2 MiB are mapped (R161, R166). -/
def base (bytes : List Byte) : State := State.reset.setup bytes
/-- The same with a change of its region. -/
def at0 (f : Region → Region) : State := (base []).modReg 0 f
/-- The same with general registers set, and a handler at 0x100. -/
def regs (l : List (Nat × Word)) : State :=
  at0 (fun g => { g with seq := l.foldl (fun q e => q.gw (BitVec.ofNat 5 e.1) e.2) { g.seq with tvec := 0x100 } })
/-- A change of partition 0. -/
def partly (f : Part → Part) (s : State) : State := s.modPart 0 f
/-- A pair with a known second part. -/
theorem pair {α β : Type} (x : α × β) (b : β) (h : x.2 = b) : x = (x.1, b) := by rw [← h]
/-- Whether a step gives a next state for which `f` holds. -/
def after (o : Host.Outcome State Fault Refusal) (f : State → Bool) : Bool := match o with | .next t => f t | _ => false

/-! ## Single steps, with results worked out from the rules -/

/-- R202: mulh of −1 and 1 is −1; R200: rol by 65 is rol by 1; R203: addi sign-extends. -/
theorem test_int_corners :
    after (exec (.mulh 3 1 2 0) (regs [(1, -1), (2, 1)])) (fun t => t.seq.gr 3 == -1) = true ∧
    after (exec (.rol 3 1 2 0) (regs [(1, 0x8000000000000001), (2, 65)])) (fun t => t.seq.gr 3 == 3) = true ∧
    after (exec (.addi 1 1 (-4)) (regs [(1, 1)])) (fun t => t.seq.gr 1 == -3) = true := by decide

/-- R151: SHA-384 of "abc", whose first bytes FIPS 180-4's example gives. -/
theorem test_sha384 : (sha384Bytes [0x61, 0x62, 0x63]).take 4 = [0xcb, 0x00, 0x75, 0x3f] := by decide +kernel

/-- R201: the most negative number divided by −1 is itself, its remainder 0; division by 0 is all ones. -/
theorem test_division_corners :
    after (exec (.div 3 1 2 0) (regs [(1, 0x8000000000000000), (2, -1)])) (fun t => t.seq.gr 3 == 0x8000000000000000) = true ∧
    after (exec (.rem 3 1 2 0) (regs [(1, 0x8000000000000000), (2, -1)])) (fun t => t.seq.gr 3 == 0) = true ∧
    after (exec (.divu 3 1 2 0) (regs [(1, 7)])) (fun t => t.seq.gr 3 == -1) = true ∧
    after (exec (.rem 3 1 2 0) (regs [(1, -7), (2, 2)])) (fun t => t.seq.gr 3 == -1) = true := by decide

/-- R200: addsat clamps at the top and sets STATUS.sat; R183: g0 discards it, and sat is set all the same. -/
theorem test_addsat_clamps :
    after (exec (.addsat 3 1 1 0) (regs [(1, 0x7FFFFFFFFFFFFFFF)])) (fun t => t.seq.gr 3 == 0x7FFFFFFFFFFFFFFF && t.seq.status == 4) = true ∧
    after (exec (.addsat 0 1 1 0) (regs [(1, 0x7FFFFFFFFFFFFFFF)])) (fun t => t.seq.gr 0 == 0 && t.seq.status == 4) = true := by decide

/-- R209: jalr with d = a reads its target before it writes the link. -/
theorem test_jalr_same_register :
    after (exec (.jalr 5 5 4) (regs [(5, 0x40)])) (fun t => t.seq.pc == 0x44 && t.seq.gr 5 == 4) = true := by decide

/-- R211: a byte is loaded with its sign from the palette; a halfword store writes two bytes, the low one first. -/
theorem test_load_store :
    after (exec (.ld 3 1 0 0 0 0 0) ((regs [(1, 0xFF0000000010)]).modMem (fun m => m.write (2 ^ 52 + 16) 0x80))) (fun t => t.seq.gr 3 == -128) = true ∧
    after (exec (.st 2 1 1 0 0 0 (-2)) (regs [(1, 0x12), (2, 0xABCD)]))
      (fun t => t.mem.read 0x200010 == 0xCD && t.mem.read 0x200011 == 0xAB && t.mem.read 0x200012 == 0) = true := by decide

/-- R186, R211: an odd address for a word is MISALIGNED, with the address in FVA and the instruction in EPC. -/
theorem test_misaligned :
    after (exec (.ld 3 1 2 0 0 0 0) (regs [(1, 0x11)])) (fun t => t.seq.cause == 0x020 && t.seq.fva == 0x11 && t.seq.pc == 0x100 && t.seq.handler) = true := by
  decide

/-- R193, R163: a fetch beyond the mapped 2 MiB meets no stage-2 entry and is held; the host is told (R167). -/
theorem test_stage2_hold :
    after (exec (.ld 3 1 3 0 0 0 0) (regs [(1, 0x400000)])) (fun t => t.seq.run == .waiting && t.pkg.out == [.interrupt 2048]) = true := by decide

/-- R318: tag.cnt of −1 on a count of 1 leaves the tag unblocked, and the yield's mark set (R198). -/
theorem test_tag_count :
    after (exec (.tagCnt 4 (-1) 0) (at0 (fun g => { g with tags := [(4, { b := true, count := 1 })] })))
      (fun t => (t.reg 0).tag 4 == { b := false, count := 0 } && t.seq.wake) = true := by decide

/-- R35: the first step of the boot follows power-good, and the third does not (log 5). -/
theorem test_boot_order :
    after (exec (.coldReset 1) State.reset) (fun t => t.pkg.boot == 1) = true ∧ after (exec (.coldReset 3) State.reset) (fun t => t.pkg.boot == 0) = true := by
  decide

/-- The host's question for the first word after reset: step runs it (log 5). -/
theorem test_first_word_runs :
    after (step (State.reset.withFetchWord 32 0x00480028)) (fun t => t.seq.pc == 4) = true ∧
    after (step (State.reset.withFetchWord 96 (0x89380000 + 2 ^ 32 * 5 + 2 ^ 64 * 1))) (fun t => t.seq.pc == 12 && t.seq.gr 7 == 0x100000005) = true := by
  decide +kernel

/-! ## Witnesses: states and operands that meet the hypotheses of the statements -/

theorem witness_DecodeOfEncode : WellFormed (.ld 3 1 2 1 4 0 16) = true ∧ encode (.ld 3 1 2 1 4 0 16) ≠ [] := by decide

theorem witness_EncodeOfDecode : (decode (toBytes 4 0x01190A28 ++ [7])) = .ok (.div 3 4 5 0, [7]) := by decide

theorem witness_DecodeCheckOrder : fieldN (0xC0000000 : IWord) 30 2 = 3 ∧ fieldN (0x3E000000 : IWord) 30 2 ≠ 3 ∧ fieldN (0x3E000000 : IWord) 24 6 = 0x3E ∧
    fieldN (0x0B000000 : IWord) 24 6 = 0x0B ∧ fieldN (0x40000000 : IWord) 24 6 = 0 ∧ fieldN (0x40000000 : IWord) 30 2 = 1 ∧
    fieldN (0x80000000 : IWord) 30 2 = 2 ∧ fieldN (0 : IWord) 30 2 = 0 := by decide

/-- An addi stands at pc. -/
def fetching : State := base (toBytes 4 0x0231BFFC)

theorem witness_StepRunsFetched : fetching.agenda = [] ∧ fetching.timePasses.ready fetching.cur = .fetch ∧
    ∃ s1, fetching.timePasses.fetch fetching.cur = (s1, .instr (.addi 6 6 (-4))) :=
  ⟨rfl, by decide, _, pair _ _ (by decide)⟩

/-- A cached line that holds what memory holds. -/
def cached : State := (base (toBytes 4 0x0231BFFC)).modReg 0 (fun g => { g with icache := [{ va := 0, pa := 0x200000, bytes := toBytes 4 0x0231BFFC ++ List.replicate 60 0 }] })

theorem witness_StepRunsCachedWord : cached.agenda = [] ∧ cached.timePasses.ready cached.cur = .fetch ∧
    (∃ l, (cached.reg cached.cur).icache.find? (fun x => x.va == cached.seq.pc.toNat / 64 * 64) = some l ∧ l.bytes = cached.mem.readN 64 l.pa ∧
      (BitVec.ofNat 32 (ofBytes ((l.bytes.drop (cached.seq.pc.toNat % 64)).take 4)) : IWord) = 0x0231BFFC) ∧
    decodeLength 0x0231BFFC = .ok 4 ∧ decodeWords 4 0x0231BFFC 0 0 = .ok (.addi 6 6 (-4)) :=
  ⟨rfl, by decide, ⟨_, rfl, by decide, by decide⟩, by decide, by decide⟩

theorem witness_StepTakesAgenda : encode .getVersion = [] ∧ encode (.nop 0) ≠ [] ∧
    ({ State.reset with agenda := [.event .getVersion] } : State).agenda = .event .getVersion :: [] := by decide

/-- A pending cause in normal mode. -/
def pended : State := at0 (fun g => { g with seq := { g.seq with tvec := 0x100, pending := [{ cause := 0x121 }] } })

theorem witness_PendingCauseGoesFirst : pended.agenda = [] ∧ pended.timePasses.ready pended.cur ≠ .none ∧ pended.seq.handler = false ∧ pended.seq.pending ≠ [] := by decide

theorem witness_StepKeepsMemoryCanonical : (base []).mem.wf = true ∧ ∃ t, step State.reset = .next t := ⟨by decide, _, rfl⟩

theorem witness_RegisterInstructions : Claims.registerResult (regs [(4, 5), (5, 6)]) (regs [(4, 5), (5, 6)]).seq (.mulhu 3 4 5 0) = some (0, 3, 0, 4) ∧
    (regs [(4, 5), (5, 6)]).seq.kr 0 = true := by decide

theorem witness_Division : Claims.divisionResult (regs [(4, 5), (5, 2)]).seq (.rem 3 4 5 0) = some (0, 3, 2, 1) ∧ (regs [(4, 5), (5, 2)]).seq.kr 0 = true := by decide

/-- A zero divisor with STATUS.dz set and a handler. -/
def zeroDivisor : State := at0 (fun g => { g with seq := { g.seq with tvec := 0x100, status := 2 } })

theorem witness_Division_traps : Claims.divisionResult zeroDivisor.seq (.div 3 4 5 0) = some (0, 3, 0, BitVec.allOnes 64) ∧ zeroDivisor.seq.status.getLsbD 1 = true ∧
    Claims.canTrap zeroDivisor.seq := ⟨by decide, by decide, by unfold Claims.canTrap; decide⟩

theorem witness_SaturatingSums : (regs [(1, 0x7FFFFFFFFFFFFFFF), (2, 1)]).seq.kr 0 = true ∧
    ∃ x : Int, x = ((regs [(1, 0x7FFFFFFFFFFFFFFF), (2, 1)]).seq.gr 1).toInt + ((regs [(1, 0x7FFFFFFFFFFFFFFF), (2, 1)]).seq.gr 2).toInt ∧ x = 2 ^ 63 :=
  ⟨by decide, _, rfl, by decide⟩

theorem witness_PredicateInstructions : Claims.predicateResult (regs [(4, -1)]).seq (.cmpiuLt 2 4 0x3FFF) = some (0, 2, false) ∧ (regs [(4, -1)]).seq.kr 0 = true := by decide

theorem witness_ControlTransfers_jalr : ((regs [(1, 8)]).seq.gr 1 + (4 : BitVec 14).signExtend 64).extractLsb' 0 2 = 0 := by decide

theorem witness_JalrMisaligned : ((regs [(1, 8)]).seq.gr 1 + (3 : BitVec 14).signExtend 64).extractLsb' 0 2 ≠ 0 ∧ Claims.canTrap (regs [(1, 8)]).seq :=
  ⟨by decide, by unfold Claims.canTrap; decide⟩

theorem witness_FalseGuard : Claims.guardOf (.fold 1 2 0 0 0 0 0 0 0 0 0 1) = some (1, 8) ∧ (regs []).seq.kr 1 = false := by decide

/-- A yield that began at tick 0, when TICK is `n`. -/
def yielding (n : Nat) (w : Bool) : State :=
  { at0 (fun g => { g with seq := { g.seq with run := .waiting, waitFrom := some 0, wake := w } }) with tick := n }

theorem witness_SysEffects : (regs []).seq.kr 0 = true ∧ (regs []).seq.waitFrom = none ∧ (yielding 0 true).seq.waitFrom = some 0 ∧ (yielding 0 true).seq.wake = true ∧
    4096 * 10 ≤ ((yielding 3151 false).tick - 0) * 13 ∧ (yielding 3150 false).seq.wake = false ∧ ((yielding 3150 false).tick - 0) * 13 < 4096 * 10 := by decide

theorem witness_canTrap : Claims.canTrap (regs []).seq ∧ (regs []).seq.kr 0 = true := ⟨by unfold Claims.canTrap; decide, by decide⟩

theorem witness_EretReturns : (at0 (fun g => { g with seq := { g.seq with status := 1, epc := 8 } })).seq.handler = true ∧
    ((at0 (fun g => { g with seq := { g.seq with status := 1, epc := 8 } })).reg 0).bankA.voids = [] ∧ (regs []).seq.handler = false ∧ (regs []).seq.tvec ≠ 0 := by decide

theorem witness_FatalDelivery : ((base []).reg 0).seq.tvec = 0 ∧ (base []).owner 0 = some 0 ∧ (∃ v, (base []).part? 0 = some v ∧ v.reset = none) ∧
    ((at0 (fun g => { g with seq := { g.seq with status := 1 } })).reg 0).seq.handler = true := ⟨by decide, by decide, ⟨_, rfl, rfl⟩, by decide⟩

theorem witness_ControlRegisterOps : (regs []).csr 0x001 = some 0x100 ∧ (Claims.csrAfter (regs []).seq 0x001 0x20B).isSome = true ∧
    (Claims.csrAfter (regs []).seq 0x04F 1).isSome = true ∧ (regs []).csr 0x040 = some 0 := by decide

theorem witness_ControlRegisterValues : ∃ pl v t, ((regs []).reg (regs []).cur).place = some pl ∧ (regs []).owner (regs []).cur = some 0 ∧ (regs []).part? 0 = some v ∧
    spFind { regs [] with sets := [(0, { members := [0], period := 2, owner := 0, regions := 1 })] }.sets v.set = some t ∧ t.period = 2 := ⟨_, _, _, rfl, by decide, rfl, rfl, rfl⟩

theorem witness_ControlRegisterTraps : (regs []).csr 0x007 = none ∧ (regs []).csr 0x050 = none ∧ (regs []).csr 0x03F = none ∧ Claims.canTrap (regs []).seq :=
  ⟨by decide, by decide, by decide, by unfold Claims.canTrap; decide⟩

theorem witness_LoadCompletes : (regs [(1, 0x10)]).seq.kr 0 = true ∧ (regs [(1, 0x10)]).held 0 = false ∧
    Claims.Sum ((regs [(1, 0x10)]).seq.gr 1) (8 : BitVec 32).toInt 0x18 ∧ 0x18 % Claims.width 3 = 0 ∧
    ∃ s1, (regs [(1, 0x10)]).reach ((regs [(1, 0x10)]).seqWho 0) 0x18 .read = (s1, .ok 0x200018) ∧ s1.physFault 0x200018 8 .read = none :=
  ⟨by decide, by decide, by unfold Claims.Sum; decide, by decide, _, pair _ _ (by decide), by decide⟩

theorem witness_StoreCompletes : (regs [(1, 0xFF0000000000)]).seq.kr 0 = true ∧ (regs [(1, 0xFF0000000000)]).held 0 = false ∧
    (∃ v, (regs [(1, 0xFF0000000000)]).part? ((regs [(1, 0xFF0000000000)]).seqWho 0).part = some v ∧ inWindow v 0xFF00001FFFF8 8 = false) ∧
    Claims.Sum ((regs [(1, 0xFF0000000000)]).seq.gr 1) (0x1FFFF8 : BitVec 32).toInt 0xFF00001FFFF8 ∧ 0xFF00001FFFF8 % Claims.width 3 = 0 ∧
    ∃ s1, (regs [(1, 0xFF0000000000)]).reach ((regs [(1, 0xFF0000000000)]).seqWho 0) 0xFF00001FFFF8 .write = (s1, .ok (2 ^ 52 + 0x1FFFF8)) ∧
      s1.physFault (2 ^ 52 + 0x1FFFF8) 8 .write = none :=
  ⟨by decide, by decide, ⟨_, rfl, by decide⟩, by unfold Claims.Sum; decide, by decide, _, pair _ _ (by decide), by decide⟩

/-- A fold window of 64 KiB from 0x10000, owned by edge unit 3 of region 0. -/
def windowed (l : List (Nat × Word)) : State := partly (fun v => { v with windows := [{ va := 0x10000, log2 := 16, owner := some (0, 3) }] }) (regs l)

theorem witness_LoadStoreTraps : Claims.canTrap (windowed [(1, 0x1FFF8)]).seq ∧ (windowed [(1, 0x1FFF8)]).held 0 = false ∧ 0x1FFF9 % Claims.width 1 ≠ 0 ∧
    ∃ v, (windowed [(1, 0x1FFF8)]).part? ((windowed [(1, 0x1FFF8)]).seqWho 0).part = some v ∧
      Claims.Sum ((windowed [(1, 0x1FFF8)]).seq.gr 1) (0 : BitVec 32).toInt 0x1FFF8 ∧ 0x1FFF8 % Claims.width 3 = 0 ∧
      ∃ w ∈ v.windows, 0x1FFF8 < w.va + 2 ^ w.log2 ∧ w.va < 0x1FFF8 + Claims.width 3 :=
  ⟨by unfold Claims.canTrap; decide, by decide, by decide, _, rfl, by unfold Claims.Sum; decide, by decide, _, List.mem_singleton.2 rfl, by decide, by decide⟩

/-- One copy is queued. -/
def copying : State := at0 (fun g => { g with
  copies := [{ index := 0, src := 0, dst := 0, len := 32, bitmap := none, tag := none, acq := false, rel := false, scope := 1, region := 0, part := 0 }] })
/-- A stream-only fence stands behind it. -/
def fenced : State := copying.mod (fun q => { q with holds := [.engines] })

theorem witness_Fences : (regs []).seq.kr 0 = true ∧ Claims.enginesIdle (regs []) 0 ∧ fenced.seq.kr 0 = true ∧ ¬ Claims.enginesIdle fenced 0 ∧
    Hold.engines ∈ fenced.seq.holds ∧ ∀ h ∈ fenced.seq.holds, h = .engines :=
  ⟨by decide, ⟨by decide, fun pl h => by rw [← Option.some.inj h]; decide⟩, by decide, fun h => absurd h.1 (by decide), by decide, by decide⟩

theorem witness_TierWindow : ∃ v, (base []).part? 0 = some v ∧ v.regions.getLsbD 0 = true ∧ v.regions.getLsbD 1 = false := ⟨_, rfl, by decide, by decide⟩

/-! ### cfg and strm -/

/-- Region 0 with bank A loaded with a block (cur is B), and other changes. -/
def img0 : Block :=
  { va := 0, size := 0x128, fuse := List.replicate 8 0, tagmap := List.replicate 16 0, round := 1, depth := 1, report := 0, done := 0
    trip := [1, 0, 0, 0, 0], islands := [⟨0, 0, 0, 0⟩], carries := [], binds := [{ stream := 3, kind := 0, pos := 0, idx := 0 }]
    cells := [{ x := 0, y := 0, island := 0, bank := 0, ops := [0], routes := [0x8800], regs := [0], off := 0x118 }], edges := [] }
/-- An open bound stream of direction 0, the loaded block, and general registers. -/
def loaded (l : List (Nat × Word)) : State :=
  (regs l).modReg 0 (fun g => { g with bankA := { state := 1, img := some img0 }, streams := [(3, { state := 1 })] })
/-- The same with the block running. -/
def running (l : List (Nat × Word)) : State :=
  (regs l).modReg 0 (fun g => { g with bankA := { state := 2, img := some img0, bound := img0.binds, islands := [{}] }, cur := false, streams := [(3, { state := 2 })] })

theorem witness_CfgDrainParamAbort : (loaded [(1, 31)]).seq.kr 0 = true ∧ (((loaded [(1, 31)]).reg 0).bank (!((loaded [(1, 31)]).reg 0).cur)).state = 1 ∧
    ((loaded [(1, 31)]).seq.gr 1).toNat < 32 ∧ ((loaded []).reg 0).bankA.state ≠ 2 ∧ ((loaded []).reg 0).bankA.state ≠ 3 ∧ ((loaded []).reg 0).bankB.state = 0 ∧
    (((running []).reg 0).bank (!((running []).reg 0).cur)).state ≠ 1 := by decide

theorem witness_CfgAbortEndsBlocks : (running []).seq.kr 0 = true ∧ (((running []).reg 0).bank false).state = 2 ∧ (((loaded []).reg 0).bank false).state = 1 := by decide

/-- A bound stream that has performed its last element. -/
def ending : State := (running [(1, 3)]).modReg 0 (fun g => { g with streams := [(3, { state := 3 })] })

theorem witness_CfgUnbindEndsBindings : ((running [(1, 3)]).seq.gr 1).toNat < 128 ∧ (((running [(1, 3)]).reg 0).bank false).bound.any (fun e => e.stream == 3) = true ∧
    (((running [(1, 3)]).reg 0).stream 3).state ≠ 3 ∧ ((ending.reg 0).stream 3).state = 3 ∧ ((ending.reg 0).stream 3).ahead = [] ∧
    ((ending.reg 0).stream 3).elems = [] ∧ ((ending.reg 0).stream 3).part = [] ∧
    (((loaded [(1, 3)]).reg 0).bank false).state = 1 ∧ (((loaded [(1, 3)]).reg 0).bank false).img = some img0 := by decide

theorem witness_CfgQueryItems : (running []).seq.gr 1 = 0 ∧ ((running []).reg 0).bankA.state < 4 ∧ ((running []).reg 0).bankB.state < 4 ∧
    (((running []).reg 0).bank ((running []).reg 0).cur).islands.length ≤ 16 ∧ (regs [(1, 1)]).seq.gr 1 = 1 ∧ (regs [(1, 2)]).seq.gr 1 = 2 ∧ (regs [(1, 3)]).seq.gr 1 = 3 ∧
    (regs [(1, 0x3F)]).seq.gr 1 = BitVec.ofNat 64 (0x20 + 31) := by decide

theorem witness_CfgTraps : Claims.canTrap (regs [(1, 0x40)]).seq ∧ (((regs [(1, 0x41)]).seq.gr 1).extractLsb' 0 6 ≠ 0) ∧
    (((regs []).reg 0).bank (!((regs []).reg 0).cur)).state ≠ 1 ∧ 32 ≤ ((regs [(1, 0x20)]).seq.gr 1).toNat ∧ 128 ≤ ((regs [(1, 0x80)]).seq.gr 1).toNat ∧
    ((regs [(1, 4)]).seq.gr 1).toNat ∉ [0, 1, 2, 3] ∧ ¬(0x20 ≤ ((regs [(1, 0x40)]).seq.gr 1).toNat ∧ ((regs [(1, 0x40)]).seq.gr 1).toNat ≤ 0x3F) :=
  ⟨by unfold Claims.canTrap; decide, by decide, by decide, by decide, by decide, by decide, by decide⟩

/-- The bytes of an image of one cell whose rings hold one nop, one route word and one register word (R115 to R117). -/
def image : List Byte :=
  toBytes 4 0x4B434C42 ++ toBytes 2 1 ++ [1, 0] ++ toBytes 2 1 ++ toBytes 2 0 ++ toBytes 4 0x128 ++ List.replicate 32 0 ++ toBytes 4 1 ++ [1, 0, 0, 0] ++
    List.replicate 8 0 ++ toBytes 4 1 ++ List.replicate (0x118 - 0x44) 0 ++ [0, 0, 0, 1, 1, 1, 0, 0] ++ [0, 0, 0, 0x00, 0x88, 0, 0, 0]
/-- The image stands at the start of the palette. -/
def imaged : State := (regs [(1, 0xFF0000000000)]).modMem (fun m => m.writeN (2 ^ 52) image)

theorem witness_CfgLoadCompletes : imaged.seq.kr 0 = true ∧ (imaged.seq.gr 1).extractLsb' 0 6 = 0 ∧
    ∃ s1, imaged.readVA { imaged.seqWho imaged.cur with unit := 0xFB } (imaged.seq.gr 1).toNat 64 = (s1, .ok (image.take 64)) ∧
      numAt (image.take 64) 0 4 = 0x4B434C42 ∧ checkHeader (image.take 64) = .ok () ∧
      ∃ s2, s1.readMany { s1.seqWho s1.cur with unit := 0xFB } 8 ((numAt (image.take 64) 12 4 - 64) / 8) ((imaged.seq.gr 1).toNat + 64) = (s2, .ok (image.drop 64)) ∧
        (s2.reg s2.cur).checkImage (imaged.seq.gr 1).toNat (image.take 64 ++ image.drop 64) =
          .ok ({ img0 with va := 0xFF0000000000, binds := [] }, false) :=
  ⟨by decide, by decide, _, pair _ _ (by decide +kernel), by decide, by decide, _, pair _ _ (by decide +kernel), by decide +kernel⟩

theorem witness_CfgRunStartsBlock : (loaded []).seq.kr 0 = true ∧ (∀ n, ¬ Claims.boundBy ((loaded []).reg 0) n) ∧ ¬ (∀ n, ¬ Claims.boundBy ((running []).reg 0) n) ∧ ∃ r, r = (loaded []).reg 0 ∧ (r.bank (!r.cur)).state = 1 ∧ (r.bank (!r.cur)).img = some img0 ∧
    (∀ e ∈ img0.binds, (∀ x ∈ r.streams, x.2.usesSource e.stream = true → x.2.state ≠ 2) ∧ (r.stream e.stream).state ≠ 0 ∧
      kindIn e.kind = ((r.stream e.stream).desc.dir == 0) ∧ (r.stream e.stream).desc.dir < 2) :=
  ⟨by decide, fun n ⟨e, he, _⟩ => by rw [show ((loaded []).reg 0).bankA.bound ++ ((loaded []).reg 0).bankB.bound = [] by decide] at he; exact absurd he (List.not_mem_nil),
    fun h => h 3 ⟨_, by rw [show ((running []).reg 0).bankA.bound ++ ((running []).reg 0).bankB.bound = img0.binds by decide]; exact List.mem_singleton.2 rfl, .inl rfl⟩, _, rfl, by decide, by decide, by decide⟩

theorem witness_idleStream : Claims.idleStream ((loaded []).reg 0) 3 ∧ Claims.idleStream ((loaded []).reg 0) 127 ∧ ¬ Claims.idleStream ((running []).reg 0) 3 := by
  refine ⟨⟨by decide, by decide, by decide⟩, ⟨by decide, by decide, by decide⟩, fun h => absurd h.1 (by decide)⟩

/-- A descriptor of eight 64-bit elements from VA 0x2000 on, and one of channel-in mode for channel 5 (R119, R313). -/
def descBytes (mode base : Nat) : List Byte :=
  toBytes 8 (mode + 63 * 2 ^ 5 + 0xFF * 2 ^ 28 + 0xFF * 2 ^ 36) ++ toBytes 8 base ++ toBytes 4 8 ++ toBytes 4 8 ++
    (List.replicate 4 (toBytes 4 1 ++ toBytes 4 0)).flatten ++ toBytes 8 0
/-- A descriptor stands at the start of the palette; the region is the consumer of channel 5 of replay 1 (R310). -/
def described (mode base : Nat) : State :=
  ((partly (fun v => { v with replays := [{ num := 1, src := .host 0, prio := 0, graph := 0, frame := 0, begun := true, chcount := 6 }] })
    (regs [(1, 0xFF0000000000)])).modReg 0 (fun g => { g with
      chans := [{ num := 5, producer := false, header := 0x3000, size := 12, own := 7, other := 9, ended := false, corrupt := false }] })).modMem
        (fun m => m.writeN (2 ^ 52) (descBytes mode base))

theorem witness_StrmOpenCompletes : Claims.idleStream ((described 0 0x2000).reg 0) 4 ∧
    descModeIllegal (parseDesc 0xFF0000000000 (descBytes 0 0x2000)) = false ∧
    Claims.Sum ((described 0 0x2000).seq.gr 1) (0 : BitVec 32).toInt 0xFF0000000000 ∧ 0xFF0000000000 % 64 = 0 ∧
    (∃ s1, (described 0 0x2000).readVA { (described 0 0x2000).seqWho 0 with unit := 0xFB } 0xFF0000000000 64 = (s1, .ok (descBytes 0 0x2000))) ∧
    descIllegal (descBytes 0 0x2000) (parseDesc 0xFF0000000000 (descBytes 0 0x2000)) = false ∧
    (∀ x ∈ (parseDesc 0xFF0000000000 (descBytes 0 0x2000)).trip, x ≠ 0) ∧ (parseDesc 0xFF0000000000 (descBytes 0 0x2000)).mode = 0 :=
  ⟨⟨by decide, by decide, by decide⟩, by decide, by unfold Claims.Sum; decide, by decide, ⟨_, pair _ _ (by decide +kernel)⟩, by decide, by decide, by decide⟩

theorem witness_StrmOpenCompletes_channel : descModeIllegal (parseDesc 0xFF0000000000 (descBytes 6 5)) = false ∧
    (∀ x ∈ (parseDesc 0xFF0000000000 (descBytes 6 5)).trip, x ≠ 0) ∧ descIllegal (descBytes 6 5) (parseDesc 0xFF0000000000 (descBytes 6 5)) = false ∧
    (parseDesc 0xFF0000000000 (descBytes 6 5)).mode = 6 ∧ (∃ s1, (described 6 5).readVA { (described 6 5).seqWho 0 with unit := 0xFB } 0xFF0000000000 64 = (s1, .ok (descBytes 6 5))) ∧
    ∃ y e, (described 6 5).replayOf 0 = some y ∧ (parseDesc 0xFF0000000000 (descBytes 6 5)).base < y.chcount ∧ ((described 6 5).reg 0).chan? 5 = some e ∧
      e.producer = ((parseDesc 0xFF0000000000 (descBytes 6 5)).mode == 7) :=
  ⟨by decide, by decide, by decide, by decide, ⟨_, pair _ _ (by decide +kernel)⟩, _, _, rfl, by decide, rfl, by decide⟩

/-- A gather on stream 3 whose index is stream 4, both open and idle; stream 5 is a finished stream of 8 elements. -/
def gathering : State := (regs [(1, 8), (2, 4)]).modReg 0 (fun g => { g with
  streams := [(3, { state := 1, desc := { mode := 1, index := 4, width := 32 } }), (4, { state := 1, desc := { width := 32 } }),
    (5, { state := 3, desc := { trip := [8, 1, 1, 1, 1] } }), (66, { state := 4 })] })

theorem witness_StrmCommands : Claims.idleStream (gathering.reg 0) 4 ∧ ((gathering.reg 0).stream 4).sources = [] ∧ ((gathering.reg 0).stream 4).state = 1 ∧
    Claims.idleStream (gathering.reg 0) 5 ∧ ((gathering.reg 0).stream 5).state = 3 ∧ Claims.idleStream (gathering.reg 0) 3 ∧
    ((gathering.reg 0).stream 3).sources.all ((gathering.reg 0).sourceOk 3) = true ∧ (0 : Int) ≤ (gathering.seq.gr 1).toNat + (0 : BitVec 32).toInt ∧
    ((gathering.seq.gr 1).toNat + (0 : BitVec 32).toInt : Int) ≤ ((gathering.reg 0).stream 5).desc.total ∧
    ((gathering.reg 0).stream 5).desc.mode = 0 ∧ filterLegal ((gathering.reg 0).stream 5).desc.mode ((gathering.reg 0).stream 5).desc.dir 255 = true :=
  ⟨⟨by decide, by decide, by decide⟩, by decide, by decide, ⟨by decide, by decide, by decide⟩, by decide, ⟨by decide, by decide, by decide⟩, by decide, by decide, by decide,
    by decide, by decide⟩

/-- g1 is past the 8 elements of stream 5 by one, and stream 3 is in a mode without strm.seek; stream 4 is held by a mask that names
stream 3, which is running, and stream 5 by one that names stream 66, which is paused at an end. -/
def barring : State := (regs [(1, 9)]).modReg 0 (fun g => { g with
  streams := [(3, { state := 1, desc := { mode := 1, index := 4, width := 32 } }), (5, { state := 3, desc := { trip := [8, 1, 1, 1, 1] }, bars := [2 ^ 66] }),
    (66, { state := 4 }), (7, { state := 2 }), (9, { state := 1, bars := [2 ^ 7] })] })

theorem witness_StrmCommands_seek : Claims.canTrap barring.seq ∧ Claims.idleStream (barring.reg 0) 3 ∧ ((barring.reg 0).stream 3).desc.mode = 1 ∧
    Claims.idleStream (barring.reg 0) 5 ∧ ((barring.reg 0).stream 5).desc.total < 2 ^ 48 ∧
    (((barring.reg 0).stream 5).desc.total : Int) < (barring.seq.gr 1).toNat + (0 : BitVec 32).toInt ∧ ((barring.seq.gr 2).toNat : Int) + (-1 : BitVec 32).toInt < 0 :=
  ⟨by unfold Claims.canTrap; decide, ⟨by decide, by decide, by decide⟩, by decide, ⟨by decide, by decide, by decide⟩, by decide, by decide, by decide⟩

theorem witness_heldByBar : Claims.heldByBar (barring.reg 0) 9 ∧ ¬ Claims.heldByBar (barring.reg 0) 5 := by
  refine ⟨⟨2 ^ 7, by decide, 7, by decide, by decide, by decide, by decide, by decide⟩, fun ⟨m, hm, i, hi, hb, h0, h3, h4⟩ => ?_⟩
  have hs : ((barring.reg 0).stream 5).bars = [2 ^ 66] := by decide
  rw [hs, List.mem_singleton] at hm
  rw [hm, Nat.testBit_two_pow, decide_eq_true_eq] at hb
  exact h4 (hb ▸ by decide)

/-- The mask names streams 3 and 66, which are open: bit 3 of g1 and bit 2 of g2. -/
theorem witness_StrmCommands_bar : (gathering.seq.gr 1).toNat + (gathering.seq.gr 2).toNat * 2 ^ 64 = 2 ^ 3 + 2 ^ 66 ∧ (2 ^ 3 + 2 ^ 66 : Nat).testBit 5 = false ∧
    ((gathering.reg 0).stream 5).state ≠ 0 ∧ ∀ j, j < 128 → (2 ^ 3 + 2 ^ 66 : Nat).testBit j = true → ((gathering.reg 0).stream j).state ≠ 0 := by decide

theorem witness_StrmBindAddsEntry : Claims.idleStream ((loaded []).reg 0) 127 ∧ (((loaded []).reg 0).bank (!((loaded []).reg 0).cur)).state = 1 ∧
    (((loaded []).reg 0).bank (!((loaded []).reg 0).cur)).img = some img0 ∧ (5 : BitVec 8).toNat ≤ 5 ∧ (15 : BitVec 8).toNat ≤ 15 ∧
    (∀ e ∈ img0.binds, e.stream ≠ 127 → ¬(e.kind = 5 ∧ e.pos = 15)) ∧ (img0.binds.filter (fun e => e.stream != 127)).length < 128 :=
  ⟨⟨by decide, by decide, by decide⟩, by decide, by decide, by decide, by decide, by decide, by decide⟩

theorem witness_StrmReads : ((gathering.reg 0).stream 5).state < 5 ∧ ((gathering.reg 0).stream 5).desc.dir < 2 ∧ ((gathering.reg 0).stream 5).desc.mode < 8 ∧
    ((gathering.reg 0).stream 5).cur.pos < 2 ^ 48 ∧ ((gathering.reg 0).stream 5).state ≠ 0 ∧ ((gathering.reg 0).stream 6).state = 0 := by decide

theorem witness_StrmTraps : Claims.canTrap (running [(1, 1)]).seq ∧ ¬ Claims.idleStream ((running [(1, 1)]).reg 0) 3 ∧ Claims.idleStream ((running [(1, 1)]).reg 0) 9 ∧
    (((running [(1, 1)]).reg 0).stream 9).state = 0 ∧ ((running [(1, 1)]).seq.gr 1 + (0 : BitVec 32).signExtend 64).extractLsb' 0 6 ≠ 0 ∧
    (((running []).reg 0).stream 3).state ≠ 0 ∧ ((running []).seq.gr 1).toNat + ((running []).seq.gr 2).toNat * 2 ^ 64 = 0 ∧
    (((running []).reg 0).bank (!((running []).reg 0).cur)).state ≠ 1 :=
  ⟨by unfold Claims.canTrap; decide, fun h => absurd h.1 (by decide), ⟨by decide, by decide, by decide⟩, by decide, by decide, by decide, by decide, by decide⟩

/-! ### Tags, landing slots, folds, copies, channels -/

/-- Replay 1 of partition 0 with stages 0 and 1 of one die graph, each of one region, on regions 0 and 1. -/
def replay1 : Replay :=
  { num := 1, src := .host 0, prio := 0, graph := 0x8000, frame := 0x9000, begun := true, chtab := 0x5000, chcount := 1
    dgs := [{ die := 0, place := .placed, stages := [{ index := 0, number := 0, width := 1, entry := 0, save := 0, regions := [0] },
      { index := 1, number := 1, width := 1, entry := 0, save := 0, regions := [1] }] }] }
/-- The placement of stage `n` of that replay. -/
def place1 (n : Nat) : Placement := { part := 0, replay := 1, dg := 0, stage := n, number := n, lane := 0, width := 1, graph := 0x8000, save := 0 }
/-- Both regions placed, with registers of region 0 and bytes at physical addresses. -/
def staged (l : List (Nat × Word)) (m : List (Nat × List Byte)) : State :=
  ((partly (fun v => { v with replays := [replay1], regions := 3 }) (regs l)).setReg 1 { place := some (place1 1), seq := { run := .boundary } }).modMem
    (fun x => m.foldl (fun y e => y.writeN e.1 e.2) x)

theorem witness_TagInstructions : (regs []).seq.kr 0 = true ∧ ∃ c, c = (((at0 (fun g => { g with tags := [(4, { count := 32767 })] })).reg 0).tag 4).count.toInt + (0 : BitVec 16).toInt ∧
    -32768 ≤ c ∧ c ≤ 32767 ∧ (((regs []).reg 0).tag 4).task = none ∧ (((at0 (fun g => { g with tags := [(4, { task := some 15 })] })).reg 0).tag 4).task = some (15 : BitVec 4).toNat :=
  ⟨by decide, _, rfl, by decide, by decide, by decide, by decide⟩

theorem witness_TagWaitAndTest : (((regs []).reg 0).tag 4).b = false ∧ (((at0 (fun g => { g with tags := [(4, { b := true })] })).reg 0).tag 4).b = true := by decide

/-- g1 names an aligned word in the palette, g2 a mask that the word meets. -/
def arming : State := (regs [(1, 0xFF0000000040), (2, 3)]).modMem (fun m => m.write (2 ^ 52 + 0x40) 7)

theorem witness_TagArmEvaluates : arming.seq.kr 0 = true ∧ (arming.seq.gr 1).extractLsb' 0 3 = 0 ∧ ∃ s1,
    (arming.modReg arming.cur (fun g => g.setTag 4 { g.tag 4 with arm := some ⟨(arming.seq.gr 1).toNat, arming.seq.gr 2⟩, b := true })).readNum
      { part := (arming.owner arming.cur).getD 48, region := some arming.cur, unit := 0xF9 } (arming.seq.gr 1).toNat 8 = (s1, .ok 7) :=
  ⟨by decide, by decide, _, pair _ _ (by decide)⟩

/-- Rank entries of this package and of another, for region 7. -/
def rankEntry (package : BitVec 12) : Word := package.setWidth 64 <<< 8 ||| 0x8000000000000007
def rankHere : Word := rankEntry Config.packageId
def rankThere : Word := rankEntry (~~~Config.packageId)

/-- Bits 19 to 8 of an entry are its package. -/
theorem rankEntry_package (x : BitVec 12) : (rankEntry x).getLsbD 63 = true ∧ (rankEntry x).extractLsb' 8 12 = x := by
  refine ⟨by simp [rankEntry], BitVec.eq_of_getLsbD_eq fun i hi => ?_⟩
  interval_cases i <;> simp [rankEntry]

theorem witness_TagSigSends_ranks : rankHere.getLsbD 63 = true ∧ rankHere.extractLsb' 8 12 = Config.packageId ∧ rankThere.getLsbD 63 = true ∧
    rankThere.extractLsb' 8 12 ≠ Config.packageId ∧ ((regs [(1, 0x7FF)]).seq.gr 1).toNat = 0x7FF ∧ (regs []).engineHeld 0 = false := by
  refine ⟨(rankEntry_package _).1, (rankEntry_package _).2, (rankEntry_package _).1, fun h => ?_, by decide, by decide⟩
  have := congrArg (fun x => x.getLsbD 0) ((rankEntry_package (~~~Config.packageId)).2.symm.trans h)
  simp at this

theorem witness_TagSigSends : (staged [(1, 1)] []).seq.kr 0 = true ∧ (staged [(1, 1)] []).engineHeld 0 = false ∧ ∃ pl v, ((staged [(1, 1)] []).reg 0).place = some pl ∧
    (staged [(1, 1)] []).part? pl.part = some v ∧ ((staged [(1, 1)] []).seq.gr 1).toNat = 1 ∧ (v.standingAt 1).any (inScope 3 0 1 pl) = true ∧
    (staged [(1, 1)] []).engineBusy 0 = false :=
  ⟨by decide, by decide, _, _, rfl, rfl, by decide, by decide, by decide⟩

theorem witness_TagTraps : Claims.canTrap (regs []).seq ∧ 32767 < (((at0 (fun g => { g with tags := [(4, { count := 32767 })] })).reg 0).tag 4).count.toInt + (1 : BitVec 16).toInt ∧
    (((at0 (fun g => { g with tags := [(4, { count := -32768 })] })).reg 0).tag 4).count.toInt + (-1 : BitVec 16).toInt < -32768 ∧
    (((at0 (fun g => { g with tags := [(4, { task := some 14 })] })).reg 0).tag 4).task = some 14 ∧ 14 ≠ (15 : BitVec 4).toNat ∧
    ((regs [(1, 4)]).seq.gr 1).extractLsb' 0 3 ≠ 0 ∧ (regs [(1, 0x130)]).engineHeld 0 = false ∧ 0x130 ≤ ((regs [(1, 0x130)]).seq.gr 1).toNat ∧
    ¬(0x400 ≤ ((regs [(1, 0x130)]).seq.gr 1).toNat ∧ ((regs [(1, 0x130)]).seq.gr 1).toNat ≤ 0x7FF) ∧ 0x130 ≤ ((regs [(1, 0x800)]).seq.gr 1).toNat :=
  ⟨by unfold Claims.canTrap; decide, by decide, by decide, by decide, by decide, by decide, by decide, by decide, by decide, by decide⟩

/-- Region 2, where nothing stands; regions 192 and 255; lane 1 of a stage of width 1, and its lane 0 outside the scope of a cell; and a rank without an
entry. -/
theorem witness_TagTraps_signals : ∃ pl v, ((staged [(1, 0x101)] []).reg 0).place = some pl ∧ (staged [(1, 0x101)] []).part? pl.part = some v ∧
    (v.standingAt 2).any (inScope 1 0 2 pl) = false ∧ 192 ≤ ((regs [(1, 192)]).seq.gr 1).toNat ∧ ((regs [(1, 255)]).seq.gr 1).toNat < 0x100 ∧
    0x100 ≤ ((staged [(1, 0x101)] []).seq.gr 1).toNat ∧ (∀ g, v.stageOf pl = some g → g.regions[0x101 - 0x100]? = none) ∧ (spGet 0 v.ranks 0x3FF).getLsbD 63 = false ∧
    rankHere.getLsbD 63 = true ∧ (1 : BitVec 3) ≠ 6 :=
  ⟨_, _, rfl, rfl, by decide, by decide, by decide, by decide, fun g h => by rw [← Option.some.inj h]; decide, by decide, (rankEntry_package _).1, by decide⟩

/-- Slot 3 is full, slot 4 owed. -/
def landed : State := (regs []).mod (fun q => (q.setSlot 3 (.full 9)).setSlot 4 .owed)

theorem witness_LandingSlots : landed.seq.slot 3 = .full 9 ∧ landed.seq.slot 4 = .owed ∧ landed.seq.slot 15 = .empty ∧ Claims.canTrap landed.seq :=
  ⟨by decide, by decide, by decide, by unfold Claims.canTrap; decide⟩

theorem witness_FoldIsSent : ∃ v w, (windowed [(1, 0x1FFF8)]).part? 0 = some v ∧ (windowed [(1, 0x1FFF8)]).owner 0 = some 0 ∧ (windowed [(1, 0x1FFF8)]).engineHeld 0 = false ∧
    Claims.Sum ((windowed [(1, 0x1FFF8)]).seq.gr 1) (0 : BitVec 20).toInt 0x1FFF8 ∧ 0x1FFF8 % 8 = 0 ∧
    v.windows.find? (fun w => decide (w.va ≤ 0x1FFF8) && decide (0x1FFF8 + 8 ≤ w.va + 2 ^ w.log2)) = some w ∧ w.owner = some (0, 3) ∧
    (windowed [(1, 0x1FFF8)]).seq.slot 2 = .empty ∧ (windowed [(1, 0x1FFF8)]).engineBusy 0 = false :=
  ⟨_, _, rfl, by decide, by decide, by unfold Claims.Sum; decide, by decide, rfl, rfl, by decide, by decide⟩

/-- A misaligned word, one behind the window's end, one below address 0, and one inside it with an owed slot. -/
theorem witness_FoldTraps : Claims.canTrap (windowed []).seq ∧ ∃ v, (windowed []).part? 0 = some v ∧ 0x1FFFC % 8 ≠ 0 ∧
    Claims.Sum ((windowed [(1, 0x20000)]).seq.gr 1) (0 : BitVec 20).toInt 0x20000 ∧ 0x20000 % 8 = 0 ∧ Claims.Sum ((windowed [(1, 0x20000)]).seq.gr 1) (-0x10000 : BitVec 20).toInt 0x10000 ∧
    ((windowed []).seq.gr 1).toNat + (-8 : BitVec 20).toInt < 0 ∧ ((windowed []).seq.gr 1 + (-8 : BitVec 20).signExtend 64).toNat % 8 = 0 ∧ (∀ w ∈ v.windows, w.va + 2 ^ w.log2 ≤ 2 ^ 48) ∧
    v.windows.any (fun w => decide (w.va ≤ 0x20000) && decide (0x20000 + 8 ≤ w.va + 2 ^ w.log2)) = false ∧
    v.windows.any (fun w => decide (w.va ≤ 0x10000) && decide (0x10000 + 8 ≤ w.va + 2 ^ w.log2)) = true ∧ landed.seq.slot 4 ≠ .empty :=
  ⟨by unfold Claims.canTrap; decide, _, rfl, by decide, by unfold Claims.Sum; decide, by decide, by unfold Claims.Sum; decide, by decide, by decide, by decide, by decide, by decide, by decide⟩

/-- g1 in the own palette, g2 a mapped VA, g3 a length, g4 the same in another place of the palette. -/
def copyRegs : State := staged [(1, 0xFF00001FFFC0), (2, 0x4000), (3, 64), (4, 0xFF0000000000)] []

theorem witness_CopyInstructionsQueue : copyRegs.seq.kr 0 = true ∧ copyRegs.engineHeld 0 = false ∧ copyRegs.owner 0 = some 0 ∧ (copyRegs.seq.gr 1).toNat % 32 = 0 ∧
    Claims.Sum (copyRegs.seq.gr 2) (0 : BitVec 32).toInt 0x4000 ∧ 0x4000 % 32 = 0 ∧ (copyRegs.seq.gr 3).toNat % 32 = 0 ∧ (copyRegs.reg 0).copies.length < 16 ∧
    0xFF0000000000 ≤ (copyRegs.seq.gr 1).toNat ∧ (copyRegs.seq.gr 1).toNat + (copyRegs.seq.gr 3).toNat ≤ 0xFF0000200000 ∧ 0x4000 < 0xFF0000000000 ∧
    (1 : BitVec 8).toNat ≠ copyRegs.cur ∧ (∀ x, (copyRegs.reg 0).place = some x → ∃ y, (copyRegs.reg 1).place = some y ∧ y.part = x.part ∧ y.replay = x.replay ∧ y.dg = x.dg) :=
  ⟨by decide, by decide, by decide, by decide, by unfold Claims.Sum; decide, by decide, by decide, by decide, by decide, by decide, by decide, by decide,
    fun x h => ⟨place1 1, by decide, by rw [← Option.some.inj h]; decide, by rw [← Option.some.inj h]; decide, by rw [← Option.some.inj h]; decide⟩⟩

/-- A full copy queue, and a push of 64 bytes to the end of rank 1,023's palette. -/
def copyFull : State := (partly (fun v => { v with ranks := spInsert v.ranks 0x3FF rankThere }) copyRegs).modReg 0 (fun g => { g with
  copies := List.replicate 16 { index := 0, src := 0, dst := 0, len := 32, bitmap := none, tag := none, acq := false, rel := false, scope := 1, region := 0, part := 0 } })

theorem witness_CopyInstructionsQueue_full : 16 ≤ (copyFull.reg 0).copies.length ∧ copyFull.engineHeld 0 = false ∧ copyFull.owner 0 = some 0 ∧
    (∃ v, copyFull.part? 0 = some v ∧ spGet 0 v.ranks ((0xFF207FFFFFC0 - 0xFF2000000000) / 0x200000) = rankThere) ∧
    (0xFF207FFFFFC0 - 0xFF2000000000) % 0x200000 + 64 ≤ 0x200000 := ⟨by decide, by decide, by decide, ⟨_, rfl, by rfl⟩, by decide⟩

/-- g1 outside the palette, g2 in it; g5 and g6 misaligned. -/
def copyBad : State := staged [(1, 0x4000), (2, 0xFF0000000020), (3, 33), (5, 0xFF0000000010), (6, 0x4010)] []

theorem witness_CopyTraps : Claims.canTrap copyBad.seq ∧ copyBad.engineHeld 0 = false ∧ ((copyBad.seq.gr 1).toNat + (0 : BitVec 32).toInt : Int) < 0xFF0000000000 ∧ ¬(0xFF0000000000 ≤ (copyBad.seq.gr 1).toNat ∧ (copyBad.seq.gr 1).toNat < 0xFF1000000000) ∧
    (0xFF0000000000 ≤ (copyBad.seq.gr 2).toNat ∧ (copyBad.seq.gr 2).toNat < 0xFF1000000000) ∧ (2 : BitVec 8).toNat ≠ copyBad.cur ∧ (copyBad.reg 2).place = none ∧
    (copyBad.seq.gr 5).toNat % 32 ≠ 0 ∧ (copyBad.seq.gr 6).toNat % 32 ≠ 0 ∧ (copyBad.seq.gr 2).toNat % 32 = 0 ∧ (copyBad.seq.gr 1).toNat % 32 = 0 ∧ (copyBad.seq.gr 3).toNat % 32 ≠ 0 :=
  ⟨by unfold Claims.canTrap; decide, by decide, by decide, by decide, by decide, by decide, by decide, by decide, by decide, by decide, by decide, by decide⟩

/-- A copy of two sectors from the palette to VA 0x4000 is queued. -/
def copied : Copy := { index := 0, src := 0xFF0000000000, dst := 0x4000, len := 64, bitmap := none, tag := some 4, acq := false, rel := false, scope := 1, region := 0, part := 0 }
/-- The state in which it is queued. -/
def withCopy (c : Copy) : State := at0 (fun g => { g with copies := [c] })

theorem witness_CopySectorMoves : ((withCopy copied).reg 0).copies.find? (fun x => x.index == 0) = some copied ∧ (withCopy copied).owner 0 = some 0 ∧
    ∃ v s1 s2, (withCopy copied).part? 0 = some v ∧ 32 * 1 < copied.len ∧ copied.done.contains 1 = false ∧ copied.dst % 32 = 0 ∧
      (withCopy copied).readVA { part := 0, region := some 0, unit := 0xFE } (copied.src + 32) 32 = (s1, .ok (List.replicate 32 0)) ∧
      (∀ w, s1.part? 0 = some w → inWindow w (copied.dst + 32) 32 = false) ∧
      s1.reach { part := 0, region := some 0, unit := 0xFE } (copied.dst + 32) .write = (s2, .ok 0x204020) ∧ s2.physFault 0x204020 32 .write = none :=
  ⟨by decide, by decide, _, _, _, rfl, by decide, by decide, by decide, pair _ _ (by decide),
    fun w h => by rw [← Option.some.inj h]; decide, pair _ _ (by decide), by decide⟩

/-- A pushn to region 1, a push to rank 1's palette in region 1, a send to slot 5 of the channel at VA 0x4000, a receive from it and a copy with a bit that is due. -/
def copiedTo (n : Nat) (rank : Option Nat) (ring : Option (Nat × Nat × Nat)) (chan : Option (Nat × Nat)) : Copy :=
  { copied with src := 0xFF0000000000, dst := if rank.isSome then 0xFF2000200000 else if n = 0 then 0x4000 else 0xFF0000000000, region := n, rank := rank, ring := ring, chan := chan }
theorem witness_CopySectorPlaces : (∀ c ∈ [copiedTo 1 none none none, copiedTo 0 (some rankHere.toNat) none none, copiedTo 0 none (some (0x4000, 62, 5)) (some (0, 0)),
      copiedTo 0 none (some (0x4000, 62, 5)) (some (0, 1))], c.bits = [] ∧ c.bitmap = none ∧ 32 * 1 < c.len ∧ c.done.contains 1 = false ∧ c.fault = none) ∧
    0xFF0000000000 ≤ (copiedTo 1 none none none).dst ∧ (copiedTo 1 none none none).dst + 32 * 1 < 0xFF1000000000 ∧ (0x4000 + 0x40 + 64 * ((5 + 32 * 1 / 64) % 62) + 32 * 1 % 64) % 32 = 0 ∧
    (∃ s1, (withCopy copied).readVA { part := 0, region := some 0, unit := 0xFE } (0xFF0000000000 + 32 * 1) 32 = (s1, .ok (List.replicate 32 0)) ∧
      (∀ w, s1.part? 0 = some w → inWindow w 0x4180 32 = false) ∧
      ∃ s2, s1.reach { part := 0, region := some 0, unit := 0xFE } 0x4180 .write = (s2, .ok 0x204180) ∧ s2.physFault 0x204180 32 .write = none) ∧
    (∃ s1, (withCopy copied).readVA { part := 0, region := some 0, unit := 0xFE } 0x41A0 32 = (s1, .ok (List.replicate 32 0))) ∧
    (∀ e ∈ ((withCopy { copied with bits := [65], bitmap := some 0x5000 }).reg 0).tags, e.2.arm = none) ∧
    ∃ s1, (withCopy { copied with bits := [65], bitmap := some 0x5000 }).readNum { part := 0, region := some 0, unit := 0xFE } (0x5000 + 8 * (65 / 64)) 8 = (s1, .ok 0) ∧
      (∀ u, s1.part? 0 = some u → inWindow u 0x5008 8 = false) ∧
      ∃ s2, s1.reach { part := 0, region := some 0, unit := 0xFE } 0x5008 .write = (s2, .ok 0x205008) ∧ s2.physFault 0x205008 8 .write = none :=
  ⟨by intro c hc; simp only [List.mem_cons, List.not_mem_nil, or_false] at hc; rcases hc with rfl | rfl | rfl | rfl <;> decide, by decide, by decide, by decide,
    ⟨_, pair _ _ (by decide), fun w h => by rw [← Option.some.inj h]; decide, _, pair _ _ (by decide), by decide⟩, ⟨_, pair _ _ (by decide)⟩,
    by decide, _, pair _ _ (by decide), fun w h => by rw [← Option.some.inj h]; decide, _, pair _ _ (by decide), by decide⟩

/-- A copy with a bit that is due, and tag 4 armed on the word of that bit. -/
def bitCopy : Copy := { copied with bits := [65], bitmap := some 0x5000 }
def bitArmed : State := at0 (fun g => { g with copies := [bitCopy], tags := [(4, { arm := some ⟨0x5008, 2⟩, b := true })] })

theorem witness_BitmapWriteEvaluates : (bitArmed.reg 0).copies.find? (fun x => x.index == 0) = some bitCopy ∧ bitArmed.owner 0 = some 0 ∧ (∃ v, bitArmed.part? 0 = some v) ∧
    bitCopy.fault = none ∧ bitCopy.bits = 65 :: [] ∧ bitCopy.bitmap = some 0x5000 ∧
    ∃ s1 s2 s3, bitArmed.readNum { part := 0, region := some 0, unit := 0xFE } (0x5000 + 8 * (65 / 64)) 8 = (s1, .ok 0) ∧
      s1.writeNum { part := 0, region := some 0, unit := 0xFE } (0x5000 + 8 * (65 / 64)) 8 (0 ||| 2 ^ (65 % 64)) = (s2, .ok ()) ∧
      (bitArmed.reg 0).tags.filter (fun e => e.2.arm.isSome) = [(4, (bitArmed.reg 0).tag 4)] ∧ ((bitArmed.reg 0).tag 4).arm = some ⟨0x5008, 2⟩ ∧
      s2.readNum { part := 0, region := some 0, unit := 0xF9 } 0x5008 8 = (s3, .ok 2) :=
  ⟨by decide, by decide, ⟨_, rfl⟩, by decide, by decide, by decide, _, _, _, pair _ _ (by decide +kernel), pair _ _ (by decide +kernel), by decide, by decide, pair _ _ (by decide +kernel)⟩

theorem witness_CopyCompletionDecrements : ((withCopy { copied with done := [0, 1] }).reg 0).copies.find? (fun x => x.index == 0) = some { copied with done := [0, 1] } ∧
    ({ copied with done := [0, 1] } : Copy).done.length = ({ copied with done := [0, 1] } : Copy).len / 32 ∧ (((withCopy copied).reg 0).tag 4).count ≠ BitVec.intMin 16 := by decide

/-- A channel header at VA 0x4000: the indices, log2size 12, and the end mark (R310). -/
def header (prod cons ended : Nat) : List Byte := toBytes 8 prod ++ toBytes 8 cons ++ toBytes 4 12 ++ toBytes 8 0 ++ toBytes 4 ended ++ List.replicate 32 0
/-- The table entry of channel 0 for a producer and a consumer stage (R309). -/
def entry (p c : Nat) : List Byte := toBytes 8 0x4000 ++ toBytes 2 p ++ toBytes 2 c ++ List.replicate 20 0
/-- Region 0 is at the producer of channel 0; with `n` = 1 region 0 runs stage 1, the consumer. -/
def channels (n prod cons ended : Nat) (l : List (Nat × Word)) : State :=
  (staged l [(0x204000, header prod cons ended), (0x205000, entry 0 1)]).modReg 0 (fun g => { g with place := some (place1 n) })

theorem witness_ChannelOpens : ∃ v pl, (channels 0 5 3 0 []).replayOf 0 = some v ∧ ((channels 0 5 3 0 []).reg 0).place = some pl ∧ (0 : BitVec 12).toNat < v.chcount ∧
    ((channels 0 5 3 0 []).reg 0).chan? 0 = none ∧ (numAt (entry 0 1) 8 2 == pl.stage && numAt (entry 0 1) 12 1 == pl.lane) = true ∧ channelEntryOk v (entry 0 1) = true ∧
    ∃ s1 s2, (channels 0 5 3 0 []).readVA ((channels 0 5 3 0 []).seqWho 0) (v.chtab + 32 * 0) 32 = (s1, .ok (entry 0 1)) ∧
      s1.readVA (s1.chanWho s1.cur) (numAt (entry 0 1) 0 8) 64 = (s2, .ok (header 5 3 0)) :=
  ⟨_, _, rfl, rfl, by decide, by decide, by decide, by decide, _, _, pair _ _ (by decide +kernel), pair _ _ (by decide +kernel)⟩

/-- The producer's end of the channel, and the consumer's. -/
def prodEnd : ChanEnd := { num := 0, producer := true, header := 0x4000, size := 12, own := 5, other := 3, ended := false, corrupt := false }
def consEnd : ChanEnd := { num := 0, producer := false, header := 0x4000, size := 12, own := 3, other := 5, ended := false, corrupt := false }
/-- An end held open by region 0. -/
def holding (e : ChanEnd) (s : State) : State := s.modReg 0 (fun g => { g with chans := [e] })

theorem witness_ChannelOpens_end : ({ prodEnd with ended := false } : ChanEnd).bad (header 5 3 0) = false ∧ ({ consEnd with ended := true } : ChanEnd).bad (header 5 3 1) = false ∧
    (numAt (entry 0 1) 10 2 == (place1 1).stage && numAt (entry 0 1) 13 1 == (place1 1).lane) = true ∧
    ∃ s3, ((channels 0 5 3 0 []).modReg 0 (fun g => g.setChan prodEnd)).writeNum ((channels 0 5 3 0 []).chanWho 0) (0x4000 + 0x1C) 4 0 = (s3, .ok ()) :=
  ⟨by decide, by decide, by decide, _, pair _ _ (by decide +kernel)⟩

/-- A send of 128 bytes from the palette, 62 slots being free. -/
theorem witness_ChannelTransfers_send : ∃ s1 e, (holding prodEnd (channels 0 5 3 0 [(1, 0xFF0000000000), (2, 128)])).chanRead 0 prodEnd = (s1, .ok (some e)) ∧
    ((holding prodEnd (channels 0 5 3 0 [])).reg 0).chan? 0 = some prodEnd ∧ prodEnd.corrupt = false ∧ prodEnd.stream = none ∧
    128 / 64 ≤ 2 ^ e.size / 64 - (e.own + e.inflight - e.other) ∧ 128 ≤ 2 ^ prodEnd.size ∧ (holding prodEnd (channels 0 5 3 0 [])).engineHeld 0 = false ∧
    ((holding prodEnd (channels 0 5 3 0 [])).reg 0).copies.length < 16 :=
  ⟨_, { prodEnd with ended := false }, pair _ _ (by decide +kernel), by decide, by decide, by decide, by decide, by decide, by decide, by decide⟩

/-- A receive of two filled slots. -/
theorem witness_ChannelTransfers_slots : ∃ s1 e, (holding consEnd (channels 1 5 3 0 [(1, 0xFF0000000000), (2, 128)])).chanRead 0 consEnd = (s1, .ok (some e)) ∧
    e.own < e.other ∧ consEnd.recv = none := ⟨_, consEnd, pair _ _ (by decide +kernel), by decide, by decide⟩

/-- A receive from an ended channel that is empty, and the end of a receive of two slots. -/
theorem witness_ChannelTransfers_receive : (∃ s1 e, (holding { consEnd with other := 3 } (channels 1 3 3 1 [])).chanRead 0 { consEnd with other := 3 } = (s1, .ok (some e)) ∧
      e.other ≤ e.own ∧ e.ended = true) ∧
    (∃ s1, (holding { consEnd with recv := some 2, ready := true } (channels 1 5 3 0 [])).writeNum
      ((holding { consEnd with recv := some 2, ready := true } (channels 1 5 3 0 [])).chanWho 0) (0x4000 + 8) 8 (3 + 2) = (s1, .ok ())) ∧
    (∃ s1, (holding prodEnd (channels 0 5 3 0 [])).writeNum ((holding prodEnd (channels 0 5 3 0 [])).chanWho 0) (0x4000 + 0x1C) 4 1 = (s1, .ok ())) ∧
    prodEnd.inflight = 0 ∧ prodEnd.recv = none :=
  ⟨⟨_, { consEnd with other := 3, ended := true }, pair _ _ (by decide +kernel), by decide, by decide⟩, ⟨_, pair _ _ (by decide +kernel)⟩, ⟨_, pair _ _ (by decide +kernel)⟩,
    by decide, by decide⟩

theorem witness_ChannelStatus : ((channels 0 5 3 0 []).reg 0).chan? 0 = none ∧ (∃ v, (channels 0 5 3 0 []).replayOf 0 = some v ∧ 0 < v.chcount) ∧
    (∃ s1 e, (holding consEnd (channels 1 5 3 0 [])).chanRead 0 consEnd = (s1, .ok (some e))) ∧
    (∃ s1, (holding { consEnd with corrupt := true } (channels 1 5 3 0 [])).readVA ((channels 1 5 3 0 []).chanWho 0) consEnd.header 64 = (s1, .ok (header 5 3 0))) ∧
    (∃ s1, (holding consEnd (channels 1 4 3 0 [])).readVA ((channels 1 4 3 0 []).chanWho 0) consEnd.header 64 = (s1, .ok (header 4 3 0))) ∧ consEnd.bad (header 4 3 0) = true ∧
    ((holding consEnd (channels 1 4 3 0 [])).chanRead 0 consEnd).2 = .ok none ∧ (holding consEnd (channels 1 4 3 0 [])).seq.pending.length < 13 :=
  ⟨by decide, ⟨_, rfl, by decide⟩, ⟨_, consEnd, pair _ _ (by decide +kernel)⟩, ⟨_, pair _ _ (by decide +kernel)⟩, ⟨_, pair _ _ (by decide +kernel)⟩, by decide, by decide +kernel,
    by decide⟩

theorem witness_ChannelTraps : Claims.canTrap (channels 0 5 3 0 [(2, 63)]).seq ∧ (∃ v, (channels 0 5 3 0 []).replayOf 0 = some v ∧ v.chcount ≤ (1 : BitVec 12).toNat) ∧
    ((channels 0 5 3 0 []).reg 0).chan? 0 = none ∧ prodEnd.producer = true ∧ consEnd.producer = false ∧ ((channels 0 5 3 0 [(2, 63)]).seq.gr 2).toNat < 64 ∧
    (channels 0 5 3 0 [(2, 63)]).engineHeld 0 = false ∧ ({ prodEnd with corrupt := true } : ChanEnd).stream = none ∧
    2 ^ prodEnd.size < ((channels 0 5 3 0 [(2, 4097)]).seq.gr 2).toNat ∧ ((channels 0 5 3 0 [(1, 16)]).seq.gr 1).toNat % 32 ≠ 0 :=
  ⟨by unfold Claims.canTrap; decide, ⟨_, rfl, by decide⟩, by decide, by decide, by decide, by decide, by decide, by decide, by decide, by decide⟩

/-- A frame of region 0 behind its copy 0. -/
def framed (s : State) : State := partly (fun v => { v with
  frames := [{ id := 7, src := 0, package := 1, key := 2, region := 3, body := .signal 1 0 0, copy := none, after := [0] }] }) s

theorem witness_RankFramesAcknowledged : (∃ v f, (framed (regs [])).part? 0 = some v ∧ v.frames.find? (fun g => g.id == 7) = some f ∧
      ¬ ∃ c ∈ ((framed (regs [])).reg f.src).copies, c.index ∈ f.after ∧ c.done.length ≠ c.len / 32) ∧
    ∃ v f, (framed copying).part? 0 = some v ∧ v.frames.find? (fun g => g.id == 7) = some f ∧
      ∃ c ∈ ((framed copying).reg f.src).copies, c.index ∈ f.after ∧ c.done.length ≠ c.len / 32 :=
  ⟨⟨_, _, rfl, rfl, by decide⟩, _, _, rfl, rfl, by decide⟩

/-! ### Messages, faults, streams -/

/-- A signal from region 0 to tag 4 of region 1, in flight. -/
def signalled : State := (staged [] []).modPkg (fun k => { k with signals := [{ part := 0, src := 0, dst := 1, tag := 4, mode := 0, num := 9, target := some (1, 1), replay := 1 }] })

theorem witness_SignalApplied : signalled.pkg.retired.getLsbD 1 = false ∧ tileLive ((signalled.reg 1).tileState 352) = true ∧ ((signalled.reg 1).tag 4).count ≠ BitVec.intMin 16 ∧
    ∃ g v pl c, signalled.pkg.signals.find? (fun g => g.src == 0 && g.dst == 1) = some g ∧ signalled.part? g.part = some v ∧ (signalled.reg 1).place = some pl ∧
      pl.part = g.part ∧ g.target = some (pl.replay, pl.stage) ∧ v.stageOf pl = some c ∧ 1 ∉ c.done :=
  ⟨by decide, by decide, by decide, _, _, _, _, rfl, rfl, rfl, by decide, by decide, rfl, by decide⟩

/-- The stage that the signal is aimed at is saved; with another number of replay nothing takes it. -/
theorem witness_SignalApplied_saved : ∃ g : Signal, signalled.pkg.signals.find? (fun g => g.src == 0 && g.dst == 1) = some g ∧
    ({ die := 0, stages := [], saved := [{ region := 1, stage := 1, lane := 0, tick := 0, img := {}, palette := [], vat := [] }] } : DieGraph).takesSignal 1 g = true ∧
    ({ die := 0, stages := [], saved := [{ region := 1, stage := 1, lane := 0, tick := 0, img := {}, palette := [], vat := [] }] } : DieGraph).takesSignal 2 g = false :=
  ⟨_, rfl, by decide, by decide⟩

/-- An rmw operation of a replay of partition 0 by region 0, to edge unit 3 of region `o`. -/
def rmwFold (n o : Nat) : FoldMsg :=
  { num := 3, part := 0, issuer := 0, owner := (o, 3), op := 0, addr := 0x1FFF8, z := 8, b := 5, c := 0, r := false, slot := 0, rel := false, scope := 1, info := 0, rmw := true, replay := n }
/-- Two done tokens wait at region 0, which runs replay 1, and such an operation is on its way. -/
def tokens (n : Nat) : State := (at0 (fun g => { g with tokens := [7, 8] })).modPkg (fun k => { k with folds := [rmwFold n 0] })

theorem witness_DoneTokenUnblocks : ((tokens 2).reg 0).tokens = 7 :: [8] ∧ (∃ pl, ((tokens 2).reg 0).place = some pl ∧ pl.part = 0 ∧ pl.replay = 1) ∧
    (∀ f ∈ (tokens 2).pkg.folds, f.rmw = true → f.issuer = 0 → f.replay = 2) ∧
    ∃ f ∈ (tokens 1).pkg.folds, f.rmw = true ∧ f.issuer = 0 ∧ ∃ pl, ((tokens 1).reg 0).place = some pl ∧ f.part = pl.part ∧ f.replay = pl.replay :=
  ⟨by decide, ⟨_, rfl, rfl, rfl⟩, by decide, rmwFold 1 0, List.mem_singleton.2 rfl, rfl, rfl, _, rfl, rfl, rfl⟩

/-- Tag 4 is armed on an aligned word of the palette. -/
def armed : State := arming.modReg 0 (fun g => g.setTag 4 { arm := some ⟨0xFF0000000040, 3⟩, b := true })

theorem witness_ArmEvaluated : ((armed.reg 0).tag 4).arm = some ⟨0xFF0000000040, 3⟩ ∧
    ∃ s1, armed.readNum { part := (armed.owner 0).getD 48, region := some 0, unit := 0xF9 } 0xFF0000000040 8 = (s1, .ok 7) := ⟨by decide, _, pair _ _ (by decide)⟩

/-- A word with tag 5 waits at the router of region 0. -/
def routed (t : TagState) : State := (running []).modReg 0 (fun g => { g with mesh := [{ w := { payload := 1, tag := 5 } }], tags := [(5, t)]
                                                                              bankA := { g.bankA with islands := [{ started := true }] } })

theorem witness_RouterTakesWord : ((routed {}).reg 0).hold = [] ∧ ((routed {}).reg 0).mesh = { w := { payload := 1, tag := 5 } } :: [] ∧ (((routed {}).reg 0).tag 5).b = false ∧
    (((routed {}).reg 0).tag 5).task = none ∧ (spGet [] ((routed {}).reg 0).rows 5).length < 8 ∧ (((routed { b := true }).reg 0).tag 5).b = true ∧
    (((routed { task := some 0 }).reg 0).tag 5).task = some 0 ∧
    (∃ x, (((routed { task := some 0 }).reg 0).bank ((routed { task := some 0 }).reg 0).cur).islands[0]? = some x ∧ x.started = true) ∧
    (spGet [] ((routed { task := some 0 }).reg 0).inj (0 + 16 * ((routed { task := some 0 }).reg 0).cur.toNat)).length < 8 :=
  ⟨by decide, by decide, by decide, by decide, by decide, by decide, by decide, ⟨_, rfl, rfl⟩, by decide⟩

/-- A word waits in the hold; with tag 5 blocked, 64 of them fill it. -/
def holdingWords (n : Nat) (t : TagState) : State := (routed t).modReg 0 (fun g => { g with hold := List.replicate n { w := { payload := 2, tag := 5 } } })

theorem witness_RouterTakesWord_hold : ((holdingWords 1 {}).reg 0).hold = [{ w := { payload := 2, tag := 5 } }] ∧ (((holdingWords 1 {}).reg 0).tag 5).b = false ∧
    (((holdingWords 1 {}).reg 0).tag 5).task = none ∧ 64 ≤ ((holdingWords 64 { b := true }).reg 0).hold.length ∧
    (∀ h ∈ ((holdingWords 64 { b := true }).reg 0).hold, (((holdingWords 64 { b := true }).reg 0).tag h.w.tag.toNat).b = true) ∧
    (((routed { task := some 9 }).reg 0).bank ((routed { task := some 9 }).reg 0).cur).islands[9]? = none ∧ (5 : BitVec 3).toNat = 5 := by decide

theorem witness_RankFrameLands : (∃ v, (base []).parts.find? (fun e => e.2.key.toNat == 0) = some (0, v) ∧ (base []).part? 0 = some v) ∧ (base []).owner 0 = some 0 ∧
    (base []).owner 1 ≠ some 0 ∧ (base []).parts.find? (fun e => e.2.key.toNat == 65535) = none ∧ (2097120 % 32 = 0 ∧ 2097120 + 32 ≤ 2 ^ 21) ∧ (191 : BitVec 8).toNat < 192 :=
  ⟨⟨_, rfl, rfl⟩, by decide, by decide, by decide, by decide, by decide⟩

theorem witness_RankFrameLands_signal : ∃ v pl, (staged [] []).parts.find? (fun e => e.2.key.toNat == 0) = some (0, v) ∧ (staged [] []).part? 0 = some v ∧
    ((staged [] []).reg 1).place = some pl ∧ pl.part = 0 ∧ ∀ c, v.stageOf pl = some c → 1 ∉ c.done :=
  ⟨_, _, rfl, rfl, rfl, by decide, fun c h => by rw [← Option.some.inj h]; decide⟩

/-- An add of 5 by region 0 to the word at VA 0x1FFF8, on its way to edge unit 3 of region 0. -/
def folding : State := (windowed []).modPkg (fun k => { k with
  folds := [{ num := 3, part := 0, issuer := 0, owner := (0, 3), op := 0, addr := 0x1FFF8, z := 8, b := 5, c := 0, r := true, slot := 4, rel := false, scope := 1, info := 0, replay := 1 }] })

theorem witness_FoldApplied : ∃ m rest, folding.nextFold 0 (0, 3) = some (m, rest) ∧ m.owner = (0, 3) ∧ folding.ownerDone m = false ∧ m.addr % m.z = 0 ∧ m.z = 8 ∧
    ∃ s1 old, folding.readNum m.who m.addr m.z = (s1, .ok old) ∧ (∃ v l, applyFold m (folding.pkg.shadowsOf (0, 3)) old = .done v l false false) ∧
      ∃ s2 pa, s1.reach m.who m.addr .write = (s2, .ok pa) ∧ s2.physFault pa m.z .write = none :=
  ⟨_, _, rfl, rfl, rfl, by decide, by decide, _, 0, pair _ _ (by decide +kernel), ⟨_, _, rfl⟩, _, 0x21FFF8, pair _ _ (by decide +kernel), by decide +kernel⟩

/-- Stage 1 of replay 1 has completed on region 1, to whose edge unit an rmw operation is on its way. -/
def lateRmw : State :=
  (partly (fun v => { v with replays := [{ replay1 with dgs := replay1.dgs.map (fun (d : DieGraph) =>
    { d with stages := d.stages.map (fun (c : StageRec) => if c.index = 1 then { c with done := [1] } else c) }) }] }) (staged [] [])).modPkg (fun k => { k with folds := [rmwFold 1 1] })

theorem witness_FoldApplied_late : ∃ m rest v y d c, lateRmw.nextFold 0 (1, 3) = some (m, rest) ∧ m.rmw = true ∧ lateRmw.part? m.part = some v ∧
    v.replays.find? (fun y => y.num == m.replay) = some y ∧ d ∈ y.dgs ∧ c ∈ d.stages ∧ 1 ∈ c.done ∧ m.owner = (1, 3) ∧
    ∀ d ∈ y.dgs, ∀ c ∈ d.stages, 1 ∈ c.regions → 1 ∈ c.done :=
  ⟨rmwFold 1 1, [], _, _, _, { index := 1, number := 1, width := 1, entry := 0, save := 0, regions := [1], done := [1] }, rfl, rfl, rfl, rfl, List.mem_singleton.2 rfl, by decide, by decide, rfl,
    by decide⟩

/-- Its word lies in a frame that stage 2 does not map, so the owner is held. -/
def foldingFar : State := folding.modPkg (fun k => { k with folds := k.folds.map (fun m => { m with addr := 0x400000 }) })

theorem witness_FoldHolds : (∃ m rest s1, foldingFar.nextFold 0 (0, 3) = some (m, rest) ∧ foldingFar.ownerDone m = false ∧ foldingFar.readNum m.who m.addr m.z = (s1, .held)) ∧
    ∃ s : State, s = folding.modPkg (fun k => { k with folds := (k.folds.map (fun m => { m with held := true, issuer := 1, num := 2 })) ++ k.folds }) ∧
      (∃ x ∈ s.pkg.folds, x.held = true ∧ x.owner = (0, 3) ∧ ∀ m ∈ s.pkg.folds, m.issuer = 0 → m.owner = (0, 3) → m.part = x.part ∧ m.num ≠ x.num) :=
  ⟨⟨_, _, _, rfl, rfl, pair _ _ (by decide +kernel)⟩, _, rfl, by decide⟩

theorem witness_FoldValues : (32 : Nat) = 32 ∨ (32 : Nat) = 64 := .inl rfl

/-- Region 0 owes slot 4 and the return is in flight. -/
def returning : State := landed.modPkg (fun k => { k with returns := [{ part := 0, replay := 1, dst := 0, slot := 4, val := 77 }] })

theorem witness_FoldReturned : ∃ x rest pl, takeFirst (fun x => x.dst == 0) returning.pkg.returns = some (x, rest) ∧ (returning.reg 0).place = some pl ∧ pl.part = x.part ∧
    pl.replay = x.replay ∧ (returning.reg 0).seq.slot (BitVec.ofNat 4 x.slot) = .owed := ⟨_, _, _, rfl, rfl, by decide, by decide, by decide⟩

/-- An orphaned fold of region 0. -/
def orphaned : State := landed.modPkg (fun k => { k with
  folds := [{ num := 3, part := 0, issuer := 0, owner := (5, 3), op := 0, addr := 0x1FFF8, z := 8, b := 5, c := 0, r := true, slot := 4, rel := false, scope := 1, info := 0, orphan := true, replay := 1 }] })

theorem witness_OrphanReturned : orphaned.pkg.signals.any (fun g => g.src == 0 && g.dst == 5) = false ∧
    ∃ m rest pl, takeFirst (fun m => m.orphan && m.issuer == 0 && m.owner.1 == 5) orphaned.pkg.folds = some (m, rest) ∧ (orphaned.reg 0).place = some pl ∧ pl.part = m.part ∧
      pl.replay = m.replay ∧ (orphaned.reg 0).seq.pending.length < 16 := ⟨by decide, _, _, _, rfl, rfl, by decide, by decide, by decide⟩

/-- A signal to a region that has retired. -/
theorem witness_OrphanReturned_signal : ∃ g pl, (signalled.modPkg (fun k => { k with retired := 2 })).pkg.retired.getLsbD 1 = true ∧
    (signalled.modPkg (fun k => { k with retired := 2 })).pkg.signals.find? (fun g => g.src == 0 && g.dst == 1) = some g ∧
    ((signalled.modPkg (fun k => { k with retired := 2 })).reg 0).place = some pl ∧ pl.part = g.part ∧ pl.replay = g.replay ∧
    ((signalled.modPkg (fun k => { k with retired := 2 })).reg 0).seq.pending.length < 16 := ⟨_, _, by decide, rfl, rfl, rfl, by decide, by decide⟩

/-- Edge unit 3 is gone, every other of the partition's region has four windows, and an operation for the window waits. -/
def crowded : List Window :=
  { va := 0x10000, log2 := 16, owner := none } :: (List.range 64).map (fun i => { va := 0x20000 + 0x1000 * i, log2 := 12, owner := some (0, i % 16) })
def homeless : State := (partly (fun v => { v with windows := crowded }) folding).modPkg (fun k => { k with rehoming := [(0, 0)] })

theorem witness_WindowRehomed_none : ∃ v win, homeless.part? 0 = some v ∧ v.windows[0]? = some win ∧ homeless.pkg.rehoming.contains (0, 0) = true ∧
    homeless.freeOwner { v with windows := v.windows.set 0 { win with owner := none } } = none ∧
    (∀ x ∈ List.range 16, 4 ≤ ((v.windows.set 0 { win with owner := none }).filter (fun y => y.owner == some (0, x))).length) ∧ v.regions = 1 ∧
    ∃ m ∈ homeless.pkg.folds, (m.part == 0 && !m.orphan && decide (win.va ≤ m.addr) && decide (m.addr < win.va + 2 ^ win.log2)) = true ∧
      (∃ pl, (homeless.reg m.issuer).place = some pl ∧ m.part = pl.part ∧ m.replay = pl.replay) ∧ (homeless.reg m.issuer).seq.pending.length + homeless.pkg.folds.length ≤ 16 :=
  ⟨_, _, rfl, rfl, by decide, by decide +kernel, by decide +kernel, rfl, _, List.mem_singleton.2 rfl, by decide, ⟨_, rfl, rfl, rfl⟩, by decide⟩

theorem witness_FoldWithoutOwner : ∃ v w, (partly (fun v => { v with windows := [{ va := 0x10000, log2 := 16, owner := none }] }) (regs [(1, 0x1FFF8)])).part? 0 = some v ∧
    v.windows.find? (fun w => decide (w.va ≤ 0x1FFF8) && decide (0x1FFF8 + 8 ≤ w.va + 2 ^ w.log2)) = some w ∧ w.owner = none ∧ (regs [(1, 0x1FFF8)]).seq.pending.length < 16 ∧
    Claims.Sum ((regs [(1, 0x1FFF8)]).seq.gr 1) (0 : BitVec 20).toInt 0x1FFF8 :=
  ⟨_, _, rfl, rfl, rfl, by decide, by unfold Claims.Sum; decide⟩

theorem witness_WindowRehomed : ∃ v win, ((windowed []).modPkg (fun k => { k with rehoming := [(0, 0)] })).part? 0 = some v ∧ v.windows[0]? = some win ∧
    ((windowed []).modPkg (fun k => { k with rehoming := [(0, 0)] })).pkg.rehoming.contains (0, 0) = true ∧
    (windowed []).freeOwner { v with windows := v.windows.set 0 { win with owner := none } } = some (0, 0) := ⟨_, _, rfl, rfl, by decide, by decide +kernel⟩

/-- Words at pc that are no instruction, and a pc whose page stage 2 does not map but stage 1 refuses. -/
def undecodable : State := (base (toBytes 4 0x0B000000)).mod (fun q => { q with tvec := 0x100 })

theorem witness_DecodeFaultTraps : undecodable.cur < 192 ∧ Claims.canTrap undecodable.seq ∧ (∃ s1, undecodable.fetch 0 = (s1, .reject .majorIllegal 0x0B000000)) ∧
    ∃ s1, ((regs []).mod (fun q => { q with pc := 0xFF0000000000 })).fetch 0 = (s1, .fault 0x040 0xFF0000000000 0) :=
  ⟨by decide, by unfold Claims.canTrap; decide, ⟨_, pair _ _ (by decide +kernel)⟩, _, pair _ _ (by decide +kernel)⟩

theorem witness_CauseDelivered : pended.ready 0 = .cause ∧ (pended.reg 0).seq.pending = { cause := 0x121 } :: [] ∧ (pended.reg 0).seq.tvec ≠ 0 := by decide

/-- A yield at pc waits since tick 0. -/
def yieldAt (n : Nat) : State := { (base (toBytes 4 0x00000018)).mod (fun q => { q with run := .waiting, waitFrom := some 0 }) with tick := n }

theorem witness_YieldTimesOut : ((yieldAt 3151).reg 0).seq.run = .waiting ∧ ((yieldAt 3151).reg 0).seq.waitFrom = some 0 ∧ 4096 * 10 ≤ ((yieldAt 3151).tick - 0) * 13 ∧
    (yieldAt 3151).ready 0 = .fetch ∧ ∃ s1, (yieldAt 3151).fetch 0 = (s1, .instr (.yield 0)) := ⟨by decide, by decide, by decide, by decide, _, pair _ _ (by decide +kernel)⟩

/-- Stream 3, bound and running, has read a word ahead. -/
def reading : State := (running []).modReg 0 (fun g => { g with streams := [(3, { state := 2, ahead := [{ w := { payload := 9 } }] })] })

theorem witness_StreamDelivers : (reading.reg 0).strmParked 3 = false ∧ (reading.reg 0).bankA.unbinding.contains 3 = false ∧
    (reading.reg 0).bankB.unbinding.contains 3 = false ∧ (∃ q, ((reading.reg 0).stream 3).ahead = q :: []) ∧ ((reading.reg 0).stream 3).desc.dir = 0 ∧
    ∃ bank e, (reading.reg 0).binding 3 = some (bank, e) ∧ ((reading.reg 0).boundFifo e.kind e.pos).length < 8 ∧ (reading.reg 0).posTaken bank e = false ∧ e.kind ∈ [0, 1, 4] :=
  ⟨by decide, by decide, by decide, ⟨_, rfl⟩, by decide, _, _, rfl, by decide, by decide, by decide⟩

/-- Stream 3 of direction 1 is bound to the output of edge unit 2, where a word waits. -/
def writing (k : BitVec 3) : State := (regs []).modReg 0 (fun g => { g with
  bankA := { state := 2, img := some { img0 with binds := [{ stream := 3, kind := 5, pos := 2, idx := 0 }] }, bound := [{ stream := 3, kind := 5, pos := 2, idx := 0 }], islands := [{}] }
  cur := false, streams := [(3, { state := 2, desc := { dir := 1, width := 64, trip := [8, 1, 1, 1, 1] } })]
  edges := [(2, { out := [{ w := { payload := 9, kind := k }, rnd := 0 }] })] })

theorem witness_StreamTakesWord : (5 : Nat) ∈ [2, 3, 5] ∧ ((writing 0).reg 0).strmParked 3 = false ∧ ((writing 0).reg 0).binding 3 = some (false, { stream := 3, kind := 5, pos := 2, idx := 0 }) ∧
    (((writing 0).reg 0).stream 3).desc.dir = 1 ∧ (((writing 0).reg 0).stream 3).desc.mode = 0 ∧ (((writing 0).reg 0).stream 3).desc.width = 64 ∧ (((writing 0).reg 0).stream 3).desc.scale = 0 ∧
    (((writing 0).reg 0).stream 3).state = 2 ∧ (((writing 0).reg 0).stream 3).sated = false ∧ (((writing 0).reg 0).stream 3).part = [] ∧ ((writing 0).reg 0).outEnded 3 = false ∧
    (∃ q, ((writing 0).reg 0).boundFifo 5 2 = q :: [] ∧ q.bank = false ∧ q.w.kind = 0) ∧
    ∃ q, ((writing 2).reg 0).boundFifo 5 2 = q :: [] ∧ q.bank = false ∧ q.w.kind = 2 :=
  ⟨by decide, by decide, by decide, by decide, by decide, by decide, by decide, by decide, by decide, by decide, by decide, ⟨_, rfl, by decide, by decide⟩, _, rfl, by decide, by decide⟩

/-- Stream 3 asks for the translation of VA 0x4000, and streams 4 to 7 behind it. -/
def asking : State := at0 (fun g => { g with
  streams := (List.range 5).map (fun i => (3 + i, { state := 2, need := some (0x4000, false), paused := true })), walks := [3, 4, 5, 6, 7] })

theorem witness_ExtentAnswered : ((asking.reg 0).stream 3).need = some (0x4000, false) ∧ ((asking.reg 0).stream 7).need = some (0x4000, false) ∧
    ((asking.reg 0).walks.filter (fun m => ((asking.reg 0).stream m).need.isSome)).take 4 = [3, 4, 5, 6] ∧
    ∃ s1 x, asking.xlateFor { part := (asking.owner 0).getD 48, region := some 0, unit := 3 } 0x4000 .read = (s1, .ok x) ∧ x.pa = 0x200000 :=
  ⟨by decide, by decide, by decide, _, { part := 0, va := 0, size := 0x200000, pa := 0x200000, write := true, exec := true, write2 := true, exec2 := true, rep := false, key := 0, home := 0, gpa := 0, fine := false, leaf := 0x202000 },
    pair _ _ (by decide +kernel), by decide⟩

/-! ### Islands, edge units, rounds -/

/-- A block of one cell that reads its own out register and sends nothing, with two rounds. -/
def img1 : Block := { img0 with
  binds := [], trip := [2, 0, 0, 0, 0]
  cells := [{ x := 0, y := 0, island := 0, bank := 0, ops := [0], routes := [0x4400], regs := [0], off := 0x118 }] }
/-- The same with an edge record on row 3 whose only step discards a word of its lane FIFO. -/
def img2 : Block := { img1 with edges := [{ row := 3, ops := [0], routes := [0], off := 0x128 }] }
/-- An island that has not started. -/
def idle : Island := { started := false }
/-- Bank A of region 0 runs a block; `i` is its island. -/
def gridded (img : Block) (i : Island) (f : Bank → Bank) : State :=
  at0 (fun g => { g with cur := false, bankA := f { state := 2, img := some img, islands := [i] } })

theorem witness_IslandSlotRuns : ∃ g img i ps, g = (gridded img1 { started := true } id).reg 0 ∧ img = img1 ∧ i = Island.sample { started := true } 0 ∧
    ps = (img.cells.filter (fun c => c.island == 0)).map (g.plan false img 0 i) ∧ (g.bank false).img = some img ∧ (g.bank false).islands[0]? = some { started := true } ∧
    (g.bank false).state = 2 ∧ (g.bank false).voidTo = none ∧ (g.bank false).stopped = false ∧ i.bubble = false ∧
    ((img.cells.filter (fun c => c.island == 0)).map (fun c => 16 * c.y + c.x)).Nodup ∧
    g.stalls false img 0 i ps = false ∧ (g.realSlot false img 0 ps).poison = false ∧ (g.realSlot false img 0 ps).full = false :=
  ⟨_, _, _, _, rfl, rfl, rfl, rfl, by decide, by decide, by decide, by decide, by decide, by decide, by decide, by decide +kernel, by decide +kernel, by decide +kernel⟩

/-- The block whose cell reads its island's injection FIFO, which is empty. -/
def img3 : Block := { img0 with trip := [2, 0, 0, 0, 0] }

/-- An island that waits for that word, and one in a bubble (R368): level 60 makes iteration 1 a bubble. -/
theorem witness_IslandSlotWaits : (∃ g i, g = (gridded img3 { started := true } (fun b => { b with bound := img3.binds })).reg 0 ∧ i = Island.sample { started := true } 0 ∧
      g.stalls false img3 0 i ((img3.cells.filter (fun c => c.island == 0)).map (g.plan false img3 0 i)) = true ∧ (g.bank false).img = some img3 ∧
      (g.bank false).islands[0]? = some { started := true } ∧ (g.bank false).state = 2) ∧
    (Island.sample { started := true, iter := 1 } 60).bubble = true := ⟨⟨_, _, rfl, rfl, by decide +kernel, by decide, by decide, by decide⟩, by decide⟩

theorem witness_IslandSwitches : ∃ g, g = (gridded img1 idle id).reg 0 ∧ (g.bank g.cur).img = some img1 ∧ (g.bank g.cur).islands[0]? = some idle ∧ (g.bank g.cur).state = 2 ∧
    (g.bank g.cur).voidTo = none ∧ (g.bank g.cur).stopped = false ∧ g.mayswitch g.cur img1 0 = true := ⟨_, rfl, by decide, by decide, by decide, by decide, by decide, by decide⟩

/-- Lanes of 16 bits, signed and unsigned, and the float classes; entries for mac with 16 and with 1 element a side (R114). -/
theorem witness_IntegerLanes : fuseClass 0x8800 = 0 ∧ fuseClass 0x8810 = 1 ∧ laneWidth 0x8800 = 16 ∧
    Claims.laneResult (n := 16) true 1 2 3 0x04 ≠ none ∧ Claims.laneResult (n := 16) true 1 2 3 0x1F ≠ none ∧ fuseClass 0x8881 = 8 ∧ fuseClass 0x8891 = 9 ∧ fuseClass 0x00A9 = 10 ∧
    fuseAccum 0x8882 = 2 ∧ fuseLegal 0x1100 = true ∧ fuseLegal 0x0008 = true ∧ fuseClass 0x1100 = 0 ∧ fuseClass 0x00B4 = 11 := by decide

/-- A cell adds its two ports into its out register, and its guard fails. -/
def addPlan (run : Bool) : CellPlan := { cell := 0, op := BitVec.ofNat 24 (4 * 2 ^ 18 + 3), route := 0, reg := 7, srcA := .word {}, srcB := .word {}, run := run }
theorem witness_CellPlaces : opCode (addPlan false).op ≠ 0x22 ∧ (addPlan true).run = true ∧ opDst (addPlan true).op = 3 ∧
    (({} : Region).cellSlot { img1 with fuse := List.replicate 8 0x8800 } 0 (addPlan true)).poison = false ∧
    ∃ y, (({} : Cell).execute (Region.opCtx {} [0x8800] (addPlan true))).value = some y := ⟨by decide, rfl, by decide, by decide, _, rfl⟩

/-- Edge ops: an exact register and a fast one, sums within bounds, and a block at its last word. -/
theorem witness_EdgeOps : opCode (BitVec.ofNat 24 (0x16 * 2 ^ 18)) = 0x16 ∧ opCode (BitVec.ofNat 24 (2 * 2 ^ 18)) = 0x02 ∧ ({ qc := 15, quant := List.replicate 32 0 } : Edge).qc ≤ 15 ∧
    2 * ({ qc := 15, quant := List.replicate 32 0 } : Edge).qc ≤ ({ qc := 15, quant := List.replicate 32 0 } : Edge).quant.length ∧ (fmtFP32.decode (0x7FC00000 : BitVec 32).toNat).isNan = true ∧
    ({} : FoldReg).kind ≠ .fast ∧ -(2 ^ 319) ≤ ({} : FoldReg).sum + foldUnits (fmtFP32.decode 0x3F800000) ∧ ({} : FoldReg).sum + foldUnits (fmtFP32.decode 0x3F800000) < 2 ^ 319 ∧
    ({ kind := .exact } : FoldReg).kind = .exact ∧ ({ kind := .fast } : FoldReg).kind = .fast := by decide +kernel

/-- The edge unit of row 3 runs the record of img2, its lane FIFO holding a word or not. -/
def edged (l : List QWord) : State := (gridded img2 { started := true } id).modReg 0 (fun g => { g with edges := [(3, { bank := false, stopped := false, lane := l })] })

theorem witness_EdgeSteps : ((edged [{ w := { payload := 0, kind := 4 } }]).reg 0).laneMarker 3 = true ∧ ((edged []).reg 0).laneMarker 3 = false ∧
    ((gridded img2 idle id).reg 0).laneMarker 3 = false ∧ ((edged []).reg 0).bankA.state = 2 ∧ ((edged []).reg 0).bankA.voidTo = none ∧ ((edged []).reg 0).bankA.stopped = false ∧
    ((gridded img2 idle id).reg 0).edgeNext 3 = some false ∧ ∃ c, ((edged []).reg 0).edgeNext 3 = none ∧ (((edged []).reg 0).edge 3).stopped = false ∧
    (((edged []).reg 0).bank (((edged []).reg 0).edge 3).bank).img = some img2 ∧ img2.edgeRec 3 = some c ∧ ((edged []).reg 0).edgeTry (((edged []).reg 0).edge 3).bank 3 img2 c = none ∧
    ((edged [{ w := { payload := 5 } }]).reg 0).edgeNext 3 = none ∧
    ∃ d, ((edged [{ w := { payload := 5 } }]).reg 0).edgeTry (((edged [{ w := { payload := 5 } }]).reg 0).edge 3).bank 3 img2 c = some d ∧ d.poison = false ∧ d.refused = false ∧ d.full = false :=
  ⟨by decide, by decide, by decide, by decide, by decide, by decide, by decide, _, by decide, by decide, by decide, rfl, by decide, by decide, _, rfl, by decide, by decide, by decide⟩

/-- The only island of a block of one round has completed. -/
theorem witness_LastRoundComputed : ∃ g, g = (gridded img1 { started := true, complete := true } (fun b => { b with computing := 1 })).reg 0 ∧ (g.bank false).img = some img1 ∧
    (g.bank false).state = 2 ∧ (g.bank false).voidTo = none ∧ g.fencePasses false img1 = false ∧ g.lastComputed false img1 = true :=
  ⟨_, rfl, by decide, by decide, by decide, by decide, by decide⟩

theorem witness_FencePasses : ∃ g, g = (gridded img1 { started := true, fence := some 0 } id).reg 0 ∧ (g.bank false).img = some img1 ∧ (g.bank false).state = 2 ∧
    (g.bank false).voidTo = none ∧ g.fencePasses false img1 = true := ⟨_, rfl, by decide, by decide, by decide, by decide⟩

theorem witness_RoundCommits : ∃ g, g = (gridded img1 { started := true } (fun b => { b with committing := some 1, computing := 2 })).reg 0 ∧ (g.bank false).img = some img1 ∧
    (g.bank false).committing = some 1 ∧ ((g.bank false).bound.all (g.streamSettled false 1)) = true ∧ ((g.bank false).hold 1).stores = [] ∧ ((g.bank false).hold 1).stored = [] ∧
    g.chanDue false 1 (g.bank false).bound = none ∧ img1.lastRound ≤ 1 := ⟨_, rfl, by decide, by decide, by decide, by decide, by decide, by decide, by decide⟩

theorem witness_RoundReplays : ∃ s, s = gridded img1 { started := true } (fun b => { b with voidTo := some 0, voids := [.answer 5, .service, .remap] }) ∧ ((s.reg 0).bank false).voidTo ≠ none ∧
    ∀ w ∈ ((s.reg 0).bank false).voids, s.waitOver 0 w = true := ⟨_, rfl, by decide, by decide⟩

theorem witness_BankDrains : ∃ g, g = (gridded img1 { started := true, complete := true } (fun b => { b with state := 3, computing := 2 })).reg 0 ∧ (g.bank false).img = some img1 ∧
    (g.bank false).state = 3 ∧ (g.bank false).voidTo = none ∧ (g.bank false).stopped = false ∧ g.drained false img1 = true :=
  ⟨_, rfl, by decide, by decide, by decide, by decide, by decide⟩

/-! ### Launches, replays and host queues -/

/-- A graph object at VA 0x8000 with one die graph at 0x8100 of one stage of width 1, a parameter block of 64 bytes at 0x8180 and no channels
(R41, R153, R154). -/
def graph : List Byte :=
  toBytes 4 0x59474F42 ++ toBytes 2 1 ++ [1, 0] ++ toBytes 2 1 ++ List.replicate 6 0 ++ toBytes 8 0x8180 ++ toBytes 4 64 ++ toBytes 4 0 ++ toBytes 8 0 ++ List.replicate 24 0 ++
    toBytes 8 0x8100 ++ List.replicate (0x100 - 0x48) 0 ++
    toBytes 4 0x59444752 ++ toBytes 2 1 ++ [0, 0] ++ toBytes 2 1 ++ toBytes 2 1 ++ List.replicate 52 0 ++
    toBytes 2 0 ++ [0, 1] ++ toBytes 4 0 ++ toBytes 8 0x4000 ++ toBytes 8 0x10000 ++ toBytes 8 0 ++ List.replicate 32 0 ++ [5]

/-- g1 names a graph object and g2 a frame. -/
def launching (f : Part → Part) : State := partly f (regs [(1, 0x8000), (2, 0x9000), (3, 0x8010), (4, 0x9020)])
/-- Sixteen entries wait on device queue 3. -/
def full : Part → Part := fun v => { v with replays := (List.range 16).map (fun i => { num := i + 1, src := .device 3, prio := 3, graph := 0, frame := 0 }) }

theorem witness_LaunchAccepts : (launching id).seq.kr 0 = true ∧ (launching id).held 0 = false ∧
    Claims.Sum ((launching id).seq.gr 1) (0 : BitVec 32).toInt 0x8000 ∧ Claims.Sum ((launching id).seq.gr 2) (0 : BitVec 32).toInt 0x9000 ∧ 0x8000 % 256 = 0 ∧ 0x9000 % 64 = 0 ∧
    ∃ s1 v s2, (launching id).launchReach ((launching id).seqWho 0) 0x8000 0x9000 = (s1, .ok ()) ∧ s1.part? 0 = some v ∧ v.deviceFull 3 = false ∧
      s1.writeAccepted ((launching id).seqWho 0) 0x9000 v.counter = (s2, .ok ()) :=
  ⟨by decide, by decide, by unfold Claims.Sum; decide, by unfold Claims.Sum; decide, by decide, by decide, _, _, _, pair _ _ (by decide +kernel), rfl, by decide +kernel, pair _ _ (by decide +kernel)⟩

theorem witness_LaunchTraps : Claims.canTrap (launching full).seq ∧ ((launching id).seq.gr 3).toNat % 256 ≠ 0 ∧ ((launching id).seq.gr 4).toNat % 64 ≠ 0 ∧
    ∃ s1 v, (launching full).launchReach ((launching full).seqWho 0) 0x8000 0x9000 = (s1, .ok ()) ∧ s1.part? 0 = some v ∧ v.deviceFull 3 = true :=
  ⟨by unfold Claims.canTrap; decide, by decide, by decide, _, _, pair _ _ (by decide +kernel), rfl, by decide +kernel⟩

/-- A replay that was accepted and has not begun. -/
def accepted : Replay := { num := 1, src := .host 0, prio := 0, graph := 0x8000, frame := 0x9000 }
/-- Partition 0 holds it, and its graph object lies in memory. -/
def beginning : State := (partly (fun v => { v with replays := [accepted] }) (base [])).modMem (fun m => m.writeN 0x208000 graph)

theorem witness_ReplayBegins : ∃ v, beginning.part? 0 = some v ∧ v.state = .ready ∧ v.suspending = none ∧ v.replays.find? (fun x => x.num == 1) = some accepted ∧ v.mayBegin accepted = true ∧
    (∀ x ∈ v.replays, x.begun = true → x.frame ≠ accepted.frame) ∧
    ∃ s1 z snap, beginning.readGraph 0 v accepted = (s1, .ok (z, snap)) ∧ z.chcount = 0 ∧ snap.take 1 = [5] ∧ ∃ s2, s1.writeBegin 0 z snap = (s2, .ok ()) :=
  ⟨_, rfl, rfl, rfl, by decide, by decide, by decide, _, { accepted with begun := true, psize := 64, dgs := [{ die := 0, stages := [{ index := 0, number := 0, width := 1, entry := 0x4000, save := 0x10000 }] }] },
    5 :: List.replicate 63 0, pair _ _ (by decide +kernel), rfl, rfl, _, pair _ _ (by decide +kernel)⟩

/-- A replay whose only die graph has finished. -/
def finished : State := partly (fun v => { v with replays := [{ accepted with begun := true, dgs := [{ die := 0, stages := [], place := .finished }] }] }) (base [])

theorem witness_ReplayEnds : ∃ v y, finished.part? 0 = some v ∧ v.still = false ∧ v.replays.find? (fun x => x.num == 1) = some y ∧ y.aborting = none ∧ y.begun = true ∧
    y.dgs ≠ [] ∧ (∀ d ∈ y.dgs, d.place = .finished) ∧
    ∃ s1 s2 s3, (finished.modReplay 0 1 (fun x => { x with tend := some (y.tend.getD finished.tick) })).writeNum { part := 0, region := none, unit := 0xFC } 0x9018 8
        (y.tend.getD finished.tick) = (s1, .ok ()) ∧
      s1.writeNum { part := 0, region := none, unit := 0xFC } 0x9004 4 0 = (s2, .ok ()) ∧ s2.writeNum { part := 0, region := none, unit := 0xFC } 0x9000 4 2 = (s3, .ok ()) :=
  ⟨_, _, rfl, rfl, rfl, rfl, rfl, by decide, by decide, _, _, _, pair _ _ (by decide +kernel), pair _ _ (by decide +kernel), pair _ _ (by decide +kernel)⟩

/-- The same with its frame in a page that stage 2 does not map: the write of tend is held. -/
theorem witness_ReplayEnds_held : ∃ s1, ((partly (fun v => { v with replays := v.replays.map (fun y => { y with frame := 0x400000 }) }) finished).modReplay 0 1
    (fun x => { x with tend := some 0 })).writeNum { part := 0, region := none, unit := 0xFC } 0x400018 8 0 = (s1, .held) := ⟨_, pair _ _ (by decide +kernel)⟩

/-- The extent under the queue: the 2 MiB frame of the set-up. -/
def extent : Xlate :=
  { part := 0, va := 0, size := 0x200000, pa := 0x200000, write := true, exec := true, write2 := true, exec2 := true, rep := false, key := 0, home := 0, gpa := 0, fine := false, leaf := 0 }
/-- Queue 2 at VA 0x6000, one packet ahead. -/
def hq : HQueue := { va := 0x6000, log2 := 12, prio := 1, cons := 4, regCons := 0, prod := 5, extents := [extent] }
/-- Partition 0 with the queue, and bytes at physical addresses. -/
def queued (h : HQueue) (f : Part → Part) (l : List (Nat × List Byte)) : State :=
  (partly (fun v => f { v with queues := [(2, h)] }) (base [])).modMem (fun m => l.foldl (fun x e => x.writeN e.1 e.2) m)
/-- A packet of a type with flags and the bytes from 8 on. -/
def packet (ty flags : Nat) (bs : List Byte) : List Byte := (toBytes 1 ty ++ toBytes 1 flags ++ List.replicate 6 0 ++ bs ++ List.replicate 56 0).take 64
/-- It stands at cons 4. -/
def before (h : HQueue) (f : Part → Part) (p : List Byte) (l : List (Nat × List Byte)) : State := queued h f ((0x206140, p) :: l)
/-- The partition as `queued` leaves it. -/
def qpart (h : HQueue) (f : Part → Part) : Part := f { setupPart with queues := [(2, h)] }

/-- What lies under the header of a queue of `queued`, in a state with the same partition and package. -/
theorem header_lies (s : State) (h : HQueue) (v : Part) (hv : s.part? 0 = some v) (hk : s.pkg = State.reset.pkg) (ha : h.va = 0x6000) (hx : h.extents = [extent])
    (hw : v.windows = []) (hf : v.faults = []) : Claims.HeaderLies s 0 h 0x206000 := by
  refine ⟨extent, v, hv, ?_, by rw [ha]; rfl, rfl, rfl, rfl, by rw [hk]; rfl, by simp [inWindow, hw], fun o _ => ?_, fun o n ho => ?_⟩
  · intro o ho
    rw [hx, ha]
    have h2 : 0x6000 + o < 0x200000 := by omega
    simp [findXlate, extent, h2]
  · simp [State.faultAt, hv, hf]
  · have e1 : (0x206000 + o) / 2 ^ 37 = 0 := by omega
    have e2 : (0x206000 + o) / 2 ^ 36 = 0 := by omega
    have e3 : (0x206000 + o) < 2 ^ 39 := by omega
    have e4 : ¬ hostBase ≤ 0x206000 + o := by unfold hostBase; omega
    simp only [State.physFault, State.poisoned, isHost, State.populated, State.presentDie, hk, e1, e2, e3, e4]
    rfl

/-- The same, from what the kernel can decide. -/
theorem header_stays (s : State) (h : HQueue) (hd : ((s.part? 0).any (fun v => v.windows.isEmpty && v.faults.isEmpty) && decide (s.pkg = State.reset.pkg)) = true)
    (ha : h.va = 0x6000) (hx : h.extents = [extent]) : Claims.HeaderLies s 0 h 0x206000 := by
  simp only [Bool.and_eq_true, Option.any_eq_true, List.isEmpty_iff, decide_eq_true_eq] at hd
  obtain ⟨⟨v, hv, hw, hf⟩, hk⟩ := hd
  exact header_lies s h v hv hk ha hx hw hf

/-- The same for the queue of `queued` itself. -/
theorem at_header (h : HQueue) (f : Part → Part) (l : List (Nat × List Byte)) (ha : h.va = 0x6000) (hx : h.extents = [extent])
    (hw : (qpart h f).windows = []) (hf : (qpart h f).faults = []) : Claims.HeaderLies (queued h f l) 0 h 0x206000 :=
  header_lies _ h (qpart h f) rfl rfl ha hx hw hf

theorem witness_HeaderRead : Claims.HeaderLies (queued hq id [(0x206000, header 64 4 0)]) 0 hq 0x206000 ∧ Claims.HeaderLies (queued hq id [(0x206000, header 69 4 0)]) 0 hq 0x206000 ∧
    (∃ s1, (queued hq id [(0x206000, header 64 4 0)]).queueRead 0 hq hq.va 64 = (s1, .ok (header 64 4 0))) ∧
    (hq.prod ≤ ofBytes ((header 64 4 0).take 8) ∧ hq.cons ≤ ofBytes ((header 64 4 0).take 8) ∧ ofBytes ((header 64 4 0).take 8) - hq.cons ≤ 2 ^ hq.log2 / 64 ∧
      ofBytes (((header 64 4 0).drop 0x10).take 4) = hq.log2) ∧
    (∃ s1, (queued hq id [(0x206000, header 69 4 0)]).queueRead 0 hq hq.va 64 = (s1, .ok (header 69 4 0))) ∧ ¬ ofBytes ((header 69 4 0).take 8) - hq.cons ≤ 2 ^ hq.log2 / 64 :=
  ⟨at_header _ _ _ rfl rfl rfl rfl, at_header _ _ _ rfl rfl rfl rfl, ⟨_, pair _ _ (by decide +kernel)⟩, by decide, ⟨_, pair _ _ (by decide +kernel)⟩, by decide⟩

/-- The CFW queue at host physical address 0x1000, with a header. -/
def cfwq : CfwQueue := { pa := 0x1000, log2 := 12, cons := 4, prod := 5 }
/-- The state with it, after boot, and bytes at host physical addresses. -/
def cfwAt (l : List (Nat × List Byte)) : State :=
  ((base []).modPkg (fun k => { k with cfw := some cfwq, boot := 6 })).modMem (fun m => l.foldl (fun x e => x.writeN (0x080000000000 + e.1) e.2) m)

theorem witness_CfwHeaderRead : (cfwAt [(0x1000, header 68 4 0)]).pkg.cfw = some cfwq ∧ cfwq.stopped = false ∧ cfwq.pa + 64 ≤ 2 ^ 46 ∧ (cfwAt [(0x1000, header 68 4 0)]).pkg.denied = [] ∧
    Claims.number (cfwAt [(0x1000, header 68 4 0)]).mem (0x080000000000 + cfwq.pa) 8 = 68 ∧ Claims.number (cfwAt [(0x1000, header 69 4 0)]).mem (0x080000000000 + cfwq.pa) 8 = 69 ∧
    Claims.number (cfwAt [(0x1000, header 68 4 0)]).mem (0x080000000000 + cfwq.pa + 0x10) 4 = cfwq.log2 := by decide +kernel

theorem witness_CfwqRegisters : (0x3FFFFFFFFFC0 : Word).toNat + 64 ≤ 2 ^ 46 ∧ Claims.number (cfwAt [(0x1000, header 68 4 0)]).mem 0x080000001010 4 = 12 ∧
    (4, true) ∈ ((cfwAt []).modPkg (fun k => { k with measured := [(4, true)] })).pkg.measured ∧
    ((cfwAt []).modPkg (fun k => { k with denied := [(0x1000, 64)] })).hostRefuses (0x1000 + 0x18) 4 = true := by decide +kernel

/-- A packet of 64 bytes stands before queue 2. -/
theorem at_packet (f : Part → Part) (p : List Byte) (l : List (Nat × List Byte)) (s1 : State) (hp : packetOk p = true)
    (hr : (before hq f p l).queueRead 0 hq (hq.va + 0x40 + 64 * (hq.cons % (2 ^ hq.log2 / 64))) 64 = (s1, .ok p)) (hs : (qpart hq f).state = .ready)
    (hu : (qpart hq f).suspending = none) (hq' : spFind (qpart hq f).queues 2 = some hq) (hw : (qpart hq f).windows = []) (hf : (qpart hq f).faults = []) :
    Claims.AtPacket (before hq f p l) s1 0 2 (qpart hq f) hq p 0x206000 :=
  ⟨by decide, by decide, rfl, hq', hs, hu, rfl, rfl, rfl, by decide, hr, hp, at_header _ _ _ rfl rfl hw hf⟩

theorem witness_PacketsParsed : (∃ s1, Claims.AtPacket (before hq id (packet 0 0 []) []) s1 0 2 (qpart hq id) hq (packet 0 0 []) 0x206000) ∧
    (∃ s1, Claims.AtPacket (before hq id (packet 5 1 (toBytes 8 0x4000 ++ toBytes 8 0x5000 ++ toBytes 8 64 ++ toBytes 8 0)) []) s1 0 2 (qpart hq id) hq
      (packet 5 1 (toBytes 8 0x4000 ++ toBytes 8 0x5000 ++ toBytes 8 64 ++ toBytes 8 0)) 0x206000) ∧
    (∃ s1, Claims.AtPacket (before hq id (packet 6 6 (toBytes 8 0x4000 ++ toBytes 8 9 ++ toBytes 2 2047)) []) s1 0 2 (qpart hq id) hq
      (packet 6 6 (toBytes 8 0x4000 ++ toBytes 8 9 ++ toBytes 2 2047)) 0x206000) :=
  ⟨⟨_, at_packet _ _ _ _ (by decide) (pair _ _ (by decide +kernel)) rfl rfl rfl rfl rfl⟩, ⟨_, at_packet _ _ _ _ (by decide) (pair _ _ (by decide +kernel)) rfl rfl rfl rfl rfl⟩,
    ⟨_, at_packet _ _ _ _ (by decide) (pair _ _ (by decide +kernel)) rfl rfl rfl rfl rfl⟩⟩

theorem witness_MalformedStops : packetOk (packet 9 0 []) = false ∧ Claims.HeaderLies (before hq id (packet 9 0 []) []) 0 hq 0x206000 ∧
    (∃ s1, (before hq id (packet 9 0 []) []).queueRead 0 hq (hq.va + 0x40 + 64 * (hq.cons % (2 ^ hq.log2 / 64))) 64 = (s1, .ok (packet 9 0 []))) ∧ hq.cons < hq.prod :=
  ⟨by decide, at_header _ _ _ rfl rfl rfl rfl, ⟨_, pair _ _ (by decide +kernel)⟩, by decide⟩

/-- A LAUNCH of the graph object at 0x8000 with the frame at 0x9000. -/
def launchPkt : List Byte := packet 1 0 (toBytes 8 0x8000 ++ toBytes 8 0x9000)

theorem witness_LaunchParsed : ∃ s1, Claims.AtPacket (before hq id launchPkt []) s1 0 2 (qpart hq id) hq launchPkt 0x206000 ∧ launchPkt.getD 0 0 = 1 ∧
    ∃ s2, s1.writeAccepted { part := 0, region := none, unit := 0xFD } 0x9000 1 = (s2, .ok ()) ∧ Claims.HeaderLies s2 0 hq 0x206000 :=
  ⟨_, at_packet _ _ _ _ (by decide) (pair _ _ (by decide +kernel)) rfl rfl rfl rfl rfl, by decide, _, pair _ _ (by decide +kernel), header_stays _ _ (by decide +kernel) rfl rfl⟩

/-- A GATE of one entry at 0xA000 with a timeout of 1 µs, and its table. -/
def gatePkt : List Byte := packet 2 0 (toBytes 8 0xA000 ++ [1, 0, 0, 0] ++ toBytes 4 1)
def gateTable : List Byte := toBytes 8 0xB000 ++ toBytes 8 7 ++ [1, 0, 0, 0, 0, 0, 0, 0]

theorem witness_GateWaits : ∃ s1, Claims.AtPacket (before hq id gatePkt [(0x20A000, gateTable)]) s1 0 2 (qpart hq id) hq gatePkt 0x206000 ∧
    ∃ s2, s1.readLong { part := 0, region := none, unit := 0xFD } 16 0xA000 24 = (s2, .ok gateTable) ∧ gateEntryOk gateTable = true :=
  ⟨_, at_packet _ _ _ _ (by decide) (pair _ _ (by decide +kernel)) rfl rfl rfl rfl rfl, _, pair _ _ (by decide +kernel), by decide⟩

/-- The queue that waits at the gate, and the counter at 0xB000. -/
def gated : HQueue := { hq with wait := .gate 4 [(0xB000, 7, 1)] 1 0 }

theorem witness_GateEnds : Claims.HeaderLies (queued gated id [(0x20B000, [7])]) 0 gated 0x206000 ∧ spFind (qpart gated id).queues 2 = some gated ∧
    (∃ s1, (queued gated id [(0x20B000, [7])]).gateTrue 0 [(0xB000, 7, 1)] = (s1, .ok true)) ∧ (∃ s1, (queued gated id [(0x20B000, [8])]).gateTrue 0 [(0xB000, 7, 1)] = (s1, .ok false)) ∧
    gated.stopped = false ∧ gated.cons = 4 ∧ gated.gatedone ≠ 4 + 1 ∧ ¬(1 ≠ 0 ∧ 1000 * 1 ≤ (queued gated id []).tick - 0) ∧
    1000 * 1 ≤ ({ queued gated id [] with tick := 1000 } : State).tick - 0 :=
  ⟨at_header _ _ _ rfl rfl rfl rfl, rfl, ⟨_, pair _ _ (by decide +kernel)⟩, ⟨_, pair _ _ (by decide +kernel)⟩, rfl, rfl, by decide, by decide, by decide⟩

/-- An inline PATCH of 8 bytes at offset 56 of the parameter block. -/
def patchPkt : List Byte := packet 3 0 (toBytes 8 0x8000 ++ toBytes 4 56 ++ toBytes 4 8 ++ toBytes 8 77)

/-- The header of a graph object whose parameter block stands in a page that stage 2 does not map. -/
def farGraph : List Byte := graph.take 16 ++ toBytes 8 0x400000 ++ (graph.take 64).drop 24

theorem witness_PatchInval : (∃ s1, Claims.AtPacket (before hq id patchPkt [(0x208000, graph)]) s1 0 2 (qpart hq id) hq patchPkt 0x206000 ∧ patchPkt.getD 0 0 = 3 ∧
      ∃ s2, s1.readVA { part := 0, region := none, unit := 0xFD } 0x8000 64 = (s2, .ok (graph.take 64)) ∧ 56 + 8 ≤ ofBytes (((graph.take 64).drop 0x18).take 4) ∧
        ∃ s4, s2.writeWhole { part := 0, region := none, unit := 0xFD } (0x8180 + 56) (toBytes 8 77) = (s4, .ok ()) ∧ Claims.HeaderLies s4 0 hq 0x206000) ∧
    (∃ s1, Claims.AtPacket (before hq id patchPkt [(0x208000, farGraph)]) s1 0 2 (qpart hq id) hq patchPkt 0x206000 ∧
      ∃ s2, s1.readVA { part := 0, region := none, unit := 0xFD } 0x8000 64 = (s2, .ok farGraph) ∧ 56 + 8 ≤ ofBytes ((farGraph.drop 0x18).take 4) ∧
        ∃ s4, s2.canWrite { part := 0, region := none, unit := 0xFD } ((toBytes 8 77).length / 4096 + 2) (0x400000 + 56) (toBytes 8 77).length = (s4, .held)) ∧
    (∃ s1, Claims.AtPacket (before hq id (packet 4 0 (toBytes 8 0x1000 ++ toBytes 4 1)) []) s1 0 2 (qpart hq id) hq (packet 4 0 (toBytes 8 0x1000 ++ toBytes 4 1)) 0x206000) ∧
    (qpart hq id).invq = [] :=
  ⟨⟨_, at_packet _ _ _ _ (by decide) (pair _ _ (by decide +kernel)) rfl rfl rfl rfl rfl, by decide, _, pair _ _ (by decide +kernel), by decide, _, pair _ _ (by decide +kernel), header_stays _ _ (by decide +kernel) rfl rfl⟩,
    ⟨_, at_packet _ _ _ _ (by decide) (pair _ _ (by decide +kernel)) rfl rfl rfl rfl rfl, _, pair _ _ (by decide +kernel), by decide, _, pair _ _ (by decide +kernel)⟩,
    ⟨_, at_packet _ _ _ _ (by decide) (pair _ _ (by decide +kernel)) rfl rfl rfl rfl rfl⟩, rfl⟩

/-- Queue 2 waits for its INVAL, which stands at the head. -/
def invalWaits : State := queued { hq with wait := .inval 4 } (fun v => { v with invq := [.inval 2 0x1000 0x2000] }) []

theorem witness_InvalTurn : ∃ v h, invalWaits.part? 0 = some v ∧ spFind v.queues 2 = some h ∧ v.state = .ready ∧ v.suspending = none ∧ h.stopped = false ∧ h.wait = .inval 4 ∧
    v.invq = .inval 2 0x1000 0x2000 :: [] := ⟨_, _, rfl, rfl, rfl, rfl, rfl, rfl, rfl⟩

/-- A SIGNAL that adds 3 to the counter at 0xB000 at once, with interrupt 2,047. -/
def signalPkt : List Byte := packet 6 5 (toBytes 8 0xB000 ++ toBytes 8 3 ++ toBytes 2 2047)
/-- The queue waits with the same signal for replays that are over. -/
def signalling : HQueue := { hq with wait := .signal 4 0xB000 3 true (some 2047) [9] }

theorem witness_SignalPerformed : (∀ e ∈ (before hq id signalPkt []).parts, ∀ j ∈ e.2.jobs, j.wait = true ∨ j.ctr = 0) ∧
    (∃ s1, Claims.AtPacket (before hq id signalPkt []) s1 0 2 (qpart hq id) hq signalPkt 0x206000 ∧
      ∃ s2, s1.updateCounter 0 0xB000 3 true = (s2, .ok ()) ∧ Claims.HeaderLies s2 0 hq 0x206000) ∧
    (∃ s2, (queued signalling id []).updateCounter 0 0xB000 3 true = (s2, .ok ()) ∧ Claims.HeaderLies s2 0 signalling 0x206000) ∧ (∀ y ∈ (qpart signalling id).replays, y.num ∉ [9]) ∧
    spFind (qpart signalling id).queues 2 = some signalling :=
  ⟨by decide, ⟨_, at_packet _ _ _ _ (by decide) (pair _ _ (by decide +kernel)) rfl rfl rfl rfl rfl, _, pair _ _ (by decide +kernel), header_stays _ _ (by decide +kernel) rfl rfl⟩, ⟨_, pair _ _ (by decide +kernel), header_stays _ _ (by decide +kernel) rfl rfl⟩,
    by decide, rfl⟩

/-- A copy of two sectors by queue 2, that its packet waits for. -/
def hjob (done : List Nat) : HJob := { num := 8, queue := 2, idx := 4, src := 0x4000, dst := 0x5010, len := 40, ctr := 0xB000, wait := true, done := done }

theorem witness_HcopyMoves : (hjob []).sectors = 2 ∧ ∃ v, v = qpart { hq with wait := .hcopy 4 } (fun v => { v with jobs := [hjob []] }) ∧
    (queued { hq with wait := .hcopy 4 } (fun v => { v with jobs := [hjob []] }) []).part? 0 = some v ∧ v.jobs.find? (fun j => j.queue == 2) = some (hjob []) ∧ 1 < (hjob []).sectors ∧
    (∃ s1 bs, (queued { hq with wait := .hcopy 4 } (fun v => { v with jobs := [hjob []] }) []).readVA { part := 0, region := none, unit := 0xFD } (0x4000 + ((hjob []).lo 1 - 0x5010)) ((hjob []).hi 1 - (hjob []).lo 1) = (s1, .ok bs) ∧
      ∃ s2, s1.writeVA { part := 0, region := none, unit := 0xFD } ((hjob []).lo 1) bs = (s2, .ok ())) ∧
    (hjob [0, 1]).done.length = (hjob [0, 1]).sectors ∧ hq.stopped = false ∧
    ∃ s2, (queued { hq with wait := .hcopy 4 } (fun v => { v with jobs := [hjob [0, 1]] }) []).updateCounter 0 0xB000 1 true = (s2, .ok ()) ∧
      (queued { hq with wait := .hcopy 4 } (fun v => { v with jobs := [hjob [0, 1]] }) []).updatesDone 0 = true :=
  ⟨by decide, _, rfl, rfl, by decide, by decide, ⟨_, List.replicate 24 0, pair _ _ (by decide +kernel), _, pair _ _ (by decide +kernel)⟩, by decide, rfl, _, pair _ _ (by decide +kernel), by decide⟩

/-! ### The scheduler, pre-emption, resets -/

/-- Two partitions share set 0; partition 0 owns the slice, and partition 1 has a runnable die graph on die 0. -/
def shared (tick : Nat) : State :=
  { State.reset with
    tick := tick, sets := [(0, { members := [0, 1], period := 2, owner := 0, regions := 3 })]
    parts := [(0, { setupPart with regions := 3 }), (1, { setupPart with regions := 3, replays := [{ accepted with begun := true, dgs := [{ die := 0, stages := [{ index := 0, number := 0, width := 1, entry := 0, save := 0 }] }] }] })] }

theorem witness_GangTickOwner : ∃ t, spFind (shared 2000).sets 0 = some t ∧ t.last < (shared 2000).tick / (1000 * t.period) ∧ ((t.after.find? (fun p => ((shared 2000).part? p).any Part.hasWork)) = some 1) :=
  ⟨_, rfl, by decide, by decide⟩

/-- The same when the slice is partition 1's. -/
def owned : State := { shared 1999 with sets := [(0, { members := [0, 1], period := 2, owner := 1, regions := 3 })] }

theorem witness_SchedulerPlaces : ∃ t v, spFind owned.sets 0 = some t ∧ t.owner = 1 ∧ t.live = [] ∧ owned.tick / (1000 * t.period) ≤ t.last ∧ owned.part? 1 = some v ∧ v.state = .ready ∧ v.suspending = none ∧
    (∀ e ∈ v.dieGraphs, e.2.2.isSaved = false) ∧ (owned.chooseDg t 1 v).isSome = true ∧ owned.freeRegions v 0 = [0, 1] :=
  ⟨_, _, rfl, rfl, rfl, by decide, rfl, rfl, rfl, by decide, by decide +kernel, by decide +kernel⟩

/-- Region 0 has ended its stage. -/
def ended (f : DieGraph → DieGraph) (g : Region → Region) : State :=
  ((partly (fun v => { v with replays := [{ replay1 with dgs := replay1.dgs.map f }], regions := 3 }) (base [])).setReg 0
    (g { place := some (place1 0), seq := { run := .ended } })).setReg 1 { place := some (place1 1) }

theorem witness_RegionCompletes : (∃ pl v d, ((ended id id).reg 0).place = some pl ∧ (ended id id).part? pl.part = some v ∧ (ended id id).partComplete 0 = true ∧ ((ended id id).reg 0).chans = [] ∧
      (ended id id).dg? pl.part pl.replay pl.dg = some d ∧ d.place = .placed) ∧
    ∃ d, (ended (fun d => { d with place := .saving 5 }) id).dg? 0 1 0 = some d ∧ d.place = .saving 5 :=
  ⟨⟨_, _, _, rfl, rfl, by decide +kernel, rfl, rfl, rfl⟩, _, rfl, rfl⟩

theorem witness_MarkerArrives : ∃ pl d, (ended (fun d => { d with place := .saving 5 }) id).dgAt 0 = some (pl, d) ∧ d.place = .saving 5 := ⟨_, _, rfl, rfl⟩

/-- The marker has reached region 0, whose save area lies in the vat slices of regions 0 to 3. -/
def marked : State := partly (fun v => { v with regions := 15 }) (ended (fun d => { d with place := .saving 5 }) (fun g => { g with marker := true, place := some { place1 0 with save := 0xFF1000000000 } }))

/-- A record is written once the pages of an aligned save area have been reached. -/
theorem record_written (s : State) (w : Who) (va : Nat) (l : List Host.Cell) (h : va % 4096 = 0)
    (hp : (match (s.recordPages w .write 2048 va).2 with | .ok _ => true | _ => false) = true) : (s.writeRecord w va l).2 = .ok () := by
  have e : s.recordPages w .write (recordPieces + (if va % 4096 = 0 then 0 else 1)) (va - va % 4096) = s.recordPages w .write 2048 va := by
    rw [if_pos h, h]; rfl
  simp only [State.writeRecord]
  rw [e]
  rcases hx : s.recordPages w .write 2048 va with ⟨s1, ps | ⟨c, a⟩ | _⟩
  · rfl
  · rw [hx] at hp; simp at hp
  · rw [hx] at hp; simp at hp

theorem witness_RegionSaved : ∃ pl d, marked.dgAt 0 = some (pl, d) ∧ d.place = .saving 5 ∧ (marked.endWaits 0).saveReady = true ∧ marked.setOf 0 = some 0 ∧
    ∀ cells, ∃ s1, marked.writeRecord (recordWho pl.part 0) (pl.save + pl.lane * 0x800000) cells = (s1, .ok ()) :=
  ⟨{ place1 0 with save := 0xFF1000000000 }, _, rfl, rfl, by decide, by decide,
    fun cells => ⟨_, pair _ _ (record_written _ _ _ cells (by decide) (by decide +kernel))⟩⟩

theorem witness_SaveDeadlinePasses : ∃ v d, (ended (fun d => { d with place := .saving 5 }) id).part? 0 = some v ∧ (ended (fun d => { d with place := .saving 5 }) id).dg? 0 1 0 = some d ∧ d.place = .saving 5 ∧
    d.forSuspend = false ∧ 200000 < ({ ended (fun d => { d with place := .saving 5 }) id with tick := 200006 } : State).tick - 5 ∧
    ({ ended (fun d => { d with place := .saving 5 }) id with tick := 200005 } : State).tick - 5 ≤ 200000 := ⟨_, _, rfl, rfl, rfl, rfl, by decide, by decide⟩

theorem witness_PartitionResets : ∃ v q, (partly (fun v => { v with reset := some { cause := 6, delivered := 8, region := 0, resume := 0, first := 0, fva := 0 }, state := .resetting }) (ended id id)).part? 0 = some v ∧
    v.reset = some q ∧ q.detour = true ∧ (ended id id).owner 0 = some 0 ∧ (ended id id).owner 2 ≠ some 0 ∧ ∀ e ∈ v.dieGraphs, ∀ l ∈ e.2.2.saved, l.region ≠ 0 :=
  ⟨_, _, rfl, rfl, rfl, by decide, by decide, by decide⟩

/-- The same partition with a lane that was saved from region 2; `l` says which sets there are. -/
def resetSaved (l : Sparse RSet) : State :=
  { partly (fun v => { v with reset := some { cause := 6, delivered := 8, region := 0, resume := 0, first := 0, fva := 0 }, replays := [{ replay1 with dgs := [
      { die := 0, stages := [], place := .saved, saved := [{ region := 2, stage := 1, lane := 0, tick := 0, img := {}, palette := [], vat := [] }] }] }] }) (ended id id) with sets := l }

theorem witness_PartitionResets_saved : (∃ v, (resetSaved []).part? 0 = some v ∧ v.reset ≠ none ∧ ∃ e ∈ v.dieGraphs, ∃ l ∈ e.2.2.saved, l.region = 2 ∧ spWf l.img.cells = true ∧
      (∀ x ∈ v.dieGraphs, ∀ m ∈ x.2.2.saved, m.region = 2 → m = l) ∧ ((spFind (resetSaved []).sets v.set).any (fun t => t.liveOn (2 / 48) == 0)) = false) ∧
    ((spFind (resetSaved [(0, { members := [0], period := 2, owner := 0, regions := 7 })]).sets 0).any (fun t => t.liveOn (2 / 48) == 0)) = true :=
  ⟨⟨_, rfl, by decide, _, List.mem_singleton.2 rfl, _, List.mem_singleton.2 rfl, rfl, rfl, by decide, by decide⟩, by decide⟩

/-! ### The invalidation sequencer, pulls, metering -/

/-- Partition 0 with an operation at the head of its invalidation sequencer. -/
def invalidating (l : List InvOp) (st : PState) : State := partly (fun v => { v with invq := l, state := st }) (base [])

theorem witness_ReplicaCreated : (∃ v, (invalidating [.replica 0x200000 1 48 3] .ready).part? 0 = some v ∧ v.invq = .replica 0x200000 1 48 3 :: [] ∧ 0x200000 ∉ v.collapsed) ∧
    ((invalidating [] .ready).poolFrames 1).find? (fun a => !((invalidating [] .ready).pkg.replicas.any (fun x => x.pool == a))) = some (2 ^ 37 + 0x3E000000) ∧
    0x200000 + 2 ^ 21 ≤ 2 ^ 37 + 0x3E000000 ∧ (invalidating [] .ready).mem.wf = true ∧
    (∃ v, (partly (fun v => { v with collapsed := [0x200000] }) (invalidating [.replica 0x200000 1 48 3] .ready)).part? 0 = some v ∧ 0x200000 ∈ v.collapsed) ∧
    (((invalidating [] .ready).modPkg (fun k => { k with measured := [(1, false)] })).poolFrames 1).find? (fun a => !((invalidating [] .ready).pkg.replicas.any (fun x => x.pool == a))) = none :=
  ⟨⟨_, rfl, rfl, by decide⟩, by decide +kernel, by decide, by decide +kernel, ⟨_, rfl, by decide⟩, by decide +kernel⟩

theorem witness_FrameCollapses : (∃ v, (invalidating [.collapse 0x200000 (some 0x202000)] .ready).part? 0 = some v ∧ v.invq = .collapse 0x200000 (some 0x202000) :: [] ∧ v.still = false) ∧
    ∃ v, (invalidating [.collapse 0x200000 none] .suspended).part? 0 = some v ∧ v.invq = .collapse 0x200000 none :: [] ∧ v.still = true := ⟨⟨_, rfl, rfl, rfl⟩, _, rfl, rfl, rfl⟩

/-- Frame 0 of partition 0 is remote: its entry is of type 2 and names a local frame. -/
def remote (l : List InvOp) : State :=
  (partly (fun v => { v with migration := some { peer := 7, session := 99, ticket := [] } }) (invalidating l .migratingIn)).writePhys 0x400000 8 (2 * 2 ^ 62 + 0x600000 + 2 ^ 8)

/-- A pull was sent at tick 0: it may return at tick 9,999,999, and has failed at tick 10,000,000. -/
theorem witness_FramePulled : (∃ v, (remote [.pull 0 (some 0)]).part? 0 = some v ∧ v.invq = .pull 0 (some 0) :: [] ∧ v.pulling = none ∧ Claims.number (remote [.pull 0 (some 0)]).mem (v.s2 + 8 * 0) 8 / 2 ^ 62 = 2 ∧
      Claims.number (remote [.pull 0 (some 0)]).mem (v.s2 + 8 * 0) 8 / 2 ^ 21 % 2 ^ 31 * 2 ^ 21 = 0x600000 ∧ v.s2 + 8 * 0 + 8 ≤ 0x600000) ∧
    ({ remote [.pull 0 (some 0)] with tick := 9999999 } : State).tick - 0 < 10000000 ∧ 10000000 ≤ ({ remote [.pull 0 (some 0)] with tick := 10000000 } : State).tick - 0 ∧
    ∃ v m, (remote []).part? 0 = some v ∧ v.invq = [] ∧ v.state = .migratingIn ∧ v.migration = some m ∧ v.pulling = none ∧ v.forming = none ∧ (remote []).nextRemote v = some 0 :=
  ⟨⟨_, rfl, rfl, rfl, by decide +kernel, by decide +kernel, by decide⟩, by decide, by decide, _, _, rfl, rfl, rfl, rfl, rfl, rfl, by decide +kernel⟩

/-- A pull that no access asked for was sent at tick 0. -/
theorem witness_FramePulled_background : ∃ v, (partly (fun v => { v with pulling := some (0, 0) }) (remote [.pull 0 (some 0)])).part? 0 = some v ∧
    v.invq = .pull 0 (some 0) :: [] ∧ InvOp.pull 0 (some 0) ∉ ([] : List InvOp) ∧ v.pulling = some (0, 0) ∧ (v.faults.filter (fun f => f.answer == .pending)).length < 64 :=
  ⟨_, rfl, rfl, by decide, rfl, by decide⟩

/-- A migration's source with a session. -/
def sourced : State := partly (fun v => { v with state := .migratingOut, migration := some { peer := 7, session := 99, ticket := [] } }) (base [])

theorem witness_PullServed : ∃ v m, sourced.part? 0 = some v ∧ v.state = .migratingOut ∧ v.migration = some m ∧ sourced.stage2 v (0 * 2 ^ 21) = .ok 0x200000 true true 0 0 :=
  ⟨_, _, rfl, rfl, rfl, by decide +kernel⟩

theorem witness_WindowCloses : spGet 0 ({ base [] with tick := 1000000 } : State).pkg.windows 3 < ({ base [] with tick := 1000000 } : State).tick / 1000000 ∧
    (∃ u, (({ base [] with tick := 1000000 } : State).countResid 0).part? 0 = some u) := ⟨by decide, by
      have h : ((({ base [] with tick := 1000000 } : State).countResid 0).part? 0).isSome = true := by decide +kernel
      exact Option.isSome_iff_exists.1 h⟩

theorem witness_UsageRecorded : setupPart.forming = none ∧  (base []).ringDenied ({} : Meter) = false ∧ ((base []).modPkg (fun k => { k with denied := [(0, 2 ^ 46)] })).ringDenied ({} : Meter) = true ∧ ∃ v, ({ base [] with tick := 1000000000 } : State).part? 0 = some v ∧ v.meter.nextDue ≤ ({ base [] with tick := 1000000000 } : State).tick :=
  ⟨rfl, by decide, by decide, _, rfl, by decide⟩

/-! ### CFW commands -/

/-- A command packet: arguments at host physical address 0x8000, results at 0x9000, ctag 77 (R136). -/
def cfwPacket (op len extra : Nat) : List Byte :=
  toBytes 2 op ++ toBytes 2 0 ++ toBytes 4 77 ++ toBytes 8 0x8000 ++ toBytes 4 len ++ toBytes 4 0 ++ toBytes 8 0x9000 ++ toBytes 4 (64 + extra) ++ List.replicate 28 0
/-- It stands at cons 4 of the CFW queue, with its arguments and more bytes, and partition 0 changed. -/
def cfwState (op extra : Nat) (args : List Byte) (f : Part → Part) (l : List (Nat × List Byte)) : State :=
  partly f (cfwAt ((0x1140, cfwPacket op args.length extra) :: (0x8000, args) :: l))

/-- What the kernel can decide of `AtCommand`. -/
abbrev Commanded (s : State) (op len extra : Nat) : Prop :=
  s.mem.poison = [] ∧ s.pkg.cfw = some cfwq ∧ s.pkg.inProgress.length < 8 ∧ s.pkg.boot = 6 ∧ s.mem.readN 64 0x080000001140 = cfwPacket op len extra
/-- What is true of every packet. -/
abbrev PacketHolds (op len extra : Nat) : Prop :=
  let bs := cfwPacket op len extra
  Claims.field bs 0 2 = op ∧ (∀ i ∈ [2, 3, 0x14, 0x15, 0x16, 0x17], bs.getD i 0 = 0) ∧ (∀ i, 0x24 ≤ i → i < 64 → bs.getD i 0 = 0) ∧
    Claims.field bs 8 8 = 0x8000 ∧ Claims.field bs 0x10 4 = len ∧ Claims.field bs 0x18 8 = 0x9000 ∧ Claims.field bs 0x20 4 = 64 + extra ∧
    len ≤ 4096 ∧ extra ≤ 4096

theorem host_clean (s : State) (a n : Nat) (h : s.mem.poison = []) : Claims.HostClean s a n := fun x hx => by rw [h] at hx; cases hx

theorem at_command (s : State) (args : List Byte) (op len extra : Nat) (h : Claims.HostAllows s) (hd : Commanded s op len extra)
    (hp : PacketHolds op len extra) (ha : s.mem.readN len 0x080000008000 = args) :
    Claims.AtCommand s cfwq (cfwPacket op len extra) args op len extra := by
  obtain ⟨h0, h1, h2, h3, h4⟩ := hd
  obtain ⟨p1, p2, p3, p4, p5, p6, p7, p8, p9⟩ := hp
  refine ⟨h1, rfl, by decide, h2, h3, h4.symm, p1, p2, p3, by rw [p4], p5, by rw [p6], by rw [p7], by rw [p4]; omega, by rw [p6]; omega, h, host_clean s _ _ h0, by decide, ?_⟩
  rw [p4]; exact ha.symm


theorem witness_BadCommandCompletes : (cfwState 0x60 0 [] id []).pkg.cfw = some cfwq ∧ cfwq.stopped = false ∧ cfwq.started = none ∧ cfwq.cons < cfwq.prod ∧ (cfwState 0x60 0 [] id []).pkg.inProgress.length < 8 ∧
    (cfwState 0x60 0 [] id []).mem.readN 64 (0x080000000000 + cfwq.pa + 0x40 + 64 * (cfwq.cons % (2 ^ cfwq.log2 / 64))) = cfwPacket 0x60 0 0 ∧
    Claims.field (cfwPacket 0x60 0 0) 0 2 ∉ [0x01, 0x02, 0x10, 0x11, 0x20, 0x21, 0x22, 0x23, 0x24, 0x25, 0x26, 0x30, 0x31, 0x32, 0x40, 0x50, 0x51] ∧
    Claims.field (cfwPacket 0x60 0 0) 0x18 8 + 64 ≤ 2 ^ 46 ∧ cfwq.pa + 64 ≤ 2 ^ 46 := by decide +kernel

theorem witness_DeviceCommands : (Claims.AtCommand (cfwState 1 24 [] id []) cfwq (cfwPacket 1 0 24) [] 0x01 0 24) ∧
    (Claims.AtCommand (cfwState 2 512 [] id []) cfwq (cfwPacket 2 0 512) [] 0x02 0 512) ∧ (cfwState 2 512 [] id []).pkg.lastDrops.length ≤ 16 :=
  ⟨at_command _ _ _ _ _ rfl (by decide +kernel) (by decide +kernel) (by decide +kernel),
    at_command _ _ _ _ _ rfl (by decide +kernel) (by decide +kernel) (by decide +kernel), by decide⟩

/-- Arguments that name partition 0 and nothing else. -/
def naming : List Byte := List.replicate 8 0

theorem witness_ReportCommands : (∃ v, Claims.Names (cfwState 0x22 24 naming id []) naming [] 0 v) ∧ (∃ v, Claims.Names (cfwState 0x51 88 naming id []) naming [] 0 v) ∧
    (Claims.AtCommand (cfwState 0x22 24 naming id []) cfwq (cfwPacket 0x22 8 24) naming 0x22 8 24) ∧
    (Claims.AtCommand (cfwState 0x51 88 naming id []) cfwq (cfwPacket 0x51 8 88) naming 0x51 8 88) :=
  ⟨⟨_, by decide, rfl, by decide, by decide⟩, ⟨_, by decide, rfl, by decide, by decide⟩,
    at_command _ _ _ _ _ rfl (by decide +kernel) (by decide +kernel) (by decide +kernel),
    at_command _ _ _ _ _ rfl (by decide +kernel) (by decide +kernel) (by decide +kernel)⟩

/-- QUEUE.REG of queue 15 with priority 3 at VA 0x200000, which stage 2 maps to host memory with a header of one packet. -/
def regArgs : List Byte := toBytes 1 0 ++ toBytes 1 15 ++ toBytes 1 3 ++ toBytes 5 0 ++ toBytes 8 0x200000 ++ toBytes 8 0
def registering : State :=
  (cfwState 0x10 0 regArgs (fun v => { v with entries := 2, hostWin := true }) [(0x600000, header 5 4 0)]).writePhys 0x400008 8 (2 ^ 62 + 0x080000600000 + 2 ^ 8)
/-- The extent under it. -/
def hostExtent : Xlate :=
  { part := 0, va := 0x200000, size := 0x200000, pa := 0x080000600000, write := true, exec := true, write2 := true, exec2 := false, rep := false, key := 0, home := 0, gpa := 0x200000, fine := false, leaf := 0x202000 }

theorem witness_QueueCommands : (∃ v ext, (Claims.AtCommand registering cfwq (cfwPacket 0x10 24 0) regArgs 0x10 24 0) ∧
      Claims.Names registering regArgs [(1, 1), (2, 1), (8, 8)] 0 v ∧ Claims.field regArgs 1 1 = 15 ∧ Claims.field regArgs 2 1 = 3 ∧ Claims.field regArgs 8 8 = 0x200000 ∧
      spFind v.queues 15 = none ∧ 0x200000 % 4096 = 0 ∧ registering.walk v 0 0x200000 .read = .ok hostExtent ∧ inTierWindow 0x200000 = false ∧ isHost 0x080000600000 = true ∧
      registering.physFault 0x080000600000 64 .read = none ∧ Claims.number registering.mem (0x080000600000 + 0x10) 4 = 12 ∧
      Claims.number registering.mem (0x080000600000 + 8) 8 = 4 ∧ Claims.number registering.mem 0x080000600000 8 = 5 ∧
      registering.queueExtents v 0 (0x200000 + 0x40 + 2 ^ 12) 16386 0x200000 [] = .ok ext ∧ registering.watchedLines < 1024) ∧
    (∃ v h, (Claims.AtCommand (cfwState 0x11 0 (toBytes 2 0x200 ++ List.replicate 6 0) (fun v => { v with queues := [(2, hq)] }) []) cfwq (cfwPacket 0x11 8 0) (toBytes 2 0x200 ++ List.replicate 6 0) 0x11 8 0) ∧
      Claims.Names (cfwState 0x11 0 (toBytes 2 0x200 ++ List.replicate 6 0) (fun v => { v with queues := [(2, hq)] }) []) (toBytes 2 0x200 ++ List.replicate 6 0) [(1, 1)] 0 v ∧ spFind v.queues 2 = some h) :=
  ⟨⟨{ setupPart with entries := 2, hostWin := true }, [hostExtent], at_command _ _ _ _ _ rfl (by decide +kernel) (by decide +kernel) (by decide +kernel), ⟨by decide, by rfl, by decide +kernel, by decide +kernel⟩, by decide +kernel, by decide +kernel, by decide +kernel, by rfl,
      by decide, by decide +kernel, by decide, by decide, by decide +kernel, by decide +kernel, by decide +kernel, by decide +kernel, by decide +kernel, by decide +kernel⟩,
    ⟨_, hq, at_command _ _ _ _ _ rfl (by decide +kernel) (by decide +kernel) (by decide +kernel), ⟨by decide, by rfl, by decide +kernel, by decide +kernel⟩, by rfl⟩⟩

/-- Where the host refuses nothing its memory can be written. -/
theorem host_writable (s : State) (h : s.pkg.denied = []) (pa n : Nat) (h1 : hostBase ≤ pa) (h2 : pa < hostBase + 2 ^ 46) : s.physFault pa n .write = none := by
  have e : ¬ pa < 2 ^ 39 := by unfold hostBase at h1; omega
  have p : s.populated pa = true := by rw [State.populated, if_neg e]; simp only [h1, h2, decide_true, Bool.and_self, Bool.or_true, Bool.true_or]
  simp [State.physFault, State.hostRefuses, h, p]

/-- Its header can be written. -/
theorem witness_QueueCommands_header (h : HQueue) (ha : h.va = 0x200000) (hx : h.extents = [hostExtent]) :
    Claims.HeaderLies (registering.setPart 0 { setupPart with entries := 2, hostWin := true, queues := [(15, h)] }) 0 h 0x080000600000 := by
  refine ⟨hostExtent, _, rfl, fun o ho => ?_, by rw [ha]; rfl, rfl, rfl, rfl, rfl, by simp [inWindow, setupPart], fun o _ => ?_, fun o n ho => ?_⟩
  · rw [hx, ha]
    have h2 : 0x200000 + o < 0x400000 := by omega
    simp [findXlate, hostExtent, h2]
  · rfl
  · exact host_writable _ rfl _ _ (by unfold hostBase; omega) (by unfold hostBase; omega)

/-- RANK.SET of ranks 1,022 and 1,023 from entries at 0xA000, and METER.ARM of a ring of 16 records at 0x10000. -/
def rankArgs : List Byte := toBytes 2 0 ++ toBytes 2 1022 ++ toBytes 2 2 ++ toBytes 2 0 ++ toBytes 8 0xA000
def armArgs : List Byte := toBytes 4 0 ++ toBytes 4 16 ++ toBytes 8 0x10000 ++ toBytes 8 0 ++ List.replicate 32 9
/-- The next usage record is due at tick 10^9. -/
def metered (v : Part) : Part := { v with meter := { v.meter with nextDue := 1000000000 } }
def ranking : State := cfwState 0x40 0 rankArgs id [(0xA000, toBytes 8 191 ++ toBytes 8 0)]

theorem witness_TableCommands : (∃ v, (Claims.AtCommand ranking cfwq (cfwPacket 0x40 16 0) rankArgs 0x40 16 0) ∧ Claims.Names ranking rankArgs [(2, 2), (4, 2), (8, 8)] 0 v ∧
      Claims.field rankArgs 2 2 = 1022 ∧ Claims.field rankArgs 4 2 = 2 ∧ Claims.field rankArgs 8 8 = 0xA000 ∧ Claims.HostClean ranking 0xA000 16 ∧
      ∀ i, i < 2 → rankBad v.regions v.key.toNat (Claims.number ranking.mem (0x080000000000 + 0xA000 + 8 * i) 8) = none) ∧
    (∃ v, (Claims.AtCommand (cfwState 0x50 0 armArgs id []) cfwq (cfwPacket 0x50 56 0) armArgs 0x50 56 0) ∧
      Claims.Names (cfwState 0x50 0 armArgs id []) armArgs [(4, 4), (8, 8), (0x18, 32)] 0 v ∧ v.meter.nextDue ≤ (cfwState 0x50 0 armArgs id []).tick) ∧
    (∃ v, (cfwState 0x50 0 armArgs metered []).part? 0 = some v ∧ (cfwState 0x50 0 armArgs metered []).tick < v.meter.nextDue) ∧ Claims.field armArgs 4 4 = 2 ^ 4 ∧ Claims.field armArgs 8 8 % 64 = 0 :=
  ⟨⟨setupPart, at_command _ _ _ _ _ rfl (by decide +kernel) (by decide +kernel) (by decide +kernel), ⟨by decide, by rfl, by decide, by decide +kernel⟩, by decide +kernel, by decide +kernel, by decide +kernel, host_clean _ _ _ (by decide), by decide +kernel⟩,
    ⟨setupPart, at_command _ _ _ _ _ rfl (by decide +kernel) (by decide +kernel) (by decide +kernel), ⟨by decide, by rfl, by decide, by decide +kernel⟩, by decide⟩, ⟨_, rfl, by decide⟩, by decide +kernel, by decide +kernel⟩

/-- S2.UPDATE of entry 0 from 0xA000, and a pending fault of queue 2's parser with number 6 (R166, R167). -/
def s2Args : List Byte := toBytes 4 0 ++ toBytes 4 0 ++ toBytes 4 1 ++ toBytes 4 0 ++ toBytes 8 0xA000
def updating : State := cfwState 0x30 0 s2Args (fun v => { v with keys := 1 }) [(0xA000, toBytes 8 (2 ^ 62 + 0x600000 + 2 ^ 8))]
def fault6 : FaultRec := { num := 6, region := 0, unit := 0xE5, cause := 0x0E1, level := 255, access := 0, va := 0x4000, gpa := 0x4000, tick := 0 }
def answerArgs : List Byte := toBytes 4 0 ++ toBytes 4 6
def answering (op : Nat) : State := cfwState op 0 answerArgs (fun v => { v with faults := [fault6] }) []
/-- Block A of region 0 waits for the answer. -/
def awaiting : State := (answering 0x32).modReg 0 (fun g => { g with bankA := { g.bankA with voids := [.answer 6] } })

theorem witness_StageTwoCommands : (∃ v, (Claims.AtCommand updating cfwq (cfwPacket 0x30 24 0) s2Args 0x30 24 0) ∧ Claims.Names updating s2Args [(4, 4), (8, 4), (0x10, 8)] 0 v ∧
      Claims.field s2Args 4 4 = 0 ∧ Claims.field s2Args 8 4 = 1 ∧ Claims.field s2Args 0x10 8 = 0xA000 ∧ Claims.HostClean updating 0xA000 8 ∧ v.entries = 1 ∧
      updating.s2Bad 0 v false (Claims.number updating.mem (0x080000000000 + 0xA000) 8) = none ∧ v.invq = []) ∧
    (∃ v, (Claims.AtCommand (answering 0x31) cfwq (cfwPacket 0x31 8 0) answerArgs 0x31 8 0) ∧ Claims.Names (answering 0x31) answerArgs [(4, 4)] 0 v ∧
      v.faults.find? (fun f => f.num == Claims.field answerArgs 4 4 && f.answer == .pending) = some fault6) ∧
    (∃ v, (Claims.AtCommand (answering 0x32) cfwq (cfwPacket 0x32 8 0) answerArgs 0x32 8 0) ∧ Claims.Names (answering 0x32) answerArgs [(4, 4)] 0 v ∧
      v.faults.find? (fun f => f.num == Claims.field answerArgs 4 4 && f.answer == .pending) = some fault6 ∧ ((answering 0x32).reg 0).awaits 6 = false ∧ v.awaitsSaved 0 6 = []) ∧
    (∃ v, (Claims.AtCommand awaiting cfwq (cfwPacket 0x32 8 0) answerArgs 0x32 8 0) ∧ Claims.Names awaiting answerArgs [(4, 4)] 0 v ∧
      v.faults.find? (fun f => f.num == Claims.field answerArgs 4 4 && f.answer == .pending) = some fault6 ∧ awaiting.owner 0 = some 0 ∧ (awaiting.reg 0).awaits 6 = true ∧ (awaiting.reg 0).seq.pending.length < 16) :=
  ⟨⟨{ setupPart with keys := 1 }, at_command _ _ _ _ _ rfl (by decide +kernel) (by decide +kernel) (by decide +kernel), ⟨by decide, by rfl, by decide, by decide +kernel⟩, by decide +kernel, by decide +kernel, by decide +kernel, host_clean _ _ _ (by decide), by decide, by decide +kernel, by rfl⟩,
    ⟨{ setupPart with faults := [fault6] }, at_command _ _ _ _ _ rfl (by decide +kernel) (by decide +kernel) (by decide +kernel), ⟨by decide, by rfl, by decide, by decide +kernel⟩, by rfl⟩,
    ⟨{ setupPart with faults := [fault6] }, at_command _ _ _ _ _ rfl (by decide +kernel) (by decide +kernel) (by decide +kernel), ⟨by decide, by rfl, by decide, by decide +kernel⟩, by rfl, by decide, by decide⟩,
    ⟨{ setupPart with faults := [fault6] }, at_command _ _ _ _ _ rfl (by decide +kernel) (by decide +kernel) (by decide +kernel), ⟨by decide, by rfl, by decide, by decide +kernel⟩, by rfl, by decide, by decide, by decide⟩⟩

/-- The block that waits is saved with replay 1 of partition 0; the fault is that of a pull that no access asked for. -/
def awaitingSaved : State := cfwState 0x32 0 answerArgs (fun v => { v with faults := [fault6]
                                                                           replays := [{ replay1 with dgs := [{ die := 0, stages := [], saved := [
  { region := 0, stage := 1, lane := 0, tick := 0, img := { bankA := { voids := [.answer 6] } }, palette := [], vat := [] }] }] }] }) []
def background : State := cfwState 0x32 0 answerArgs (fun v => { v with faults := [{ fault6 with region := 255, unit := 0xFD, cause := 0x0E6, bg := true }] }) []

theorem witness_StageTwoCommands_rest :
    (∃ v, Claims.AtCommand (partly (fun v => { v with invq := [.collapse 0x200000 none] }) updating) cfwq (cfwPacket 0x30 24 0) s2Args 0x30 24 0 ∧
      (partly (fun v => { v with invq := [.collapse 0x200000 none] }) updating).part? 0 = some v ∧ v.invq ≠ [] ∧ v.invq.head? ≠ some .update) ∧
    (∃ v q, Claims.AtCommand awaitingSaved cfwq (cfwPacket 0x32 8 0) answerArgs 0x32 8 0 ∧ awaitingSaved.part? 0 = some v ∧ (awaitingSaved.reg 0).awaits 6 = false ∧
      v.awaitsSaved 0 6 = [1] ∧ v.savedSeq 1 0 = some q ∧ q.pending.length < 16) ∧
    (∃ v f, Claims.AtCommand background cfwq (cfwPacket 0x32 8 0) answerArgs 0x32 8 0 ∧ background.part? 0 = some v ∧
      v.faults.find? (fun f => f.num == Claims.field answerArgs 4 4 && f.answer == .pending) = some f ∧ f.bg = true) :=
  ⟨⟨_, at_command _ _ _ _ _ rfl (by decide +kernel) (by decide +kernel) (by decide +kernel), rfl, by decide, by decide⟩,
    ⟨_, _, at_command _ _ _ _ _ rfl (by decide +kernel) (by decide +kernel) (by decide +kernel), rfl, by decide, by decide, rfl, by decide⟩,
    _, _, at_command _ _ _ _ _ rfl (by decide +kernel) (by decide +kernel) (by decide +kernel), rfl, rfl, rfl⟩

/-- A command of one opcode for partition 0 is in progress since tick 0. -/
def progressing (op : Nat) (f : Part → Part) (now : Nat) : State :=
  { (partly f (cfwAt [])).modPkg (fun k => { k with inProgress := [(op, 0, 77, 0x9000, 0)] }) with tick := now }

theorem witness_Suspends : (∃ v, (Claims.AtCommand (cfwState 0x23 0 naming id []) cfwq (cfwPacket 0x23 8 0) naming 0x23 8 0) ∧
      Claims.Names (cfwState 0x23 0 naming id []) naming [] 0 v ∧ v.state = .ready) ∧
    (∃ v e, (progressing 0x23 (fun v => { v with suspending := some 0 }) 9).part? 0 = some v ∧
      (progressing 0x23 (fun v => { v with suspending := some 0 }) 9).pkg.inProgress.find? (fun x => x.1 == 0x23 && x.2.1 == 0) = some e ∧ e.2.2.2.1 + 64 ≤ 2 ^ 46 ∧
      v.suspending ≠ none ∧ (∀ x ∈ v.dieGraphs, x.2.2.isPlaced = false ∧ x.2.2.isSaving = false) ∧ ∀ y ∈ v.replays, v.endOwed y = false) :=
  ⟨⟨setupPart, at_command _ _ _ _ _ rfl (by decide +kernel) (by decide +kernel) (by decide +kernel), ⟨by decide, by rfl, by decide, by decide +kernel⟩, rfl⟩,
    ⟨_, _, rfl, rfl, by decide, by decide, by decide, by decide⟩⟩

/-- A reset has ended the suspension. -/
theorem witness_Suspends_timeout : ∃ v e, (progressing 0x23 id 9).part? 0 = some v ∧ v.suspending = none ∧
    (progressing 0x23 id 9).pkg.inProgress.find? (fun x => x.1 == 0x23 && x.2.1 == 0) = some e ∧ e.2.2.2.1 + 64 ≤ 2 ^ 46 := ⟨_, _, rfl, rfl, rfl, by decide⟩

theorem witness_Resumes : (∃ v, (Claims.AtCommand (cfwState 0x24 0 naming (fun v => { v with state := .suspended }) []) cfwq (cfwPacket 0x24 8 0) naming 0x24 8 0) ∧
      Claims.Names (cfwState 0x24 0 naming (fun v => { v with state := .suspended }) []) naming [] 0 v ∧ v.state = .suspended) ∧
    (∃ v e, (progressing 0x24 id 9).part? 0 = some v ∧ (progressing 0x24 id 9).pkg.inProgress.find? (fun x => x.1 == 0x24 && x.2.1 == 0) = some e ∧ e.2.2.2.1 + 64 ≤ 2 ^ 46 ∧
      (progressing 0x24 id 9).restoresLeft v = false) :=
  ⟨⟨_, at_command _ _ _ _ _ rfl (by decide +kernel) (by decide +kernel) (by decide +kernel), ⟨by decide, by rfl, by decide, by decide +kernel⟩, rfl⟩,
    ⟨_, _, rfl, rfl, by decide, by decide⟩⟩

/-- Partition 0 suspends, and its die graph is still being saved. -/
def slow (v : Part) : Part := { v with suspending := some 0, replays := [{ replay1 with dgs := replay1.dgs.map (fun (d : DieGraph) => { d with place := .saving 0 }) }] }

theorem witness_SuspendTimesOut : ∃ v e, (progressing 0x23 slow 5200001).part? 0 = some v ∧ v.suspending = some 0 ∧
    (progressing 0x23 slow 5200001).pkg.inProgress.find? (fun x => x.1 == 0x23 && x.2.1 == 0) = some e ∧ v.savesOver = false ∧
    1000 * ((spFind (progressing 0x23 slow 5200001).sets v.set).map RSet.period).getD 0 + 200000 + 5000000 < 5200001 - e.2.2.2.2 ∧
    ∃ s1, (progressing 0x23 slow 5200001).readBack 0 ((progressing 0x23 slow 5200001).undone 0 v) = (s1, .ok ()) :=
  ⟨_, _, rfl, rfl, rfl, by decide, by decide, _, pair _ _ (by decide)⟩

/-- Region 0 of its die graph is saved with a record at VA `x`. -/
def slowAt (x : Nat) (v : Part) : Part :=
  { v with
    suspending := some 0
    replays := [{ replay1 with dgs := [
      { die := 0, place := .saving 0, forSuspend := true, stages := [{ index := 0, number := 0, width := 1, entry := 0, save := x }]
        saved := [{ region := 0, stage := 0, lane := 0, tick := 0, img := {}, palette := [], vat := [] }] }] }] }

/-- The record lies in a page that stage 2 does not map, or in a remote frame. -/
def slowUnmapped : State := progressing 0x23 (slowAt 0x400000) 5200001
def slowRemote : State :=
  (progressing 0x23 (fun v => { slowAt 0 v with migration := some { peer := 7, session := 99, ticket := [] } }) 5200001).writePhys 0x400000 8 (2 * 2 ^ 62 + 0x600000 + 2 ^ 8)

theorem witness_SuspendTimesOut_reads : (∃ v s1, slowRemote.part? 0 = some v ∧ slowRemote.readBack 0 (slowRemote.undone 0 v) = (s1, .held)) ∧
    ∃ v s1, slowUnmapped.part? 0 = some v ∧ slowUnmapped.readBack 0 (slowUnmapped.undone 0 v) = (s1, .fault 0x168 0x400000) :=
  ⟨⟨_, _, rfl, pair _ _ (by decide +kernel)⟩, _, _, rfl, pair _ _ (by decide +kernel)⟩

/-- Arguments of PART.CREATE: region 0 exclusively, one key, a tick of 10 µs, an array of one empty entry at 0x700000, a root at GPA 0
and a ring of 16 records at 0x20000 (R141). -/
def createArgs : List Byte :=
  toBytes 24 1 ++ [0xFF, 0, 1, 0] ++ toBytes 4 10 ++ toBytes 8 0x700000 ++ toBytes 4 1 ++ toBytes 4 0 ++ toBytes 8 0 ++ toBytes 8 0 ++ toBytes 8 0 ++ toBytes 8 0 ++
    [0, 0, 0, 0, 0, 0, 0, 0] ++ toBytes 8 0x20000 ++ toBytes 4 16 ++ toBytes 4 0 ++ List.replicate 32 5
/-- No partition exists. -/
def creating : State := { cfwState 0x20 72 createArgs id [] with parts := [], sets := [] }

/-- With no partition and no key in quarantine any key may be chosen. -/
theorem choose_key (s : State) (hp : s.parts = []) (hq : s.pkg.quarantine = []) : ∃ key, s.chooseKey = some key :=
  ⟨_, by
    unfold State.chooseKey
    rw [show List.range 256 = 0 :: (List.range 255).map Nat.succ from by decide +kernel]
    simp only [List.map_cons]
    exact List.find?_cons_of_pos (by simp [State.keyFree, hp, hq])⟩

/-- An empty entry passes the checks of a stage-2 array. -/
theorem empty_entry (s : State) (p : Nat) (v : Part) (remote : Bool) (e : Nat) (h : e = 0) : s.s2Bad p v remote e = none := by
  subst h
  unfold State.s2Bad
  rw [if_neg (by cases remote <;> decide)]
  rfl

theorem witness_Creates : Claims.AtCommand creating cfwq (cfwPacket 0x20 136 72) createArgs 0x20 136 72 ∧ createArgs.take 136 = createArgs ∧
    creating.populated (Claims.field createArgs 0x20 8) = true ∧ creating.populated (Claims.field createArgs 0x20 8 + 8 * Claims.field createArgs 0x28 4 - 1) = true ∧
    Claims.field createArgs 0x19 1 = 0 ∧ Claims.field createArgs 0x38 8 = 0 ∧ Claims.field createArgs 0x18 1 = 0xFF ∧ (∀ e ∈ creating.parts, e.2.forming = none) ∧
    ∃ key, Claims.CanCreate creating { args := createArgs, folds := [], ranks := [], origin := none } 0 key 0 [] none := by
  obtain ⟨key, hk⟩ := choose_key creating rfl rfl
  refine ⟨at_command _ _ _ _ _ rfl (by decide +kernel) (by decide +kernel) (by decide +kernel), by decide +kernel, by decide +kernel, by decide +kernel, by decide +kernel, by decide +kernel,
    by decide +kernel, fun e h => absurd h (List.not_mem_nil), key, by decide +kernel, by decide, by decide +kernel, fun n h => absurd h (Nat.not_lt_zero n),
    .inl ⟨by decide +kernel, rfl, by decide +kernel, by decide +kernel⟩, by decide +kernel, hk, by decide +kernel, ?_, by decide +kernel, ?_, ?_, ?_, .inl (by decide +kernel), by decide +kernel⟩
  · intro i h
    have e : i = 0 := Nat.lt_one_iff.1 h
    rw [e]
    exact empty_entry _ _ _ _ _ (show Claims.number creating.mem 0x700000 8 = 0 by decide +kernel)
  · rfl
  · intro w h; exact absurd h (List.not_mem_nil)
  · intro i h; exact absurd h (Nat.not_lt_zero i)

/-- The ticket of a migration from package 5 to package 7, and the arguments with it and a certificate of four bytes at 0xC000 (R398, R399). -/
def ticket5 : List Byte := toBytes 4 0x5447494D ++ toBytes 2 1 ++ toBytes 2 5 ++ toBytes 2 7 ++ toBytes 1 0 ++ toBytes 1 0 ++ toBytes 4 1 ++ List.replicate 128 3
def migrateArgs : List Byte := createArgs ++ toBytes 2 5 ++ toBytes 6 0 ++ ticket5 ++ toBytes 8 0xC000 ++ toBytes 4 4 ++ toBytes 4 0
/-- Package 5 has signed it. -/
def migrating : State :=
  State.modPkg { cfwState 0x26 72 migrateArgs id [(0xC000, [1, 2, 3, 4])] with parts := [], sets := [] } (fun k => { k with signed := [([1, 2, 3, 4], ticket5)] })

/-- On package 7. -/
theorem witness_Creates_migration : Config.packageId = 7 →
    Claims.AtCommand migrating cfwq (cfwPacket 0x26 304 72) migrateArgs 0x26 304 72 ∧ migrateArgs.take 136 = createArgs ∧
      (∀ i ∈ [0x8A, 0x8B, 0x8C, 0x8D, 0x8E, 0x8F, 0x12C, 0x12D, 0x12E, 0x12F], migrateArgs.getD i 0 = 0) ∧ Claims.field migrateArgs 0x88 2 = 5 ∧
      Claims.field migrateArgs 0x120 8 = 0xC000 ∧ Claims.field migrateArgs 0x128 4 = 4 ∧ [1, 2, 3, 4] = migrating.mem.readN 4 (0x080000000000 + 0xC000) ∧ Claims.HostClean migrating 0xC000 4 ∧
      (migrateArgs.drop 0x90).take 144 = ticket5 ∧ ticketOk ticket5 5 (Claims.field migrateArgs 0x28 4) = true ∧ ([1, 2, 3, 4], ticket5) ∈ migrating.pkg.signed ∧
      ∃ key, Claims.CanCreate migrating ⟨createArgs, [], [], some { peer := 5, session := BitVec.ofNat 128 (Claims.field ticket5 0x18 16), ticket := ticket5 }⟩ 0 key 0 [] none := by
  intro hp
  obtain ⟨key, hk⟩ := choose_key migrating rfl rfl
  refine ⟨at_command _ _ _ _ _ rfl (by decide +kernel) (by decide +kernel) (by decide +kernel), by decide +kernel, by decide +kernel, by decide +kernel, by decide +kernel, by decide +kernel,
    by decide +kernel, host_clean _ _ _ (by decide +kernel), by decide +kernel, by unfold ticketOk; rw [hp]; decide +kernel, List.mem_singleton.2 rfl,
    key, by decide +kernel, by decide, by decide +kernel, fun n h => absurd h (Nat.not_lt_zero n),
    .inl ⟨by decide +kernel, rfl, by decide +kernel, by decide +kernel⟩, by decide +kernel, hk, by decide +kernel, ?_, by decide +kernel, ?_, ?_, ?_, .inl (by decide +kernel), by decide +kernel⟩
  · intro i h
    have e : i = 0 := Nat.lt_one_iff.1 h
    rw [e]
    exact empty_entry _ _ _ _ _ (show Claims.number migrating.mem 0x700000 8 = 0 by decide +kernel)
  · rfl
  · intro w h; exact absurd h (List.not_mem_nil)
  · intro i h; exact absurd h (Nat.not_lt_zero i)

/-- PART.MIGRATE.OUT of partition 0, suspended, to package n. -/
def leaving (n : Nat) : State := cfwState 0x25 144 (toBytes 2 0 ++ toBytes 2 n ++ toBytes 4 0) (fun v => { v with state := .suspended }) []

theorem witness_PartitionEnds : (∃ v, (Claims.AtCommand (cfwState 0x21 0 naming metered []) cfwq (cfwPacket 0x21 8 0) naming 0x21 8 0) ∧
      Claims.Names (cfwState 0x21 0 naming metered []) naming [] 0 v ∧ v.reset = none ∧ (cfwState 0x21 0 naming metered []).tick < v.meter.nextDue) ∧
    (∃ v m, (partly metered sourced).part? 0 = some v ∧ v.state = .migratingOut ∧ v.migration = some m ∧ (partly metered sourced).tick < v.meter.nextDue ∧ ∀ e ∈ (partly metered sourced).pkg.inProgress, e.2.1 ≠ 0) ∧
    (∃ n v args, n ≤ 4095 ∧ n ≠ Config.packageId.toNat ∧ (Claims.AtCommand (leaving n) cfwq (cfwPacket 0x25 8 144) args 0x25 8 144) ∧
      Claims.Names (leaving n) args [(2, 2)] 0 v ∧ Claims.field args 2 2 = n ∧ v.state = .suspended) ∧
    (7, 9) ∈ ((base []).modPkg (fun k => { k with quarantine := [(7, 9)] })).pkg.quarantine := by
  refine ⟨⟨_, at_command _ _ _ _ _ rfl (by decide +kernel) (by decide +kernel) (by decide +kernel), ⟨by decide, by rfl, by decide, by decide +kernel⟩, rfl, by decide⟩,
    ⟨_, _, rfl, rfl, rfl, by decide, by decide⟩, ?_, by decide⟩
  by_cases h0 : Config.packageId.toNat = 0
  · exact ⟨4095, { setupPart with state := .suspended }, [0, 0, 0xFF, 0x0F, 0, 0, 0, 0], by decide, by omega, at_command _ _ _ _ _ rfl (by decide +kernel) (by decide +kernel) (by decide +kernel),
      ⟨by decide, by rfl, by decide, by decide +kernel⟩, by decide, rfl⟩
  · exact ⟨0, { setupPart with state := .suspended }, [0, 0, 0, 0, 0, 0, 0, 0], by decide, by omega, at_command _ _ _ _ _ rfl (by decide +kernel) (by decide +kernel) (by decide +kernel),
      ⟨by decide, by rfl, by decide, by decide +kernel⟩, by decide, rfl⟩

/-! ### Boot, links, degradation, power -/

/-- A package after a boot step, with what it has measured. -/
def booted (n : Nat) (l : List (Nat × Bool)) : State := State.reset.modPkg (fun k => { k with boot := n, measured := l })

theorem witness_Boots : 6 = (booted 5 []).pkg.boot + 1 ∧ (4, false) ∉ (booted 5 []).pkg.measured ∧ 1 = (booted 0 []).pkg.boot + 1 ∧ 4 ≠ (booted 4 []).pkg.boot + 1 ∧
    (4, false) ∈ (booted 3 [(4, false)]).pkg.measured := by decide

theorem witness_SpdmAnswers : 2 ≤ (booted 2 []).pkg.boot ∧ (∀ b, (4, b) ∉ (booted 2 []).pkg.measured) ∧ (4, true) ∈ (booted 4 [(4, true)]).pkg.measured ∧
    (booted 3 []).pkg.boot < 4 ∧ 4 ≤ (booted 4 []).pkg.boot := by decide

theorem witness_Degrades : ((base []).modPkg (fun k => { k with linkKeys := [(4, 77)] })).pkg.linkKeys.find? (fun e => e.1 == 4) = some (4, 77) ∧
    spGet 8 (base []).pkg.lanes 3 = 7 + 1 ∧ spGet 1 (base []).pkg.lanes 12 = 0 + 1 ∧ (∃ e ∈ (base []).parts, ∃ f ∈ (base []).ownedFrames e.2, f / 2 ^ 30 = 0) ∧
    (¬∃ e ∈ (base []).parts, ∃ f ∈ (base []).ownedFrames e.2, f / 2 ^ 30 = 511) ∧ (base []).populated 4096 = true ∧ (base []).populated (4096 + 31) = true := by decide +kernel

/-- Every island is ON, and dies 0 and 3 have been released. -/
def powered : State := (base []).modPkg (fun k => { k with vf := [], measured := [(0, true), (3, true), (2, false)] })

theorem witness_ColumnStates : 39 - 2 < 40 ∧ 37 % 10 < 8 ∧ powered.released (37 / 10) = true ∧ powered.released (27 / 10) = false ∧ powered.tripped (37 / 10) = false ∧ powered.columnFree 37 = true ∧
    spGet .on powered.pkg.vf 37 ≠ .off ∧ powered.columnFree 0 = false ∧ ¬(47 < 40 ∧ 47 % 10 < 8) ∧ ¬(38 < 40 ∧ 38 % 10 < 8) := by decide +kernel

/-- Die 0 with a thermal state, every level at 60, at a tick. -/
def heated (z : Thermal) (now : Nat) : State :=
  { (ended id id).modPkg (fun k => { k with measured := [(0, true)], thermal := [(0, z)], throttle := (List.range 8).map (fun c => (c, 60)) }) with tick := now }

theorem witness_ThermalSteps : (37 < 40 ∧ 37 % 10 < 8 ∧ 60 ≤ 60) ∧
    (let s := heated { zone := .aboveTrip, since := 5 } 1000005
     s.released 0 = true ∧ s.released 1 = false ∧ (spGet {} s.pkg.thermal 0).tripped = false ∧ (spGet {} s.pkg.thermal 0).zone = .aboveTrip ∧ 1000000 ≤ s.tick - (spGet {} s.pkg.thermal 0).since ∧
      (∀ c, c < 8 → spGet 0 s.pkg.throttle (10 * 0 + c) = 60) ∧ ∃ e ∈ s.parts, s.part? e.1 = some e.2 ∧ e.2.placedOnDie 0 = true ∧ e.2.reset = none) ∧
    (∀ e ∈ ({ heated { zone := .aboveTrip, since := 5 } 1000005 with parts := [] } : State).parts, e.2.placedOnDie 0 = false) ∧
    (let s := heated { zone := .belowRecovery, since := 5, tripped := true } 1000000005
     (spGet {} s.pkg.thermal 0).tripped = true ∧ (spGet {} s.pkg.thermal 0).zone = .belowRecovery ∧ 1000000000 ≤ s.tick - (spGet {} s.pkg.thermal 0).since) := by decide +kernel

/-! ### The health of the tiles -/

/-- Tile (0, 0) with a record. -/
def tiled (v : Tile) : State := powered.modTile (0, 0) (fun _ => v)

theorem witness_HeartbeatSent : (tiled {}).asleep (0, 0) = false ∧ (base []).asleep (0, 0) = true ∧ ((tiled {}).tile (0, 0)).silent = false ∧ ((tiled {}).tile (0, 0)).sent ≤ ((tiled {}).tile (0, 0)).period ∧
    ((tiled { sent := 1 }).tile (0, 0)).period < ((tiled { sent := 1 }).tile (0, 0)).sent ∧ ((tiled { state := 4 }).tile (0, 0)).state = 4 := by decide

/-- A beat of the first period from cell 1 of region 0, a neighbour of cell 0 there. -/
def beat1 (kind subject : Nat) : Beat := { dst := 0, seq := 1, kind := kind, state := 0, sender := 1, subject := subject, payload := 0 }
/-- It is the oldest beat for tile (0, 0). -/
def hearing (b : Beat) (state : Nat) : State := (tiled { state := state }).modPkg (fun k => { k with beats := [b] })

theorem witness_BeatsTaken : Claims.Hears (hearing (beat1 0 0) 0) (0, 0) (beat1 0 0) [] ∧ Claims.Hears (hearing (beat1 1 2) 0) (0, 0) (beat1 1 2) [] ∧
    Claims.Hears (hearing (beat1 2 2) 0) (0, 0) (beat1 2 2) [] ∧ Claims.Hears (hearing (beat1 3 2) 0) (0, 0) (beat1 3 2) [] ∧ (beat1 3 2).subject ≠ tileIdent (0, 0) ∧
    Claims.Hears (hearing (beat1 3 0) 2) (0, 0) (beat1 3 0) [] ∧ (beat1 3 0).subject = tileIdent (0, 0) ∧ Claims.Hears (hearing (beat1 4 0) 0) (0, 0) (beat1 4 0) [] ∧
    (hearing (beat1 4 0) 0).watches (0, 0) (identTile 1) = true ∧ Claims.Hears (hearing (beat1 5 2) 0) (0, 0) (beat1 5 2) [] :=
  ⟨⟨by decide, by decide, by decide, by decide, by decide, by decide, by decide, by decide, by decide⟩, ⟨by decide, by decide, by decide, by decide, by decide, by decide, by decide, by decide, by decide⟩,
    ⟨by decide, by decide, by decide, by decide, by decide, by decide, by decide, by decide, by decide⟩, ⟨by decide, by decide, by decide, by decide, by decide, by decide, by decide, by decide, by decide⟩, by decide,
    ⟨by decide, by decide, by decide, by decide, by decide, by decide, by decide, by decide, by decide⟩, by decide, ⟨by decide, by decide, by decide, by decide, by decide, by decide, by decide, by decide, by decide⟩,
    by decide, ⟨by decide, by decide, by decide, by decide, by decide, by decide, by decide, by decide, by decide⟩⟩

/-- The router of region 0 accuses its cell 0, whose column is in HOLD, to the router of region 1, which does not watch it. -/
def routerBeat : Beat := { beat1 1 0 with dst := tileIdent (1, 353), sender := tileIdent (0, 353) }
def endorsing : State := (hearing routerBeat 0).modPkg (fun k => { k with vf := [(0, .hold)] })

theorem witness_BeatsTaken_forwards : Claims.Hears endorsing (1, 353) routerBeat [] ∧ endorsing.endorses (1, 353) routerBeat = true ∧
    (hearing (beat1 1 2) 0).endorses (0, 0) (beat1 1 2) = false :=
  ⟨⟨by decide, by decide, by decide, by decide, by decide, by decide, by decide, by decide, by decide⟩, by decide, by decide⟩

theorem witness_BabbleCounted : (hearing { beat1 0 0 with zeros := false } 0).nextBeat (0, 0) = some ({ beat1 0 0 with zeros := false }, []) ∧
    (hearing { beat1 0 0 with zeros := false } 0).asleep (0, 0) = false ∧ (hearing { beat1 0 0 with zeros := false } 0).watches (0, 0) (identTile 1) = true ∧
    ({ beat1 0 0 with zeros := false } : Beat).wellFormed = false := by decide

theorem witness_TileSteps : ((tiled { state := 3 }).tile (0, 0)).state = 3 ∧ ((tiled { state := 4, appealBeats := 4096 }).tile (0, 0)).state = 4 ∧
    4096 ≤ ((tiled { state := 4, appealBeats := 4096 }).tile (0, 0)).appealBeats ∧ ((tiled { state := 4, appealBeats := 4095 }).tile (0, 0)).appealBeats < 4096 ∧
    ((tiled { state := 5, probation := 1048576 }).tile (0, 0)).state = 5 ∧ 2 ^ 20 ≤ ((tiled { state := 5, probation := 1048576 }).tile (0, 0)).probation := by decide

/-- One period of 4,096 x 10 / 13 ticks has passed, and the tiles of region 0 have sent their heartbeats in it. -/
def later : State := { powered.modReg 0 (fun g => { g with tiles := (List.range 355).map (fun i => (i, { sent := 1 })) }) with tick := 3151 }

theorem witness_QuietPeriodEnds : later.asleep (0, 0) = false ∧ later.periodOver (0, 0) = true ∧ (tiled {}).periodOver (0, 0) = false ∧ (later.tile (0, 0)).state = 0 ∧
    (later.tile (0, 0)).stateAt (later.per (0, 0)) = 0 ∧ (later.tile (0, 0)).accusations = [] ∧ (later.tile (0, 0)).fenced = [] ∧
    ∀ y ∈ later.watched (0, 0) (later.per (0, 0)), (later.tile y).state = 0 ∧ (later.tile y).stateAt (later.per (0, 0)) = 0 ∧ ((later.tile (0, 0)).about y).accuse = false ∧
      ((((later.tile (0, 0)).about y).periodEnd (later.beatDue y) ((later.tile y).state == 4)).accuses = false) := by decide +kernel

/-- Cells 255 and 239 stand in one logical column, 255 and 254 in two. -/
theorem witness_ColumnRemapped : ((at0 (fun g => { g with remapping := [255, 239] })).reg 0).remapping = 255 :: [239] ∧ (∀ d ∈ [239], d % 16 = 255 % 16) ∧
    ((at0 (fun g => { g with remapping := [255, 254] })).reg 0).remapping = 255 :: [254] ∧ ∃ d ∈ [254], d % 16 ≠ 255 % 16 := by decide

theorem witness_TileIsolated : tileLive ((tiled { state := 5 }).tile (0, 0)).state = true ∧ tileLive ((tiled { isolations := [0, 0, 0] }).tile (0, 0)).state = true ∧
    3 ≤ (((tiled { isolations := [0, 0, 0] }).tile (0, 0)).isolations.filter (fun t => decide ((tiled {}).tick - t < 86400000000000))).length := by decide

end Sys2Proof.Test
end

/-!
Numbers in memory: the little-endian bytes that the statements speak of (R5), and what a read of them gives after a write.
-/
namespace Sys2Proof

/-! ## Bytes of a number -/

@[simp] theorem toBytes_length (n v : Nat) : (toBytes n v).length = n := by
  induction n generalizing v with
  | zero => rfl
  | succ n ih => simp [toBytes, ih]

/-- Byte `i` of a number (R5). -/
theorem toBytes_getD (n v i : Nat) (h : i < n) : (toBytes n v).getD i 0 = BitVec.ofNat 8 (v / 256 ^ i) := by
  induction n generalizing v i with
  | zero => omega
  | succ n ih =>
    cases i with
    | zero => simp [toBytes]
    | succ i => simpa [toBytes, Nat.div_div_eq_div_mul, Nat.pow_succ'] using ih (v / 256) i (by omega)

/-- The bytes of a number give it back, as far as they reach. -/
theorem ofBytes_toBytes (n v : Nat) : ofBytes (toBytes n v) = v % 256 ^ n := by
  induction n generalizing v with
  | zero => simp [toBytes, ofBytes, Nat.mod_one]
  | succ n ih =>
    have h8 : (BitVec.ofNat 8 v).toNat = v % 256 := by simp
    rw [toBytes, ofBytes, ih, h8, Nat.pow_succ', Nat.mod_mul]

theorem ofBytes_lt (bs : List Byte) : ofBytes bs < 256 ^ bs.length := by
  induction bs with
  | nil => simp [ofBytes]
  | cons b bs ih =>
    have hb : b.toNat < 256 := b.isLt
    rw [ofBytes, List.length_cons, Nat.pow_succ']
    omega

/-- `Sext` of R8 is the extension of a bit vector. -/
theorem sext_eq_signExtend (n v : Nat) (hn : 0 < n) : sext n v = (BitVec.ofNat n v).signExtend 64 := by
  obtain ⟨m, rfl⟩ : ∃ m, n = m + 1 := ⟨n - 1, by omega⟩
  have h2 : (2 : Nat) ^ (m + 1) = 2 * 2 ^ m := Nat.pow_succ'
  rw [sext, BitVec.signExtend]
  congr 1
  rw [signedOf, BitVec.toInt_eq_toNat_cond, BitVec.toNat_ofNat, Nat.add_sub_cancel]
  have : v % 2 ^ (m + 1) < 2 ^ m ↔ 2 * (v % 2 ^ (m + 1)) < 2 ^ (m + 1) := by omega
  simp only [this]

end Sys2Proof

namespace Sys2Proof.Machine

/-! ## Bytes of memory -/

@[simp] theorem Memory.readN_length (m : Memory) (n a : Nat) : (m.readN n a).length = n := by
  induction n generalizing a with
  | zero => rfl
  | succ n ih => simp [Memory.readN, ih]

@[simp] theorem Memory.getElem_readN (m : Memory) (n a i : Nat) (h : i < (m.readN n a).length) : (m.readN n a)[i] = m.read (a + i) := by
  induction n generalizing a i with
  | zero => simp [Memory.readN] at h
  | succ n ih =>
    cases i with
    | zero => rfl
    | succ i => simp [Memory.readN, ih, Nat.add_assoc, Nat.add_comm 1]

/-- A range reads as it was written. -/
theorem Memory.readN_writeN (m : Memory) (a : Nat) (bs : List Byte) : (m.writeN a bs).readN bs.length a = bs := by
  refine List.ext_getElem (by simp) fun i h1 h2 => ?_
  rw [Memory.getElem_readN, Memory.read_writeN, if_pos ⟨by omega, by omega⟩, Nat.add_sub_cancel_left, List.getD_eq_getElem _ _ h2]

/-- Where two memories read alike, so do their ranges. -/
theorem Memory.readN_congr (m m' : Memory) (n a : Nat) (h : ∀ i, i < n → m.read (a + i) = m'.read (a + i)) :
    m.readN n a = m'.readN n a :=
  List.ext_getElem (by simp) fun i h1 _ => by simpa using h i (by simpa using h1)

/-- A number in memory is that of its bytes. -/
theorem number_eq_ofBytes (m : Memory) (a n : Nat) : Claims.number m a n = ofBytes (m.readN n a) := by
  induction n generalizing a with
  | zero => rfl
  | succ n ih =>
    rw [Memory.readN, ofBytes, ← ih, Claims.number, Claims.number, List.range_succ_eq_map, List.map_cons, List.map_map, List.sum_cons,
      ← List.sum_map_mul_left]
    congr 1
    · simp
    · congr 2
      funext i
      simp only [Function.comp_apply, Nat.succ_eq_add_one, Nat.pow_succ', show a + 1 + i = a + (i + 1) by omega]
      ring

theorem number_lt (m : Memory) (a n : Nat) : Claims.number m a n < 256 ^ n := by
  simpa [number_eq_ofBytes] using ofBytes_lt (m.readN n a)

theorem readPhys_eq_number (s : State) (a n : Nat) : s.readPhys a n = Claims.number s.mem a n := (number_eq_ofBytes ..).symm

/-- Where two memories read alike they hold the same number. -/
theorem number_congr (m m' : Memory) (a n : Nat) (h : ∀ i, i < n → m.read (a + i) = m'.read (a + i)) :
    Claims.number m a n = Claims.number m' a n := by
  rw [number_eq_ofBytes, number_eq_ofBytes, Memory.readN_congr m m' n a h]

@[simp] theorem State.writePhys_mem (s : State) (pa n v : Nat) : (s.writePhys pa n v).mem = s.mem.writeN pa (toBytes n v) := rfl

/-- Byte `i` of a number that has been written. -/
theorem Memory.read_writeN_in (m : Memory) (a n v i : Nat) (h : i < n) :
    (m.writeN a (toBytes n v)).read (a + i) = BitVec.ofNat 8 (v / 256 ^ i) := by
  rw [Memory.read_writeN, if_pos ⟨by omega, by rw [toBytes_length]; omega⟩, Nat.add_sub_cancel_left, toBytes_getD n v i h]

/-- A byte outside the number that has been written. -/
theorem Memory.read_writeN_out (m : Memory) (a n v x : Nat) (h : ¬(a ≤ x ∧ x < a + n)) :
    (m.writeN a (toBytes n v)).read x = m.read x := by
  rw [Memory.read_writeN, if_neg (by rwa [toBytes_length])]

/-- A number that has just been written. -/
theorem number_writeN_same (m : Memory) (a n v : Nat) : Claims.number (m.writeN a (toBytes n v)) a n = v % 256 ^ n := by
  have h := m.readN_writeN a (toBytes n v)
  rw [toBytes_length] at h
  rw [number_eq_ofBytes, h, ofBytes_toBytes]

/-- A number away from the one that has been written. -/
theorem number_writeN_other (m : Memory) (a n b k v : Nat) (h : a + n ≤ b ∨ b + k ≤ a) :
    Claims.number (m.writeN b (toBytes k v)) a n = Claims.number m a n :=
  number_congr _ _ a n fun i hi => m.read_writeN_out b k v (a + i) (by omega)

end Sys2Proof.Machine
/-!
O17, ld and st: the effective address, the bytes of the access, and what a completed access leaves (R8, R101, R211, R212).
-/
namespace Sys2Proof.Machine

/-! ## The operands of an access -/

/-- An effective address that is a natural number is the exact sum. -/
theorem exactSum_eq_of_sum (x : Word) (off : Int) (n : Nat) (h : Claims.Sum x off n) : exactSum x off = n := by
  unfold Claims.Sum at h
  rw [exactSum, h, if_pos (by omega), Int.toNat_natCast]

theorem sizeBytes_eq_width : ∀ size : BitVec 3, size ≠ 7 → sizeBytes size = Claims.width size := by decide

/-- The bytes of an access divide a page. -/
theorem sizeBytes_dvd_page : ∀ size : BitVec 3, sizeBytes size ∣ 4096 := by decide

/-- A loaded number is extended as R211 says. -/
theorem loadExtend_eq_extended (size : BitVec 3) (v : Nat) : loadExtend size v = Claims.extended size v := by
  have hsize : size.toNat < 8 := size.isLt
  unfold loadExtend Claims.extended sizeBytes
  generalize size.toNat = c at hsize
  interval_cases c
  · exact sext_eq_signExtend 8 v (by omega)
  · exact sext_eq_signExtend 16 v (by omega)
  · exact sext_eq_signExtend 32 v (by omega)
  all_goals rfl

/-! ## A number within one page -/

/-- The read of a number within one page, where nothing stands against it. -/
theorem State.readNum_page (s s1 : State) (w : Who) (va n pa : Nat) (hpage : firstPage va n = n) (hreach : s.reach w va .read = (s1, .ok pa))
    (hphys : s1.physFault pa n .read = none) : s.readNum w va n = (s1.countBytes w.part pa n, .ok (Claims.number s1.mem pa n)) := by
  have hread := (s.readPage_ok (s1.countBytes w.part pa n) w va n (s1.mem.readN n pa)).2 ⟨s1, pa, hreach, hphys, rfl, rfl⟩
  rw [State.readNum, State.readVA_page _ _ _ _ hpage, hread, number_eq_ofBytes]

/-- The write of a number within one page and outside the fold windows, where nothing stands against it. -/
theorem State.writeNum_page (s s1 : State) (w : Who) (va n pa v : Nat) (hpage : firstPage va n = n)
    (hwin : ∀ u, s.part? w.part = some u → inWindow u va n = false) (hreach : s.reach w va .write = (s1, .ok pa))
    (hphys : s1.physFault pa n .write = none) : s.writeNum w va n v = ((s1.countBytes w.part pa n).writePhys pa n v, .ok ()) := by
  have hlen := toBytes_length n v
  rw [State.writeNum, State.writeVA_page _ _ _ _ (by rw [hlen, hpage]) (.inr (by rwa [hlen])), State.writePage_ok]
  exact ⟨s1, pa, hreach, by rwa [hlen], by rw [hlen]; rfl⟩

/-! ## The state after a completed access -/

/-- Reaching an address and counting the bytes of the access is a read. -/
theorem State.reach_countBytes_readOnly (s s1 : State) (w : Who) (va pa n : Nat) (k : AKind) (h : s.reach w va k = (s1, .ok pa)) :
    State.ReadOnly w s (s1.countBytes w.part pa n) :=
  (State.reach_readOnly _ _ _ _ _ _ h).trans (s1.countBytes_readOnly _ _ _ _)

/-- The sequencer's step after a read changes no other region, and of its own region the sequencer and the translation cache. -/
theorem State.ReadOnly.mod_frame {w : Who} {s t : State} (h : State.ReadOnly w s t) (hw : w.region = some s.cur) (f : Seq → Seq) :
    (t.mod f).seq = f s.seq ∧ (∀ r, r ≠ s.cur → (t.mod f).reg r = s.reg r) ∧
      (t.mod f).reg s.cur = { s.reg s.cur with seq := (t.mod f).seq, tlb := ((t.mod f).reg s.cur).tlb } := by
  have hcur : (t.mod f).reg s.cur = { t.reg s.cur with seq := f s.seq } := by
    rw [← h.cur, State.reg_mod_cur, h.seq]
  have hseq : (t.mod f).seq = f s.seq := by rw [State.seq_mod, h.seq]
  refine ⟨hseq, fun r hr => ?_, ?_⟩
  · have hother : w.region ≠ some r := by rw [hw]; exact fun e => hr (Option.some.inj e).symm
    rw [State.reg_mod_other _ _ _ (by rwa [h.cur]), h.other r hother]
  · rw [hcur, hseq, h.reg]

/-- ld of an aligned address that is reached and can be read. -/
theorem execLd_ok (s s1 : State) (d a : BitVec 5) (size : BitVec 3) (order : BitVec 2) (scope k : BitVec 3) (off : BitVec 32) (ea pa : Nat)
    (hk : s.seq.kr k = true) (hheld : s.held s.cur = false) (hea : Claims.Sum (s.seq.gr a) off.toInt ea) (hal : ea % sizeBytes size = 0)
    (hreach : s.reach (s.seqWho s.cur) ea .read = (s1, .ok pa)) (hphys : s1.physFault pa (sizeBytes size) .read = none) :
    execLd d a size order scope k off s = .next ((s1.countBytes (s.seqWho s.cur).part pa (sizeBytes size)).setG d
      (loadExtend size (Claims.number s1.mem pa (sizeBytes size))) 8) := by
  have hpage := firstPage_aligned ea _ (sizeBytes_dvd_page size) hal
  rw [execLd, State.guarded_true _ _ _ _ hk]
  simp only [Seq.addr32, exactSum_eq_of_sum _ _ _ hea, hheld, aligned, hal, beq_self_eq_true, Bool.not_true, Bool.false_eq_true, if_false,
    State.readNum_page _ _ _ _ _ _ hpage hreach hphys]

/-- st to an aligned address outside the fold windows that is reached and can be written. -/
theorem execSt_ok (s s1 : State) (d a : BitVec 5) (size : BitVec 3) (order : BitVec 2) (scope k : BitVec 3) (off : BitVec 32) (ea pa : Nat)
    (hk : s.seq.kr k = true) (hheld : s.held s.cur = false) (hea : Claims.Sum (s.seq.gr a) off.toInt ea) (hal : ea % sizeBytes size = 0)
    (hwin : ∀ u, s.part? (s.seqWho s.cur).part = some u → inWindow u ea (sizeBytes size) = false)
    (hreach : s.reach (s.seqWho s.cur) ea .write = (s1, .ok pa)) (hphys : s1.physFault pa (sizeBytes size) .write = none) :
    execSt d a size order scope k off s = .next (((s1.countBytes (s.seqWho s.cur).part pa (sizeBytes size)).writePhys pa (sizeBytes size)
      (s.seq.gr d).toNat).advance 8) := by
  have hpage := firstPage_aligned ea _ (sizeBytes_dvd_page size) hal
  rw [execSt, State.guarded_true _ _ _ _ hk]
  simp only [Seq.addr32, exactSum_eq_of_sum _ _ _ hea, hheld, aligned, hal, beq_self_eq_true, Bool.not_true, Bool.false_eq_true, if_false,
    State.writeNum_page _ _ _ _ _ _ _ hpage hwin hreach hphys]

/-- R211: an aligned ld that is reached completes with the number read. -/
theorem loadCompletes : Claims.LoadCompletes := by
  intro s s1 d a size order scope k off ea pa hsize hk hheld hea hal hreach hphys
  rw [← sizeBytes_eq_width size hsize] at hal hphys ⊢
  have hread := State.reach_countBytes_readOnly _ _ _ _ _ (sizeBytes size) _ hreach
  have hexec := execLd_ok s s1 d a size order scope k off ea pa hk hheld hea hal hreach hphys
  have hmem : s1.mem = s.mem := (State.reach_readOnly _ _ _ _ _ _ hreach).mem
  rw [hmem, loadExtend_eq_extended] at hexec
  obtain ⟨hseq, hother, hown⟩ := hread.mod_frame rfl fun q => (q.gw d (Claims.extended size (Claims.number s.mem pa (sizeBytes size)))).advance 8
  refine ⟨_, hexec, ?_, fun x => ?_, hother, hown⟩
  · rw [State.setG, hseq, Claims.standsAt, Seq.advance, Seq.goto, Seq.gw_pc]; rfl
  · rw [State.setG_mem, hread.mem]

/-- R211: an aligned st outside the fold windows that is reached completes with its bytes written. -/
theorem storeCompletes : Claims.StoreCompletes := by
  intro s s1 v d a size order scope k off ea pa hsize hk hheld hea hpart hwin hal hreach hphys
  have h7 : size ≠ 7 := by rintro rfl; exact absurd hsize (by decide)
  rw [← sizeBytes_eq_width size h7] at hwin hal hphys ⊢
  have hread := State.reach_countBytes_readOnly _ _ _ _ _ (sizeBytes size) _ hreach
  have hexec := execSt_ok s s1 d a size order scope k off ea pa hk hheld hea hal (fun u hu => by rw [hpart] at hu; cases hu; exact hwin) hreach hphys
  obtain ⟨hseq, hother, hown⟩ := hread.mod_frame rfl fun q => q.advance 8
  refine ⟨_, hexec, hseq, fun i hi => ?_, fun x hx => ?_, hother, hown⟩
  · rw [State.advance_mem, State.writePhys_mem, hread.mem, Memory.read_writeN_in _ _ _ _ _ hi]
  · rw [State.advance_mem, State.writePhys_mem, hread.mem, Memory.read_writeN_out _ _ _ _ _ hx]

/-- Settles O17: a completed access is a read that reaches its address, or that and a write of the number's bytes, and then the
sequencer's own step. -/
theorem loadsAndStores : Obligations.LoadsAndStores := ⟨loadCompletes, storeCompletes⟩

end Sys2Proof.Machine

/-!
Numbered data: which entries a list that an update has changed still finds.
-/
namespace Sys2Proof.Machine

theorem mem_of_spFind {α : Type} (l : Sparse α) (n : Nat) (v : α) (h : spFind l n = some v) : (n, v) ∈ l := by
  induction l with
  | nil => cases h
  | cons e l ih =>
    obtain ⟨k, w⟩ := e
    rw [spFind] at h
    split at h
    · cases h; subst_vars; exact List.mem_cons_self
    · exact List.mem_cons_of_mem _ (ih h)

/-- A partition reads as it was last changed, and the others as before. -/
theorem State.part_modPart (s : State) (p r : Nat) (f : Part → Part) :
    (s.modPart p f).part? r = if r = p then (s.part? p).map f else s.part? r := by
  unfold State.modPart
  cases h : s.part? p with
  | none => simp only [Option.map_none]; split <;> simp_all
  | some v => simp only [State.part_setPart, Option.map_some]

end Sys2Proof.Machine

/-!
The invalidation sequencer of a partition: what the loss of operations leaves as it was (R135, R175).
-/
namespace Sys2Proof.Machine

/-- The operation at the head begins only where it is a pull, which is then marked as sent. -/
theorem State.invStart_cases (s : State) (p : Nat) : s.invStart p = s ∨ ∃ v g l, ∃ m : Migration, s.part? p = some v ∧ v.invq = .pull g none :: l ∧
    s.invStart p = (s.setPart p { v with invq := .pull g (some s.tick) :: l }).emit (.pull m.peer m.session g) := by
  unfold State.invStart
  split
  · exact .inl rfl
  · split
    · exact .inr ⟨_, _, _, _, ‹_›, ‹_›, rfl⟩
    · exact .inl rfl

@[simp] theorem State.invStart_regs (s : State) (p : Nat) : (s.invStart p).regs = s.regs := by
  rcases s.invStart_cases p with h | ⟨v, g, l, m, -, -, h⟩ <;> rw [h]; rfl

/-- The start of an operation tells at most the source of a pull. -/
theorem State.invStart_pkg (s : State) (p : Nat) : (s.invStart p).pkg = { s.pkg with out := (s.invStart p).pkg.out } := by
  rcases s.invStart_cases p with h | ⟨v, g, l, m, -, -, h⟩ <;> rw [h]; rfl

/-- The start of an operation changes at most the pull at the head, and brings no S2.UPDATE in. -/
theorem State.part_invStart (s : State) (p r : Nat) : ∃ l, (s.invStart p).part? r = (s.part? r).map (fun v => { v with invq := l }) ∧
    (InvOp.update ∈ l → ∃ v, s.part? r = some v ∧ InvOp.update ∈ v.invq) := by
  have same : ∃ l, s.part? r = (s.part? r).map (fun v => { v with invq := l }) ∧ (InvOp.update ∈ l → ∃ v, s.part? r = some v ∧ InvOp.update ∈ v.invq) := by
    cases h : s.part? r with
    | none => exact ⟨[], rfl, fun h => by cases h⟩
    | some v => exact ⟨v.invq, rfl, fun hv => ⟨v, rfl, hv⟩⟩
  rcases s.invStart_cases p with h | ⟨v, g, l, m, hp, hq, h⟩
  · rwa [h]
  · have hpart : (s.invStart p).part? r = if r = p then some { v with invq := .pull g (some s.tick) :: l } else s.part? r := by
      rw [h, State.emit, State.part?, State.modPkg_parts, ← State.part?, State.part_setPart]
    rw [hpart]
    split
    · subst r; exact ⟨_, by rw [hp]; rfl, fun hu => ⟨v, hp, by simpa [hq] using hu⟩⟩
    · exact same

@[simp] theorem State.invDrop_regs (s : State) (p : Nat) (test : InvOp → Bool) : (s.invDrop p test).regs = s.regs := by
  rw [State.invDrop, State.invStart_regs, State.modPart_regs]

@[simp] theorem State.invDrop_mem (s : State) (p : Nat) (test : InvOp → Bool) : (s.invDrop p test).mem = s.mem := by
  rw [State.invDrop, State.invStart_mem, State.modPart_mem]

theorem State.invDrop_pkg (s : State) (p : Nat) (test : InvOp → Bool) : (s.invDrop p test).pkg = { s.pkg with out := (s.invDrop p test).pkg.out } := by
  rw [State.invDrop, State.invStart_pkg, State.modPart_pkg]

/-- Operations that leave an invalidation sequencer change nothing else of its partition, and bring no S2.UPDATE in. -/
theorem State.part_invDrop (s : State) (p r : Nat) (test : InvOp → Bool) :
    ∃ l, (s.invDrop p test).part? r = (s.part? r).map (fun v => { v with invq := l }) ∧
      (InvOp.update ∈ l → (r = p → test .update = false) ∧ ∃ v, s.part? r = some v ∧ InvOp.update ∈ v.invq) := by
  obtain ⟨l, hl, hu⟩ := (s.modPart p fun v => { v with invq := v.invq.filter fun o => !test o }).part_invStart p r
  rw [State.part_modPart] at hl hu
  refine ⟨l, ?_, fun h => ?_⟩
  · rw [State.invDrop, hl]
    split
    · subst r; rw [Option.map_map]; rfl
    · rfl
  · obtain ⟨w, hw, hm⟩ := hu h
    split at hw
    · subst r
      obtain ⟨v, hv, rfl⟩ := Option.map_eq_some_iff.1 hw
      obtain ⟨hv', ht⟩ := List.mem_filter.1 hm
      exact ⟨fun _ => by simpa using ht, v, hv, hv'⟩
    · exact ⟨fun e => absurd e ‹_›, w, hw, hm⟩

end Sys2Proof.Machine

/-!
The header of a queue (R129, R130): fields written one after another, the frame of the work on a host queue, and what a stop leaves.
-/
namespace Sys2Proof.Machine

/-! ## Fields of a header -/

/-- Memory after fields of a header at `base` have been written in order: each has an offset, a number of bytes and a value. -/
def Memory.writeFields (m : Memory) (base : Nat) : List (Nat × Nat × Nat) → Memory
  | [] => m
  | w :: ws => (m.writeN (base + w.1) (toBytes w.2.1 w.2.2)).writeFields base ws

theorem Memory.writeFields_append (m : Memory) (base : Nat) (l l' : List (Nat × Nat × Nat)) :
    m.writeFields base (l ++ l') = (m.writeFields base l).writeFields base l' := by
  induction l generalizing m with
  | nil => rfl
  | cons w l ih => exact ih _

/-- A byte outside every field. -/
theorem Memory.read_writeFields_out (m : Memory) (base x : Nat) (l : List (Nat × Nat × Nat))
    (h : ∀ w ∈ l, ¬(base + w.1 ≤ x ∧ x < base + w.1 + w.2.1)) : (m.writeFields base l).read x = m.read x := by
  induction l generalizing m with
  | nil => rfl
  | cons w l ih =>
    rw [Memory.writeFields, ih _ fun u hu => h u (List.mem_cons_of_mem _ hu), Memory.read_writeN_out _ _ _ _ _ (h w List.mem_cons_self)]

/-- Byte `i` of a field that no later field of the list meets. -/
theorem Memory.read_writeFields_in (m : Memory) (base off n v i : Nat) (l l' : List (Nat × Nat × Nat)) (hi : i < n)
    (h : ∀ w ∈ l', off + n ≤ w.1 ∨ w.1 + w.2.1 ≤ off) :
    (m.writeFields base (l ++ (off, n, v) :: l')).read (base + off + i) = BitVec.ofNat 8 (v / 256 ^ i) := by
  rw [Memory.writeFields_append, Memory.writeFields, Memory.read_writeFields_out _ _ _ _ fun w hw => by have := h w hw; omega,
    Memory.read_writeN_in _ _ _ _ _ hi]

/-- The number in a field that no later field of the list meets. -/
theorem number_writeFields (m : Memory) (base off n v : Nat) (l l' : List (Nat × Nat × Nat)) (h : ∀ w ∈ l', off + n ≤ w.1 ∨ w.1 + w.2.1 ≤ off) :
    Claims.number (m.writeFields base (l ++ (off, n, v) :: l')) (base + off) n = v % 256 ^ n := by
  rw [← number_writeN_same m (base + off) n v]
  refine number_congr _ _ _ _ fun i hi => ?_
  rw [Memory.read_writeFields_in _ _ _ _ _ _ _ _ hi h, Memory.read_writeN_in _ _ _ _ _ hi]

/-! ## The frame of the work on a host queue -/

/-- `t` differs from `s` at most in memory, in what the package has sent, and in partitions, of which partition `p` keeps its fold
windows and its faults: the frame of the work on a queue of `p`. -/
structure State.QueueWork (p : Nat) (s t : State) : Prop where
  regs : t.regs = s.regs
  pkg : t.pkg = { s.pkg with out := t.pkg.out }
  part : ∀ v, s.part? p = some v → ∃ w, t.part? p = some w ∧ w.windows = v.windows ∧ w.faults = v.faults

theorem State.QueueWork.rfl (p : Nat) (s : State) : State.QueueWork p s s where
  regs := Eq.refl _
  pkg := Eq.refl _
  part v hv := ⟨v, hv, Eq.refl _, Eq.refl _⟩

theorem State.QueueWork.trans {p : Nat} {s t u : State} (h : State.QueueWork p s t) (g : State.QueueWork p t u) : State.QueueWork p s u where
  regs := g.regs.trans h.regs
  pkg := by rw [g.pkg, h.pkg]
  part v hv := by
    obtain ⟨w, hw, h1, h2⟩ := h.part v hv
    obtain ⟨x, hx, h3, h4⟩ := g.part w hw
    exact ⟨x, hx, h3.trans h1, h4.trans h2⟩

theorem State.QueueWork.reg {p : Nat} {s t : State} (h : State.QueueWork p s t) (r : Nat) : t.reg r = s.reg r := by
  rw [State.reg, State.reg, h.regs]

theorem State.modPart_queueWork (s : State) (p : Nat) (f : Part → Part) (hw : ∀ v, (f v).windows = v.windows) (hf : ∀ v, (f v).faults = v.faults) :
    State.QueueWork p s (s.modPart p f) where
  regs := State.modPart_regs ..
  pkg := by rw [State.modPart_pkg]
  part v hv := ⟨f v, by rw [State.part_modPart, if_pos rfl, hv]; rfl, hw v, hf v⟩

theorem State.modQueue_queueWork (s : State) (p q : Nat) (f : HQueue → HQueue) : State.QueueWork p s (s.modQueue p q f) :=
  s.modPart_queueWork p _ (fun v => by split <;> rfl) (fun v => by split <;> rfl)

theorem State.invDrop_queueWork (s : State) (p : Nat) (test : InvOp → Bool) : State.QueueWork p s (s.invDrop p test) where
  regs := s.invDrop_regs p test
  pkg := s.invDrop_pkg p test
  part v hv := by
    obtain ⟨l, hl, -⟩ := s.part_invDrop p p test
    exact ⟨{ v with invq := l }, by rw [hl, hv]; rfl, rfl, rfl⟩

theorem State.countBytes_queueWork (s : State) (p pa n : Nat) : State.QueueWork p s (s.countBytes p pa n) where
  regs := State.countBytes_regs ..
  pkg := by rw [State.countBytes_pkg]
  part v hv := by
    obtain ⟨m, hm⟩ := (s.countBytes_readOnly { part := p, region := none, unit := 0xFD } p pa n).part p
    exact ⟨{ v with meter := m }, by rw [hm, hv]; rfl, rfl, rfl⟩

theorem State.writePhys_queueWork (s : State) (p pa n v : Nat) : State.QueueWork p s (s.writePhys pa n v) where
  regs := rfl
  pkg := rfl
  part v hv := ⟨v, hv, rfl, rfl⟩

/-! ## A queue of a partition -/

@[simp] theorem State.modQueue_mem (s : State) (p q : Nat) (f : HQueue → HQueue) : (s.modQueue p q f).mem = s.mem := State.modPart_mem ..

/-- A queue reads as it was last changed. -/
theorem State.queue_modQueue (s : State) (p q : Nat) (f : HQueue → HQueue) : (s.modQueue p q f).queue? p q = (s.queue? p q).map f := by
  unfold State.queue? State.modQueue
  rw [State.part_modPart, if_pos rfl]
  cases s.part? p with
  | none => rfl
  | some v =>
    simp only [Option.map_some, Option.bind_some]
    cases h : spFind v.queues q with
    | none => simpa using h
    | some g => simp [spFind_spInsert]

/-- A change of a partition that leaves its queues leaves each of them. -/
theorem State.queue_modPart (s : State) (p q : Nat) (f : Part → Part) (h : ∀ v, (f v).queues = v.queues) :
    (s.modPart p f).queue? p q = s.queue? p q := by
  unfold State.queue?
  rw [State.part_modPart, if_pos rfl]
  cases s.part? p with
  | none => rfl
  | some v => simp [h]

theorem State.queue_invDrop (s : State) (p q : Nat) (test : InvOp → Bool) : (s.invDrop p test).queue? p q = s.queue? p q := by
  obtain ⟨l, hl, -⟩ := s.part_invDrop p p test
  rw [State.queue?, hl, State.queue?]
  cases s.part? p <;> rfl

theorem State.queue_countBytes (s : State) (p q pa n : Nat) : (s.countBytes p pa n).queue? p q = s.queue? p q := by
  obtain ⟨m, hm⟩ := (s.countBytes_readOnly { part := p, region := none, unit := 0xFD } p pa n).part p
  rw [State.queue?, hm, State.queue?]
  cases s.part? p <;> rfl

@[simp] theorem State.queue_writePhys (s : State) (p q pa n v : Nat) : (s.writePhys pa n v).queue? p q = s.queue? p q := rfl

/-! ## A header that lies in memory and can be written -/

/-- What stands against a write depends on neither memory nor what the package has sent. -/
theorem State.physFault_write_congr (s t : State) (pa n : Nat) (h : t.pkg = { s.pkg with out := t.pkg.out }) :
    t.physFault pa n .write = s.physFault pa n .write := by
  have hpop : t.populated pa = s.populated pa := by rw [State.populated, State.populated, State.presentDie, State.presentDie, h]
  have href : t.hostRefuses (pa - hostBase) n = s.hostRefuses (pa - hostBase) n := by rw [State.hostRefuses, State.hostRefuses, h]
  simp only [State.physFault, hpop, href, bne_self_eq_false, Bool.false_and, Bool.false_eq_true, if_false]

/-- Work on a queue leaves its header where it lies. -/
theorem State.QueueWork.headerLies {p : Nat} {s t : State} (hw : State.QueueWork p s t) (h g : HQueue) (base : Nat) (hva : g.va = h.va)
    (hext : g.extents = h.extents) (hl : Claims.HeaderLies s p h base) : Claims.HeaderLies t p g base := by
  obtain ⟨x, v, hv, hx, hbase, hwr, hwr2, hrep, hrepl, hwin, hfault, hphys⟩ := hl
  obtain ⟨w, hw', hwin', hfaults⟩ := hw.part v hv
  refine ⟨x, w, hw', by rwa [hva, hext], by rwa [hva], hwr, hwr2, hrep, by rw [hw.pkg]; exact hrepl, ?_, fun o ho => ?_, fun o n ho => ?_⟩
  · rw [hva, inWindow, hwin', ← inWindow]; exact hwin
  · have := hfault o ho
    simp only [State.faultAt, hv, hw', hfaults, hva] at this ⊢
    exact this
  · rw [State.physFault_write_congr _ _ _ _ hw.pkg]; exact hphys o n ho

end Sys2Proof.Machine

/-!
The writes of a host queue to its header, where nothing stands against them, and its stop (R129, R130).
-/
namespace Sys2Proof.Machine

/-! ## The fields that a registration and a stop write -/

theorem regWrites_range : ∀ w ∈ regWrites, 0x14 ≤ w.1 ∧ 0 < w.2.1 ∧ w.1 + w.2.1 ≤ 64 := by decide

theorem stopWrites_range (cons idx : Nat) (c : BitVec 9) : ∀ w ∈ stopWrites cons idx c, 0x14 ≤ w.1 ∧ 0 < w.2.1 ∧ w.1 + w.2.1 ≤ 64 := by
  simp [stopWrites, zeroWrites]

/-! ## Writes to a host queue's header -/

/-- An address of a header that lies in memory is reached through the queue's own translation. -/
theorem State.queueReach_headerLies (s : State) (p : Nat) (h : HQueue) (base off : Nat) (k : AKind) (hl : Claims.HeaderLies s p h base) (hoff : off < 64)
    (hk : k ≠ .fetch) : s.queueReach p h (h.va + off) k = (s, .ok (base + off)) := by
  obtain ⟨x, v, hv, hx, hbase, hwr, hwr2, hrep, hrepl, hwin, hfault, hphys⟩ := hl
  have hle : x.va ≤ h.va := by
    have := List.find?_some (hx 0 (by omega))
    simp only [Bool.and_eq_true, decide_eq_true_eq] at this
    exact this.1.2
  have hpa : x.pa + (h.va + off - x.va) = base + off := by omega
  rw [State.queueReach, hx off hoff]
  simp only [State.useXlate, xdWho, outsideWho, hfault off hoff, hpa, hwr, hwr2, hrep, hrepl]
  cases k <;> simp_all

/-- A write to a header that lies in memory writes its field. -/
theorem State.queueWrite_headerLies (s : State) (p : Nat) (h : HQueue) (base off n v : Nat) (hl : Claims.HeaderLies s p h base) (hn : 0 < n) (hoff : off + n ≤ 64) :
    s.queueWrite p h off n v = ((s.countBytes p (base + off) n).writePhys (base + off) n v, .ok ()) := by
  have hreach := State.queueReach_headerLies s p h base off .write hl (by omega) (by decide)
  obtain ⟨x, u, hu, -, -, -, -, -, -, hwin, -, hphys⟩ := hl
  have hwin' : inWindow u (h.va + off) n = false := by
    simp only [inWindow, List.any_eq_false, Bool.and_eq_true, decide_eq_true_eq] at hwin ⊢
    intro w hw
    have := hwin w hw
    omega
  simp only [State.queueWrite, hu, hwin', Bool.false_eq_true, if_false, hreach, hphys off n hoff]

/-- A queue that owes nothing to its header writes nothing. -/
theorem State.flushQueue_nil (s : State) (p q f : Nat) (h : HQueue) (hq : s.queue? p q = some h) (ho : h.owed = []) : s.flushQueue p q f = s := by
  cases f with
  | zero => rfl
  | succ f => simp only [State.flushQueue, hq, ho]

/-- The writes that a queue owes are all made, where its header lies in memory. -/
theorem State.flushQueue_headerLies (p q base : Nat) (l : List (Nat × Nat × Nat)) : ∀ (s : State) (h : HQueue) (f : Nat), l.length < f →
    (∀ w ∈ l, 0 < w.2.1 ∧ w.1 + w.2.1 ≤ 64) → s.queue? p q = some h → h.owed = l → Claims.HeaderLies s p h base →
    State.QueueWork p s (s.flushQueue p q f) ∧ (s.flushQueue p q f).queue? p q = some { h with owed := [] } ∧
      (s.flushQueue p q f).mem = s.mem.writeFields base l := by
  induction l with
  | nil =>
    intro s h f _ _ hq ho _
    rw [s.flushQueue_nil p q f h hq ho]
    exact ⟨.rfl p s, by rw [hq, ← ho], rfl⟩
  | cons w l ih =>
    intro s h f hf hw hq ho hl
    obtain ⟨off, n, v⟩ := w
    obtain ⟨f, rfl⟩ : ∃ g, f = g + 1 := ⟨f - 1, by simp at hf; omega⟩
    obtain ⟨hn, hoff⟩ := hw (off, n, v) List.mem_cons_self
    let s1 := ((s.countBytes p (base + off) n).writePhys (base + off) n v).modQueue p q fun g => { g with owed := l }
    have hwork : State.QueueWork p s s1 :=
      ((s.countBytes_queueWork p _ n).trans (State.writePhys_queueWork _ p _ n v)).trans (State.modQueue_queueWork _ p q _)
    have hq1 : s1.queue? p q = some { h with owed := l } := by
      rw [State.queue_modQueue, State.queue_writePhys, State.queue_countBytes, hq]; rfl
    have hmem1 : s1.mem = s.mem.writeN (base + off) (toBytes n v) := by
      rw [State.modQueue_mem, State.writePhys_mem, State.countBytes_mem]
    have hstep : s.flushQueue p q (f + 1) = s1.flushQueue p q f := by
      simp only [State.flushQueue, hq, ho, State.queueWrite_headerLies s p h base off n v hl hn hoff]; rfl
    obtain ⟨h1, h2, h3⟩ := ih s1 { h with owed := l } f (by simpa using hf) (fun w hw' => hw w (List.mem_cons_of_mem _ hw')) hq1 rfl
      (hwork.headerLies h _ base rfl rfl hl)
    rw [hstep]
    exact ⟨hwork.trans h1, h2, by rw [h3, hmem1, Memory.writeFields]⟩

/-! ## The stop -/

/-- The header of a queue that has stopped, byte by byte. -/
theorem stoppedAt_of_stopWrites (m : Memory) (t : State) (p q : Nat) (h g : HQueue) (base idx : Nat) (c : BitVec 9) (hq : t.queue? p q = some g)
    (hg : g.stopped = true ∧ g.wait = .none ∧ g.cons = h.cons ∧ g.owed = []) (hm : t.mem = m.writeFields base (stopWrites h.cons idx c)) :
    Claims.StoppedAt m t p q h base idx c := by
  have field (off n v i : Nat) (l l' : List (Nat × Nat × Nat)) (hl : stopWrites h.cons idx c = l ++ (off, n, v) :: l') (hi : i < n)
      (hd : ∀ w ∈ l', off + n ≤ w.1 ∨ w.1 + w.2.1 ≤ off) : t.mem.read (base + off + i) = BitVec.ofNat 8 (v / 256 ^ i) := by
    rw [hm, hl, Memory.read_writeFields_in _ _ _ _ _ _ _ _ hi hd]
  refine ⟨⟨g, hq, hg⟩, fun i hi => ⟨?_, ?_, ?_⟩, fun i hi => ⟨?_, ?_, ?_⟩, fun x h1 h2 => ?_⟩
  · exact field 0x14 4 1 i [_, _, _, _, _] [] rfl hi (by simp)
  · exact field 0x18 4 c.toNat i [_, _, _, _] _ rfl hi (by simp)
  · simpa using field 0x1C 4 0 i [_, _] _ rfl hi (by simp)
  · exact field 0x28 8 h.cons i [] _ rfl hi (by simp [zeroWrites])
  · exact field 0x30 8 idx i [_] _ rfl hi (by simp [zeroWrites])
  · simpa using field 0x38 8 0 i [_, _, _] _ rfl hi (by simp)
  · rw [hm, Memory.read_writeFields_out]
    simp only [stopWrites, zeroWrites, List.cons_append, List.nil_append, List.forall_mem_cons]
    exact ⟨by omega, by omega, by omega, by omega, by omega, by omega, by simp⟩

/-- A running queue whose header lies in memory stops with the cause and the packet in its header. -/
theorem State.queueStop_headerLies (s : State) (p q base idx : Nat) (h : HQueue) (c : BitVec 9) (hq : s.queue? p q = some h) (hs : h.stopped = false)
    (hl : Claims.HeaderLies s p h base) :
    State.QueueWork p s (s.queueStop p q c idx) ∧ Claims.StoppedAt s.mem (s.queueStop p q c idx) p q h base idx c := by
  let g : HQueue := { h with stopped := true, wait := .none, owed := stopWrites h.cons idx c }
  have hstop : s.queueStop p q c idx = (s.markStopped p q c idx).flushQueue p q 16 := by
    simp only [State.queueStop, hq, hs, Bool.false_eq_true, if_false]
  have hwork : State.QueueWork p s (s.markStopped p q c idx) :=
    ((s.invDrop_queueWork p _).trans (State.modQueue_queueWork _ p q _)).trans (State.modPart_queueWork _ p _ (fun _ => rfl) (fun _ => rfl))
  have hqueue : (s.markStopped p q c idx).queue? p q = some g := by
    rw [State.markStopped, State.queue_modPart, State.queue_modQueue, State.queue_invDrop, hq]
    · rfl
    · exact fun _ => rfl
  have hmem : (s.markStopped p q c idx).mem = s.mem := by
    rw [State.markStopped, State.modPart_mem, State.modQueue_mem, State.invDrop_mem]
  obtain ⟨h1, h2, h3⟩ := State.flushQueue_headerLies p q base (stopWrites h.cons idx c) _ g 16 (by simp [stopWrites, zeroWrites])
    (fun w hw => (stopWrites_range _ _ _ w hw).2) hqueue rfl
    (hwork.headerLies h g base rfl rfl hl)
  rw [hstop]
  exact ⟨hwork.trans h1, stoppedAt_of_stopWrites _ _ p q h _ base idx c h2 ⟨rfl, rfl, rfl, rfl⟩ (by rw [h3, hmem])⟩

end Sys2Proof.Machine

/-!
The read of a host queue's header (R130).
-/
namespace Sys2Proof.Machine

/-- The checks of R130. -/
theorem prodOk_iff (prod last cons slots log2 reg : Nat) :
    prodOk prod last cons slots log2 reg = true ↔ last ≤ prod ∧ cons ≤ prod ∧ prod - cons ≤ slots ∧ log2 = reg := by
  simp only [prodOk, Bool.and_eq_true, decide_eq_true_eq, beq_iff_eq, and_assoc]

/-- The read of a header that lies in memory only counts its bytes. -/
theorem State.queueRead_headerLies (s s1 : State) (p : Nat) (h : HQueue) (base n : Nat) (bs : List Byte) (hl : Claims.HeaderLies s p h base)
    (hr : s.queueRead p h h.va n = (s1, .ok bs)) : s1 = s.countBytes p base n := by
  have hreach : s.queueReach p h h.va .read = (s, .ok base) := State.queueReach_headerLies s p h base 0 .read hl (by omega) (by decide)
  rw [State.queueRead, hreach] at hr
  simp only at hr
  split at hr
  · cases hr
  · cases hr; rfl

/-- R130: the read of a host queue's header takes the new prod or stops the queue. -/
theorem headerRead : Claims.HeaderRead := by
  intro s s1 p q base v h bs hp hq hv hh hstate hs ho hr hl prod good
  have hqueue : s.queue? p q = some h := by rw [State.queue?, hv]; exact hh
  have hgood : prodOk (numAt bs 0 8) h.prod h.cons h.slots (numAt bs 0x10 4) h.log2 = true ↔ good := prodOk_iff ..
  have hexec : exec (.headerLineChange (.host p q)) s = .next (if prodOk (numAt bs 0 8) h.prod h.cons h.slots (numAt bs 0x10 4) h.log2 then
      s1.modQueue p q (fun g => { g with prod := numAt bs 0 8 }) else s1.queueStop p q Cause.queueCorrupt h.cons) := by
    have hstate' : (v.state == .resetting) = false := beq_eq_false_iff_ne.2 hstate
    simp only [exec, execHeaderLineChange, hp, hq, and_self, if_true, State.hostLine, hv, hqueue, hstate', hs, Bool.or_self, Bool.false_eq_true, if_false, ho,
      List.isEmpty_nil, Bool.not_true, hr]
  have hs1 : s1 = s.countBytes p base 64 := State.queueRead_headerLies s s1 p h base 64 bs hl hr
  have hwork : State.QueueWork p s s1 := hs1 ▸ s.countBytes_queueWork p base 64
  have hmem : s1.mem = s.mem := hs1 ▸ s.countBytes_mem p base 64
  have hqueue1 : s1.queue? p q = some h := by rw [hs1, State.queue_countBytes, hqueue]
  refine ⟨_, hexec, ?_⟩
  by_cases hg : good
  · rw [if_pos (hgood.2 hg)]
    have htake := hwork.trans (s1.modQueue_queueWork p q fun g => { g with prod := numAt bs 0 8 })
    refine ⟨htake.reg, fun _ => ⟨?_, fun x => by rw [State.modQueue_mem, hmem]⟩, fun hn => absurd hg hn⟩
    rw [State.queue_modQueue, hqueue1]; rfl
  · rw [if_neg (fun h => hg (hgood.1 h))]
    obtain ⟨hstop, hheader⟩ := State.queueStop_headerLies s1 p q base h.cons h Cause.queueCorrupt hqueue1 hs (hwork.headerLies h h base rfl rfl hl)
    exact ⟨(hwork.trans hstop).reg, fun hn => absurd hn hg, fun _ => hmem ▸ hheader⟩

end Sys2Proof.Machine

/-!
S2.UPDATE commands that leave the invalidation sequencers, and creates that are given up (R135, R175, R180).
-/
namespace Sys2Proof.Machine

/-! ## A range whose key is gone -/

theorem spFind_filter_key {α : Type} (l : Sparse α) (f : Nat → Bool) (n : Nat) (h : f n = true) : spFind (l.filter fun e => f e.1) n = spFind l n := by
  induction l with
  | nil => rfl
  | cons e l ih =>
    obtain ⟨k, v⟩ := e
    rw [List.filter_cons]
    by_cases hk : k = n
    · subst k; simp [h, spFind]
    · split <;> simp [spFind, hk, ih]

/-- A byte outside a range whose key goes reads as before. -/
theorem Memory.read_kill_out (m : Memory) (base len gen x : Nat) (h : ¬(base ≤ x ∧ x < base + len)) : (m.kill base len gen).read x = m.read x := by
  have hnew : (decide (base ≤ x) && decide (x < base + len)) = false := by
    rw [Bool.and_eq_false_iff, decide_eq_false_iff_not, decide_eq_false_iff_not]; omega
  have hout : (!(decide (base ≤ x) && decide (x < base + len))) = true := by rw [hnew]; rfl
  have hfresh : x ∈ (m.kill base len gen).fresh ↔ x ∈ m.fresh := by
    simp only [Memory.kill, List.mem_filter, hout, and_true]
  have hfind : (m.kill base len gen).stale.find? (fun r => decide (r.base ≤ x) && decide (x < r.base + r.len)) =
      m.stale.find? (fun r => decide (r.base ≤ x) && decide (x < r.base + r.len)) := by
    simp only [Memory.kill, List.find?_cons, hnew, List.find?_filter]
    congr 1
    funext r
    simp only [Bool.and_eq_true, decide_eq_true_eq, Bool.not_eq_true', Bool.and_eq_false_iff, decide_eq_false_iff_not]
    grind
  have hcells : spGet unlisted (m.kill base len gen).cells x = spGet unlisted m.cells x := by
    simp only [spGet, Memory.kill]
    rw [spFind_filter_key m.cells (fun a => !(decide (base ≤ a) && decide (a < base + len))) x hout]
  simp only [Memory.read, Memory.staleAt, hfresh, hfind, hcells]

/-! ## What the loss of the commands leaves -/

theorem isHost_iff (x : Nat) : isHost x = true ↔ hostBase ≤ x ∧ x < hostBase + 2 ^ 46 := by
  rw [isHost, Bool.and_eq_true, decide_eq_true_eq, decide_eq_true_eq]

/-- `t` differs from `s` at most in partitions, sets, VC keys, what the package has sent, and memory outside the host's. -/
structure State.UpdatesDropped (s t : State) : Prop where
  regs : t.regs = s.regs
  pkg : t.pkg = { s.pkg with keySlots := t.pkg.keySlots, out := t.pkg.out }
  host : ∀ x, isHost x = true → t.mem.read x = s.mem.read x

theorem State.UpdatesDropped.rfl (s : State) : State.UpdatesDropped s s where
  regs := Eq.refl _
  pkg := Eq.refl _
  host _ _ := Eq.refl _

theorem State.UpdatesDropped.trans {s t u : State} (h : State.UpdatesDropped s t) (g : State.UpdatesDropped t u) : State.UpdatesDropped s u where
  regs := g.regs.trans h.regs
  pkg := by rw [g.pkg, h.pkg]
  host x hx := (g.host x hx).trans (h.host x hx)

/-- A number in the host's memory. -/
theorem State.UpdatesDropped.number {s t : State} (h : State.UpdatesDropped s t) (a n : Nat) (ha : hostBase ≤ a) (hn : a + n ≤ hostBase + 2 ^ 46) :
    Claims.number t.mem a n = Claims.number s.mem a n :=
  number_congr _ _ a n fun i hi => h.host _ (by rw [isHost_iff]; omega)

/-- No byte of the host's memory lies in a stage-2 frame outside it. -/
theorem not_mem_frame_of_isHost (e x : Nat) (hf : isHost (s2Frame e) = false) (hx : isHost x = true) : ¬(s2Frame e ≤ x ∧ x < s2Frame e + 2 ^ 21) := by
  obtain ⟨k, hk⟩ : ∃ k, s2Frame e = k * 2097152 := ⟨_, rfl⟩
  have hbase : hostBase = 8796093022208 := rfl
  have hf' : ¬ (hostBase ≤ s2Frame e ∧ s2Frame e < hostBase + 2 ^ 46) := by rw [← isHost_iff, hf]; exact Bool.false_ne_true
  rw [isHost_iff] at hx
  omega

theorem State.unform_updatesDropped (s : State) (p : Nat) (v : Part) : State.UpdatesDropped s (s.unform p v) := by
  unfold State.unform
  simp only
  generalize hl : (((s.s2Entries v).filter fun e => s2Type e.2 == 1 && !isHost (s2Frame e.2)).map fun e => s2Frame e.2) = l
  have hkill : State.UpdatesDropped s (l.foldl (fun (st : State) (f : Nat) => st.modMem fun m => m.kill f (2 ^ 21) st.steps) s) := by
    refine List.foldlRecOn l _ (State.UpdatesDropped.rfl s) fun t ht f hf => ht.trans ⟨rfl, rfl, fun x hx => ?_⟩
    rw [← hl] at hf
    obtain ⟨e, he, rfl⟩ := List.mem_map.1 hf
    have hkeep := (List.mem_filter.1 he).2
    simp only [Bool.and_eq_true, Bool.not_eq_true'] at hkeep
    exact Memory.read_kill_out _ _ _ _ x (not_mem_frame_of_isHost e.2 x hkeep.2 hx)
  exact hkill.trans ⟨rfl, rfl, fun _ _ => rfl⟩

theorem State.invDrop_updatesDropped (s : State) (p : Nat) (test : InvOp → Bool) : State.UpdatesDropped s (s.invDrop p test) where
  regs := s.invDrop_regs p test
  pkg := by rw [s.invDrop_pkg p test]
  host x _ := by rw [s.invDrop_mem p test]

theorem State.dropForming_updatesDropped (s : State) : State.UpdatesDropped s s.dropForming :=
  List.foldlRecOn _ _ (State.UpdatesDropped.rfl s) fun t ht e _ => ht.trans (t.unform_updatesDropped e.1 e.2)

theorem State.dropUpdates_updatesDropped (s : State) : State.UpdatesDropped s s.dropUpdates := by
  refine List.foldlRecOn _ _ s.dropForming_updatesDropped fun t ht e _ => ht.trans ?_
  split
  · exact t.invDrop_updatesDropped e.1 _
  · exact .rfl t

/-! ## Which commands are left -/

/-- The S2.UPDATE commands of the partitions of a list leave their sequencers; where all that wait are theirs, none is left. -/
theorem State.part_dropList (l : List (Nat × Part)) : ∀ s : State,
    (∀ p w, s.part? p = some w → InvOp.update ∈ w.invq → ∃ e ∈ l, e.1 = p ∧ e.2.invq.contains .update = true) →
    ∀ p w, (l.foldl (fun (st : State) (e : Nat × Part) => if e.2.invq.contains .update then st.invDrop e.1 (· == .update) else st) s).part? p = some w →
      InvOp.update ∉ w.invq := by
  induction l with
  | nil =>
    intro s h p w hw hu
    obtain ⟨e, he, -⟩ := h p w hw hu
    cases he
  | cons e l ih =>
    intro s h
    refine ih _ fun p w hw hu => ?_
    dsimp only at hw
    split at hw
    · obtain ⟨o, ho, hkeep⟩ := s.part_invDrop e.1 p (· == .update)
      rw [ho] at hw
      obtain ⟨v, hv, rfl⟩ := Option.map_eq_some_iff.1 hw
      obtain ⟨hne, v', hv', hu'⟩ := hkeep hu
      obtain ⟨e', he', rfl, hc⟩ := h p v' hv' hu'
      rcases List.mem_cons.1 he' with rfl | he'
      · exact absurd (hne rfl) (by simp)
      · exact ⟨e', he', rfl, hc⟩
    · obtain ⟨e', he', rfl, hc⟩ := h p w hw hu
      rcases List.mem_cons.1 he' with rfl | he'
      · contradiction
      · exact ⟨e', he', rfl, hc⟩

/-- No S2.UPDATE is left in an invalidation sequencer. -/
theorem State.part_dropUpdates (s : State) (p : Nat) (w : Part) (h : s.dropUpdates.part? p = some w) : InvOp.update ∉ w.invq :=
  State.part_dropList _ s.dropForming (fun p w hw hu => ⟨(p, w), mem_of_spFind _ p w hw, rfl, by simpa using hu⟩) p w h

/-! ## Where no create waits -/

theorem State.dropForming_eq (s : State) (h : ∀ e ∈ s.parts, e.2.forming = none) : s.dropForming = s := by
  have : s.parts.filter (fun e => e.2.forming.isSome) = [] := by
    rw [List.filter_eq_nil_iff]; intro e he; simp [h e he]
  rw [State.dropForming, this, List.foldl_nil]

/-- Where no create and no S2.UPDATE waits, nothing changes. -/
theorem State.dropUpdates_eq (s : State) (h : ∀ e ∈ s.parts, InvOp.update ∉ e.2.invq ∧ e.2.forming = none) : s.dropUpdates = s := by
  rw [State.dropUpdates, s.dropForming_eq fun e he => (h e he).2]
  refine List.foldlRecOn (motive := fun t => t = s) _ _ rfl fun t ht e he => ?_
  rw [if_neg (by simpa using (h e he).1), ht]

/-- Operations that leave an invalidation sequencer let no create wait. -/
theorem State.forming_invDrop (s : State) (p : Nat) (test : InvOp → Bool) (h : ∀ e ∈ s.parts, e.2.forming = none) :
    ∀ e ∈ (s.invDrop p test).parts, e.2.forming = none := by
  have hmod : ∀ e ∈ (s.modPart p fun v => { v with invq := v.invq.filter fun o => !test o }).parts, e.2.forming = none := by
    intro e he
    cases hp : s.part? p with
    | none => simp only [State.modPart, hp] at he; exact h e he
    | some v =>
      simp only [State.modPart, hp] at he
      rcases mem_spInsert _ _ _ _ he with rfl | he
      · exact h (p, v) (mem_of_spFind _ _ _ hp)
      · exact h e he
  rw [State.invDrop]
  rcases State.invStart_cases _ p with hi | ⟨v, g, l, m, hp, -, hi⟩
  · rwa [hi]
  · rw [hi]
    intro e he
    rcases mem_spInsert _ _ _ _ he with rfl | he
    · exact hmod (p, v) (mem_of_spFind _ _ _ hp)
    · exact hmod e he

/-- Where no create waits, memory stays as it is, and no create waits then. -/
theorem State.dropUpdates_not_forming (s : State) (h : ∀ e ∈ s.parts, e.2.forming = none) :
    s.dropUpdates.mem = s.mem ∧ ∀ e ∈ s.dropUpdates.parts, e.2.forming = none := by
  rw [State.dropUpdates, s.dropForming_eq h]
  refine List.foldlRecOn (motive := fun t : State => t.mem = s.mem ∧ ∀ e ∈ t.parts, e.2.forming = none) _ _ ⟨rfl, h⟩ fun t ⟨hm, hf⟩ e _ => ?_
  split
  · exact ⟨by rw [State.invDrop_mem, hm], t.forming_invDrop e.1 _ hf⟩
  · exact ⟨hm, hf⟩

end Sys2Proof.Machine

/-!
The CFW queue: the writes to its header, its stop and its registration (R129, R130, R135).
-/
namespace Sys2Proof.Machine

/-! ## Writes to the header -/

/-- Where the host refuses nothing, its memory can be written. -/
theorem State.physFault_hostWrite (s : State) (pa n : Nat) (hd : s.pkg.denied = []) (hpa : hostBase ≤ pa) (hlt : pa < hostBase + 2 ^ 46) :
    s.physFault pa n .write = none := by
  have hbase : hostBase = 8796093022208 := rfl
  have hpop : s.populated pa = true := by
    rw [State.populated, if_neg (by omega)]
    simp only [hpa, hlt, decide_true, Bool.and_self, Bool.or_true, Bool.true_or]
  simp only [State.physFault, State.hostRefuses, hd, List.any_nil, hpop, Bool.and_false, bne_self_eq_false, Bool.false_and, Bool.not_true,
    Bool.false_eq_true, if_false]

theorem State.cfwBars_none (s : State) (c : CfwQueue) (w : Nat × Nat × Nat) (hd : s.pkg.denied = []) (hpa : c.pa + 64 ≤ 2 ^ 46)
    (hw : 0 < w.2.1 ∧ w.1 + w.2.1 ≤ 64) : s.cfwBars c w = none :=
  s.physFault_hostWrite _ _ hd (by omega) (by omega)

/-- Writes that fault are lost, and nothing but memory changes. -/
theorem State.cfwTry_modMem (c : CfwQueue) (l : List (Nat × Nat × Nat)) (s : State) : ∃ m, s.cfwTry c l = { s with mem := m } := by
  refine List.foldlRecOn (motive := fun t : State => ∃ m, t = { s with mem := m }) l _ ⟨s.mem, rfl⟩ fun t ⟨m, hm⟩ w _ => ?_
  subst hm
  split
  · exact ⟨m, rfl⟩
  · exact ⟨_, rfl⟩

/-- Where the host refuses nothing, the fields are written. -/
theorem State.cfwTry_eq (c : CfwQueue) (l : List (Nat × Nat × Nat)) (hpa : c.pa + 64 ≤ 2 ^ 46) (hl : ∀ w ∈ l, 0 < w.2.1 ∧ w.1 + w.2.1 ≤ 64) :
    ∀ s : State, s.pkg.denied = [] → s.cfwTry c l = { s with mem := s.mem.writeFields (hostBase + c.pa) l } := by
  induction l with
  | nil => exact fun _ _ => rfl
  | cons w l ih =>
    intro s hd
    have hstep : s.cfwTry c (w :: l) = (s.writePhys (hostBase + c.pa + w.1) w.2.1 w.2.2).cfwTry c l := by
      simp only [State.cfwTry, List.foldl_cons, s.cfwBars_none c w hd hpa (hl w List.mem_cons_self), Option.isSome_none, Bool.false_eq_true, if_false]
    rw [hstep]
    exact ih (fun u hu => hl u (List.mem_cons_of_mem _ hu)) _ hd

/-- Where the host refuses nothing, a running queue takes its writes. -/
theorem State.cfwPut_eq (c : CfwQueue) (l : List (Nat × Nat × Nat)) (hpa : c.pa + 64 ≤ 2 ^ 46) (hl : ∀ w ∈ l, 0 < w.2.1 ∧ w.1 + w.2.1 ≤ 64) :
    ∀ s : State, s.pkg.denied = [] → s.cfwPut c l = { s with mem := s.mem.writeFields (hostBase + c.pa) l } := by
  induction l with
  | nil => exact fun _ _ => rfl
  | cons w l ih =>
    intro s hd
    rw [State.cfwPut, s.cfwBars_none c w hd hpa (hl w List.mem_cons_self)]
    exact ih (fun u hu => hl u (List.mem_cons_of_mem _ hu)) _ hd

/-! ## The stop -/

/-- A stop changes no region, and its queue has stopped, whatever the host refuses. -/
theorem State.cfwStop_frame (s : State) (c : CfwQueue) (k : BitVec 9) :
    (s.cfwStop c k).regs = s.regs ∧ (s.cfwStop c k).pkg.cfw = some { c with stopped := true } := by
  obtain ⟨m, hm⟩ := State.cfwTry_modMem c (stopWrites c.cons c.cons k) s
  have hdrop := (({ s with mem := m } : State).modPkg fun k => { k with cfw := some { c with stopped := true } }).dropUpdates_updatesDropped
  rw [State.cfwStop, hm]
  exact ⟨hdrop.regs, by rw [hdrop.pkg]; rfl⟩

/-- A stop whose header the host does not refuse. -/
theorem State.cfwStop_eq (s : State) (c : CfwQueue) (k : BitVec 9) (hd : s.pkg.denied = []) (hpa : c.pa + 64 ≤ 2 ^ 46) :
    s.cfwStop c k = State.dropUpdates { s with
      mem := s.mem.writeFields (hostBase + c.pa) (stopWrites c.cons c.cons k), pkg := { s.pkg with cfw := some { c with stopped := true } } } := by
  rw [State.cfwStop, State.cfwTry_eq c _ hpa (fun w hw => (stopWrites_range _ _ _ w hw).2) s hd]; rfl

/-! ## The read of the header -/

/-- R129, R130, R135, R175: the read of the CFW queue's header takes the new prod or stops the queue. -/
theorem cfwHeaderRead : Claims.CfwHeaderRead := by
  intro s c hc hs hpa hd prod good at'
  have hgood : prodOk (s.readPhys (hostBase + c.pa) 8) c.prod c.cons (2 ^ c.log2 / 64) (s.readPhys (hostBase + c.pa + 0x10) 4) c.log2 = true ↔ good := by
    rw [prodOk_iff, readPhys_eq_number, readPhys_eq_number]; rfl
  have hline : s.cfwLine = if good then s.modPkg (fun k => { k with cfw := some { c with prod := prod } }) else s.cfwStop c Cause.queueCorrupt := by
    simp only [State.cfwLine, hc, hs, Bool.false_eq_true, if_false, hgood]
    rw [readPhys_eq_number]; rfl
  refine ⟨s.cfwLine, rfl, ?_⟩
  rw [hline]
  by_cases hg : good
  · rw [if_pos hg]
    exact ⟨fun _ => rfl, fun _ => ⟨rfl, rfl, rfl⟩, fun h => absurd hg h⟩
  · rw [if_neg hg]
    obtain ⟨hregs, hcfw⟩ := s.cfwStop_frame c Cause.queueCorrupt
    refine ⟨fun r => by rw [State.reg, State.reg, hregs], fun h => absurd h hg, fun _ => ⟨hcfw, ?_⟩⟩
    rw [s.cfwStop_eq c _ hd hpa]
    set u : State := { s with
      mem := s.mem.writeFields (hostBase + c.pa) (stopWrites c.cons c.cons Cause.queueCorrupt), pkg := { s.pkg with cfw := some { c with stopped := true } } }
    have hbase : hostBase = 8796093022208 := rfl
    have hfield (off n v : Nat) (l l' : List (Nat × Nat × Nat)) (hl : stopWrites c.cons c.cons Cause.queueCorrupt = l ++ (off, n, v) :: l') (hn : off + n ≤ 64)
        (hlater : ∀ w ∈ l', off + n ≤ w.1 ∨ w.1 + w.2.1 ≤ off) : at' u.dropUpdates off n = v % 256 ^ n := by
      rw [← number_writeFields s.mem (hostBase + c.pa) off n v l l' hlater, ← hl]
      exact u.dropUpdates_updatesDropped.number _ _ (by omega) (by omega)
    refine ⟨hfield 0x18 4 _ [_, _, _, _] _ rfl ?_ ?_, hfield 0x14 4 _ [_, _, _, _, _] _ rfl ?_ ?_, hfield 0x1C 4 _ [_, _] _ rfl ?_ ?_,
      hfield 0x28 8 _ [] _ rfl ?_ ?_, hfield 0x30 8 _ [_] _ rfl ?_ ?_, hfield 0x38 8 _ [_, _, _] _ rfl ?_ ?_, fun p w hw => u.part_dropUpdates p w hw,
      fun h => by rw [u.dropUpdates_eq h]; exact ⟨rfl, rfl⟩⟩ <;> simp [zeroWrites]

end Sys2Proof.Machine

/-!
The registration of the CFW queue (R6, R36, R129, R135).
-/
namespace Sys2Proof.Machine

/-- The running queue that the header at a host physical address describes (R135). -/
def State.headerQueue (s : State) (pa : Nat) : CfwQueue :=
  { pa := pa, log2 := s.readPhys (hostBase + pa + 0x10) 4, cons := s.readPhys (hostBase + pa + 8) 8, prod := s.readPhys (hostBase + pa) 8 }

/-- The checks of R135 on a header. -/
def CfwQueue.HeaderOk (c : CfwQueue) : Prop := 12 ≤ c.log2 ∧ c.log2 ≤ 26 ∧ c.cons ≤ c.prod ∧ c.prod - c.cons ≤ 2 ^ c.log2 / 64

/-- The state in which a fresh queue stands, before its header is written: commands of an earlier queue are gone. -/
def State.freshCfw (s : State) (c : CfwQueue) : State := s.dropUpdates.modPkg fun k => { k with cfw := some c }

/-- A write to the command register, by whether the header meets its checks. -/
theorem State.writeCfwq_cases (s : State) (pa : Nat) :
    ((s.headerQueue pa).HeaderOk ∧ s.writeCfwq pa = (s.freshCfw (s.headerQueue pa)).cfwPut (s.headerQueue pa) regWrites) ∨
      (¬ (s.headerQueue pa).HeaderOk ∧
        s.writeCfwq pa = ((s.freshCfw (s.headerQueue pa)).cfwTry (s.headerQueue pa) regWrites).cfwStop (s.headerQueue pa) Cause.queueCorrupt) := by
  have hbad : (s.readPhys (hostBase + pa + 0x10) 4 < 12 ∨ 26 < s.readPhys (hostBase + pa + 0x10) 4 ∨ s.readPhys (hostBase + pa) 8 < s.readPhys (hostBase + pa + 8) 8 ∨
      2 ^ s.readPhys (hostBase + pa + 0x10) 4 / 64 < s.readPhys (hostBase + pa) 8 - s.readPhys (hostBase + pa + 8) 8) ↔ ¬ (s.headerQueue pa).HeaderOk := by
    simp only [CfwQueue.HeaderOk, State.headerQueue, not_and_or, not_le]
  by_cases hok : (s.headerQueue pa).HeaderOk
  · exact .inl ⟨hok, by rw [State.writeCfwq]; exact if_neg (fun h => hbad.1 h hok)⟩
  · exact .inr ⟨hok, by rw [State.writeCfwq]; exact if_pos (hbad.2 hok)⟩

theorem State.freshCfw_regs (s : State) (c : CfwQueue) : (s.freshCfw c).regs = s.regs := s.dropUpdates_updatesDropped.regs

theorem State.freshCfw_denied (s : State) (c : CfwQueue) : (s.freshCfw c).pkg.denied = s.pkg.denied := by
  rw [State.freshCfw, State.modPkg_pkg, s.dropUpdates_updatesDropped.pkg]

/-- Where the host refuses the first write of a registration, the queue stops. -/
theorem State.writeCfwq_refused (s : State) (pa : Nat) (hpa : pa + 64 ≤ 2 ^ 46) (hr : s.hostRefuses (pa + 0x18) 4 = true) :
    (s.writeCfwq pa).regs = s.regs ∧ (s.writeCfwq pa).pkg.cfw = some { s.headerQueue pa with stopped := true } := by
  rcases s.writeCfwq_cases pa with ⟨-, h⟩ | ⟨-, h⟩ <;> rw [h]
  · have hbars : (s.freshCfw (s.headerQueue pa)).cfwBars (s.headerQueue pa) (0x18, 4, 0) = some Cause.hostWindowDenied := by
      have hhost : isHost (hostBase + (s.headerQueue pa).pa + 0x18) = true := (isHost_iff _).2 ⟨by omega, by simp only [State.headerQueue]; omega⟩
      have hsub : hostBase + (s.headerQueue pa).pa + 0x18 - hostBase = pa + 0x18 := by simp only [State.headerQueue]; omega
      have href : (s.freshCfw (s.headerQueue pa)).hostRefuses (pa + 0x18) 4 = true := by rw [State.hostRefuses, State.freshCfw_denied]; exact hr
      simp only [State.cfwBars, State.physFault, hhost, hsub, href, Bool.and_self, if_true]
    obtain ⟨hregs, hcfw⟩ := (s.freshCfw (s.headerQueue pa)).cfwStop_frame (s.headerQueue pa) Cause.hostWindowDenied
    simp only [regWrites, List.cons_append, State.cfwPut, hbars]
    exact ⟨hregs.trans (s.freshCfw_regs _), hcfw⟩
  · obtain ⟨m, hm⟩ := State.cfwTry_modMem (s.headerQueue pa) regWrites (s.freshCfw (s.headerQueue pa))
    obtain ⟨hregs, hcfw⟩ := ((s.freshCfw (s.headerQueue pa)).cfwTry (s.headerQueue pa) regWrites).cfwStop_frame (s.headerQueue pa) Cause.queueCorrupt
    exact ⟨hregs.trans (by rw [hm]; exact s.freshCfw_regs (s.headerQueue pa)), hcfw⟩

/-- `t` is the state after a registration that wrote the fields `l` to the header and left the queue as `c`. -/
structure State.CfwRegistered (s t : State) (c : CfwQueue) (l : List (Nat × Nat × Nat)) : Prop where
  regs : t.regs = s.regs
  cfw : t.pkg.cfw = some c
  updates : ∀ p w, t.part? p = some w → InvOp.update ∉ w.invq
  quiet : (∀ e ∈ s.parts, InvOp.update ∉ e.2.invq ∧ e.2.forming = none) → t.pkg = { s.pkg with cfw := some c } ∧ t.parts = s.parts
  field : ∀ off n v l1 l2, l = l1 ++ (off, n, v) :: l2 → off + n ≤ 64 → (∀ w ∈ l2, off + n ≤ w.1 ∨ w.1 + w.2.1 ≤ off) →
    Claims.number t.mem (hostBase + c.pa + off) n = v % 256 ^ n
  unformed : (∀ e ∈ s.parts, e.2.forming = none) → t.mem = s.mem.writeFields (hostBase + c.pa) l ∧ ∀ e ∈ t.parts, e.2.forming = none

/-- A fresh queue with fields written to its header. -/
theorem State.freshCfw_registered (s : State) (c : CfwQueue) (l : List (Nat × Nat × Nat)) :
    State.CfwRegistered s { s.freshCfw c with mem := (s.freshCfw c).mem.writeFields (hostBase + c.pa) l } c l where
  regs := s.freshCfw_regs c
  cfw := rfl
  updates p w hw := s.part_dropUpdates p w hw
  quiet hq := by rw [State.freshCfw, s.dropUpdates_eq hq]; exact ⟨rfl, rfl⟩
  field off n v l1 l2 hl _ hlater := by rw [hl]; exact number_writeFields _ _ _ _ _ _ _ hlater
  unformed hf := by
    obtain ⟨hmem, hforming⟩ := s.dropUpdates_not_forming hf
    exact ⟨by rw [← hmem]; rfl, hforming⟩

/-- A registration that a stop follows has left no command to lose. -/
theorem State.CfwRegistered.dropUpdates {s t : State} {c : CfwQueue} {l : List (Nat × Nat × Nat)} (h : State.CfwRegistered s t c l)
    (hpa : c.pa + 64 ≤ 2 ^ 46) : State.CfwRegistered s t.dropUpdates c l where
  regs := t.dropUpdates_updatesDropped.regs.trans h.regs
  cfw := by rw [t.dropUpdates_updatesDropped.pkg]; exact h.cfw
  updates p w hw := t.part_dropUpdates p w hw
  quiet hq := by
    obtain ⟨hpkg, hparts⟩ := h.quiet hq
    rw [t.dropUpdates_eq (by rwa [hparts])]
    exact ⟨hpkg, hparts⟩
  field off n v l1 l2 hl hn hlater := by
    rw [t.dropUpdates_updatesDropped.number _ _ (by omega) (by omega)]
    exact h.field off n v l1 l2 hl hn hlater
  unformed hf := by
    obtain ⟨hmem, hforming⟩ := h.unformed hf
    obtain ⟨hmem', hforming'⟩ := t.dropUpdates_not_forming hforming
    exact ⟨hmem'.trans hmem, hforming'⟩

/-- Where no create waits, no byte of memory changes outside the fields that the device writes. -/
theorem State.CfwRegistered.read_other {s t : State} {c : CfwQueue} {l : List (Nat × Nat × Nat)} (h : State.CfwRegistered s t c l)
    (hl : ∀ w ∈ l, 0x14 ≤ w.1 ∧ 0 < w.2.1 ∧ w.1 + w.2.1 ≤ 64) (hf : ∀ e ∈ s.parts, e.2.forming = none) (x : Nat)
    (hx : ¬(hostBase + c.pa + 0x14 ≤ x ∧ x < hostBase + c.pa + 0x40)) : t.mem.read x = s.mem.read x := by
  rw [(h.unformed hf).1, Memory.read_writeFields_out]
  intro w hw
  have := hl w hw
  omega

/-- The registration of a queue whose header meets its checks, where the host refuses nothing. -/
theorem State.writeCfwq_ok (s : State) (pa : Nat) (hpa : pa + 64 ≤ 2 ^ 46) (hd : s.pkg.denied = []) (hok : (s.headerQueue pa).HeaderOk) :
    State.CfwRegistered s (s.writeCfwq pa) (s.headerQueue pa) regWrites := by
  rcases s.writeCfwq_cases pa with ⟨-, h⟩ | ⟨hn, -⟩
  · rw [h, State.cfwPut_eq (s.headerQueue pa) _ hpa (fun w hw => (regWrites_range w hw).2) _ (by rw [s.freshCfw_denied, hd])]
    exact s.freshCfw_registered _ _
  · exact absurd hok hn

/-- The registration of a queue whose header fails its checks, where the host refuses nothing: the stop follows at once. -/
theorem State.writeCfwq_corrupt (s : State) (pa : Nat) (hpa : pa + 64 ≤ 2 ^ 46) (hd : s.pkg.denied = []) (hbad : ¬ (s.headerQueue pa).HeaderOk) :
    State.CfwRegistered s (s.writeCfwq pa) { s.headerQueue pa with stopped := true }
      (regWrites ++ stopWrites (s.headerQueue pa).cons (s.headerQueue pa).cons Cause.queueCorrupt) := by
  have hd1 : (s.freshCfw (s.headerQueue pa)).pkg.denied = [] := by rw [s.freshCfw_denied, hd]
  rcases s.writeCfwq_cases pa with ⟨hok, -⟩ | ⟨-, h⟩
  · exact absurd hok hbad
  · rw [h, State.cfwTry_eq (s.headerQueue pa) _ hpa (fun w hw => (regWrites_range w hw).2) _ hd1,
      State.cfwStop_eq _ (s.headerQueue pa) _ (by exact hd1) hpa]
    dsimp only
    rw [← Memory.writeFields_append]
    exact (s.freshCfw_registered { s.headerQueue pa with stopped := true } _).dropUpdates hpa

/-- R6, R36, R129, R135: a write to the command register registers a fresh queue. -/
theorem cfwqRegisters : Claims.CfwqRegisters := by
  intro s pa hpa a prod cons l good c
  have hqueue : s.headerQueue pa.toNat = { c with stopped := false } := by
    simp only [State.headerQueue, readPhys_eq_number]; rfl
  have hbase : hostBase + c.pa = a := rfl
  have hok : (s.headerQueue pa.toNat).HeaderOk ↔ good := by rw [hqueue]; exact Iff.rfl
  have hstop : { s.headerQueue pa.toNat with stopped := true } = { c with stopped := true } := by rw [hqueue]
  have hexec : exec (.cfwq pa) s = .next (if s.xdReleased then s.writeCfwq pa.toNat else s) := if_pos hpa
  have hreleased : s.xdReleased = true ↔ (4, true) ∈ s.pkg.measured := List.contains_iff_mem
  refine ⟨fun h => ?_, fun h href => ?_, fun h hd => ?_⟩
  · rw [hexec, if_neg (by rwa [hreleased])]
  · rw [hexec, if_pos (hreleased.2 h)]
    obtain ⟨hregs, hcfw⟩ := s.writeCfwq_refused pa.toNat hpa href
    exact ⟨_, rfl, hregs, by rw [hcfw, hstop]⟩
  · rw [hexec, if_pos (hreleased.2 h)]
    refine ⟨_, rfl, ?_⟩
    by_cases hg : good
    · have hc : s.headerQueue pa.toNat = c := by rw [hqueue]; simp only [c, hg, not_true, decide_false]
      have hreg := s.writeCfwq_ok pa.toNat hpa hd (hok.2 hg)
      rw [hc] at hreg
      have hfield := hreg.field
      rw [hbase] at hfield
      refine ⟨hreg.regs, hreg.cfw, hreg.updates, hreg.quiet, hfield 0x1C 4 0 [_, _] _ rfl ?_ ?_, hfield 0x20 8 0 [_] _ rfl ?_ ?_,
        hfield 0x38 8 0 [_, _, _] _ rfl ?_ ?_, fun _ => ⟨hfield 0x18 4 0 [] _ rfl ?_ ?_, hfield 0x14 4 0 [_, _, _, _] [] rfl ?_ ?_⟩,
        fun h => absurd hg h, hreg.read_other regWrites_range⟩ <;> simp [zeroWrites]
    · have hc : { s.headerQueue pa.toNat with stopped := true } = c := by rw [hqueue]; simp only [c, hg, not_false_iff, decide_true]
      have hreg := s.writeCfwq_corrupt pa.toNat hpa hd (fun h => hg (hok.1 h))
      rw [hc, show (s.headerQueue pa.toNat).cons = cons by rw [hqueue]] at hreg
      have hfield := hreg.field
      rw [hbase] at hfield
      have hcons : cons % 256 ^ 8 = cons := Nat.mod_eq_of_lt (number_lt ..)
      refine ⟨hreg.regs, hreg.cfw, hreg.updates, hreg.quiet, hfield 0x1C 4 0 (regWrites ++ [_, _]) _ rfl ?_ ?_, hfield 0x20 8 0 [_] _ rfl ?_ ?_,
        hfield 0x38 8 0 (regWrites ++ [_, _, _]) _ rfl ?_ ?_, fun h => absurd h hg,
        fun _ => ⟨hfield 0x18 4 0x160 (regWrites ++ [_, _, _, _]) _ rfl ?_ ?_, hfield 0x14 4 1 (regWrites ++ [_, _, _, _, _]) [] rfl ?_ ?_,
          (hfield 0x28 8 cons regWrites _ rfl ?_ ?_).trans hcons, (hfield 0x30 8 cons (regWrites ++ [_]) _ rfl ?_ ?_).trans hcons⟩,
        hreg.read_other fun w hw => (List.mem_append.1 hw).elim (regWrites_range w) (stopWrites_range _ _ _ w)⟩ <;> simp [stopWrites, zeroWrites]

/-- Settles O36: a queue's header is read and written through what lies under it, where nothing stands against that, and the loss of
commands touches no byte of the host's memory. -/
theorem queueHeaders : Obligations.QueueHeaders := ⟨headerRead, cfwHeaderRead, cfwqRegisters⟩

end Sys2Proof.Machine

/-!
The frame of an access: what the reads and writes of a party leave as it was, whatever comes of them (R167, R172, R175, R212).
-/
namespace Sys2Proof.Machine

/-! ## The part of a partition that accesses leave alone -/

/-- A partition without what an access may change: its meter, its faults with their numbers, and its invalidation sequencer. -/
def Part.core (v : Part) : Part := { v with meter := {}, faults := [], nextFault := 1, faultCount := 0, invq := [], pulling := none }

theorem Part.replays_of_core {u v : Part} (h : u.core = v.core) : u.replays = v.replays :=
  show u.core.replays = v.core.replays by rw [h]

/-- `t` differs from `s` at most in memory, in what the package has sent, in the translation cache of the party's region, and in what
`Part.core` leaves out of partitions: what an access leaves, whatever comes of it. -/
structure State.Worked (w : Who) (s t : State) : Prop where
  pkg : t.pkg = { s.pkg with out := t.pkg.out }
  sets : t.sets = s.sets
  tick : t.tick = s.tick
  steps : t.steps = s.steps
  agenda : t.agenda = s.agenda
  cur : t.cur = s.cur
  reg : ∀ r, t.reg r = { s.reg r with tlb := (t.reg r).tlb }
  other : ∀ r, w.region ≠ some r → t.reg r = s.reg r
  part : ∀ p, (t.part? p).map Part.core = (s.part? p).map Part.core

namespace State.Worked

protected theorem rfl (w : Who) (s : State) : State.Worked w s s :=
  ⟨Eq.refl _, Eq.refl _, Eq.refl _, Eq.refl _, Eq.refl _, Eq.refl _, fun _ => Eq.refl _, fun _ _ => Eq.refl _, fun _ => Eq.refl _⟩

/-- One access after another. -/
theorem trans {w : Who} {s t u : State} (h : State.Worked w s t) (g : State.Worked w t u) : State.Worked w s u where
  pkg := by rw [g.pkg, h.pkg]
  sets := g.sets.trans h.sets
  tick := g.tick.trans h.tick
  steps := g.steps.trans h.steps
  agenda := g.agenda.trans h.agenda
  cur := g.cur.trans h.cur
  reg r := by rw [g.reg r, h.reg r]
  other r hr := (g.other r hr).trans (h.other r hr)
  part p := (g.part p).trans (h.part p)

/-- The state that an access has answered. -/
theorem of_eq {α : Type} {w : Who} {s t : State} {y : State × Got α} {a : Got α} (h : State.Worked w s y.1) (e : y = (t, a)) : State.Worked w s t := by
  rwa [e] at h

/-- The sequencer after an access. -/
theorem seq {w : Who} {s t : State} (h : State.Worked w s t) : t.seq = s.seq := by rw [State.seq, State.seq, h.cur, h.reg]

/-- Regions after an access of a party that has none. -/
theorem reg_outside {w : Who} {s t : State} (h : State.Worked w s t) (hw : w.region = none) (r : Nat) : t.reg r = s.reg r :=
  h.other r (by rw [hw]; exact Option.some_ne_none r ∘ Eq.symm)

/-- A partition after an access. -/
theorem part_some {w : Who} {s t : State} (h : State.Worked w s t) {p : Nat} {v : Part} (hv : s.part? p = some v) :
    ∃ u, t.part? p = some u ∧ u.core = v.core := by
  have hp := h.part p
  rw [hv, Option.map_some, Option.map_eq_some_iff] at hp
  exact hp

/-- A host queue after an access. -/
theorem queue {w : Who} {s t : State} (h : State.Worked w s t) (p q : Nat) : t.queue? p q = s.queue? p q := by
  have hq (v : Option Part) : v.bind (fun v => spFind v.queues q) = (v.map Part.core).bind (fun v => spFind v.queues q) := by cases v <;> rfl
  rw [State.queue?, State.queue?, hq, h.part, ← hq]

/-- A die graph after an access. -/
theorem dg {w : Who} {s t : State} (h : State.Worked w s t) (p n i : Nat) : t.dg? p n i = s.dg? p n i := by
  have hr (v : Option Part) : v.bind (fun v => v.replays.find? (fun y => y.num == n)) =
      (v.map Part.core).bind (fun v => v.replays.find? (fun y => y.num == n)) := by cases v <;> rfl
  rw [State.dg?, State.dg?, State.replay?, State.replay?, hr, h.part, ← hr]

end State.Worked

/-- A completed read is an access. -/
theorem State.ReadOnly.worked {w : Who} {s t : State} (h : State.ReadOnly w s t) : State.Worked w s t where
  pkg := by rw [h.pkg]
  sets := h.sets
  tick := h.tick
  steps := h.steps
  agenda := h.agenda
  cur := h.cur
  reg := h.reg
  other := h.other
  part p := by
    obtain ⟨m, hm⟩ := h.part p
    rw [hm]
    cases s.part? p <;> rfl

/-! ## The changes that accesses are made of -/

/-- A change of memory. -/
theorem State.modMem_worked (s : State) (w : Who) (f : Memory → Memory) : State.Worked w s (s.modMem f) :=
  ⟨rfl, rfl, rfl, rfl, rfl, rfl, fun _ => rfl, fun _ _ => rfl, fun _ => rfl⟩

/-- What the package sends. -/
theorem State.emit_worked (s : State) (w : Who) (o : Output) : State.Worked w s (s.emit o) :=
  ⟨rfl, rfl, rfl, rfl, rfl, rfl, fun _ => rfl, fun _ _ => rfl, fun _ => rfl⟩

/-- A change of a partition in what accesses may change of it. -/
theorem State.modPart_worked (s : State) (w : Who) (p : Nat) (f : Part → Part) (hf : ∀ v, (f v).core = v.core) : State.Worked w s (s.modPart p f) where
  pkg := by rw [State.modPart_pkg]
  sets := State.modPart_sets ..
  tick := State.modPart_tick ..
  steps := State.modPart_steps ..
  agenda := State.modPart_agenda ..
  cur := State.modPart_cur ..
  reg r := by rw [State.reg, State.modPart_regs, ← State.reg]
  other r _ := by rw [State.reg, State.modPart_regs, ← State.reg]
  part q := by
    rw [State.part_modPart]
    split
    · subst q; rw [Option.map_map]; exact Option.map_congr fun v _ => hf v
    · rfl

theorem State.setPart_worked (s : State) (w : Who) (p : Nat) (v u : Part) (hv : s.part? p = some v) (hu : u.core = v.core) :
    State.Worked w s (s.setPart p u) := by
  exact ⟨rfl, rfl, rfl, rfl, rfl, rfl, fun _ => rfl, fun _ _ => rfl, fun q => by
    rw [State.part_setPart]
    split
    · subst q; rw [hv, Option.map_some, Option.map_some, hu]
    · rfl⟩

/-- A record in the fault ring. -/
theorem State.ringWrite_worked (s : State) (w : Who) (p : Nat) (bs : List Byte) : State.Worked w s (s.ringWrite p bs) := by
  unfold State.ringWrite
  split
  · exact .rfl w s
  · next v hv =>
    dsimp only
    split
    · exact s.setPart_worked w p v _ hv rfl
    · exact (s.modMem_worked w _).trans (State.setPart_worked _ w p v _ hv rfl)

theorem State.awaitAnswer_worked (s : State) (w x : Who) (f : FaultRec) : State.Worked w s (s.awaitAnswer x f).1 := by
  unfold State.awaitAnswer
  split
  · exact s.modPart_worked w _ _ fun _ => rfl
  · exact .rfl w s

theorem State.holdFault_worked (s : State) (w x : Who) (c : BitVec 9) (l a va gpa : Nat) : State.Worked w s (s.holdFault x c l a va gpa).1 := by
  unfold State.holdFault
  split
  · exact .rfl w s
  · next v hv =>
    split
    · exact .rfl w s
    · refine State.Worked.trans (State.Worked.trans (s.setPart_worked w x.part v _ hv ?_) (State.ringWrite_worked _ w _ _)) (State.emit_worked _ w _)
      rfl

theorem State.invStart_worked (s : State) (w : Who) (p : Nat) : State.Worked w s (s.invStart p) := by
  rcases s.invStart_cases p with h | ⟨v, g, l, m, hv, -, h⟩ <;> rw [h]
  · exact .rfl w s
  · refine State.Worked.trans (s.setPart_worked w p v _ hv ?_) (State.emit_worked _ w _)
    rfl

theorem State.invQueue_worked (s : State) (w : Who) (p : Nat) (o : InvOp) : State.Worked w s (s.invQueue p o) := by
  refine (s.modPart_worked w p _ fun v => ?_).trans (State.invStart_worked _ w p)
  split
  · cases o <;> rfl
  · rfl

theorem State.invDone_worked (s : State) (w : Who) (p : Nat) : State.Worked w s (s.invDone p) :=
  (s.modPart_worked w p (fun v => { v with invq := v.invq.drop 1 }) fun _ => rfl).trans (State.invStart_worked _ w p)

theorem State.invDrop_worked (s : State) (w : Who) (p : Nat) (test : InvOp → Bool) : State.Worked w s (s.invDrop p test) :=
  (s.modPart_worked w p (fun v => { v with invq := v.invq.filter fun o => !test o }) fun _ => rfl).trans (State.invStart_worked _ w p)

theorem State.countBytes_worked (s : State) (w : Who) (p pa n : Nat) : State.Worked w s (s.countBytes p pa n) :=
  (s.countBytes_readOnly w p pa n).worked

theorem State.useCache_worked (s : State) (w : Who) (x : Xlate) : State.Worked w s (s.useCache w x) := by
  rcases s.useCache_cases w x with h | ⟨r, hr, h⟩ <;> rw [h]
  · exact .rfl w s
  · refine ⟨rfl, rfl, rfl, rfl, rfl, rfl, fun q => ?_, fun q hq => ?_, fun _ => rfl⟩ <;> rw [State.reg_modReg] <;> split
    · subst q; rfl
    · rfl
    · subst q; exact absurd hr hq
    · rfl

/-! ## Reaching an address -/

theorem State.useXlate_worked (s : State) (w : Who) (x : Xlate) (va : Nat) (k : AKind) : State.Worked w s (s.useXlate w x va k).1 := by
  have ite {c : Prop} [Decidable c] {x y : State × Got Nat} (hx : State.Worked w s x.1) (hy : State.Worked w s y.1) :
      State.Worked w s (if c then x else y).1 := by split <;> assumption
  have h0 : State.Worked w s s := .rfl w s
  unfold State.useXlate
  dsimp only
  split
  · exact s.awaitAnswer_worked w w _
  · refine ite h0 (ite h0 (ite (s.holdFault_worked w w _ _ _ _ _) (ite (s.invQueue_worked w _ _) ?_)))
    split
    · exact h0
    · refine ite (s.invQueue_worked w _ _) ?_
      split <;> exact h0

/-- What a step makes of the outcome of another that it passes on. -/
theorem State.Worked.up {w : Who} {s : State} {y : State × Got Nat} (h : State.Worked w s y.1) :
    State.Worked w s (match y with
      | (s1, .fault c a) => ((s1, .fault c a) : State × Got Xlate)
      | (s1, _) => (s1, .held)).1 := by
  split <;> exact h

theorem State.xlateFor_worked (s : State) (w : Who) (va : Nat) (k : AKind) : State.Worked w s (s.xlateFor w va k).1 := by
  unfold State.xlateFor
  split
  · exact .rfl w s
  · dsimp only
    split
    · exact (s.awaitAnswer_worked w w _).up
    · exact s.useCache_worked w _
    · split
      · exact .rfl w s
      · exact (s.holdFault_worked w w _ _ _ _ _).up
      · exact iteInduction (motive := fun y : State × Got Xlate => State.Worked w s y.1) (fun _ => (s.holdFault_worked w w _ _ _ _ _).up)
          fun _ => s.invQueue_worked w _ _
      · exact s.useCache_worked w _

theorem State.reach_worked (s : State) (w : Who) (va : Nat) (k : AKind) : State.Worked w s (s.reach w va k).1 := by
  unfold State.reach
  split
  · exact .rfl w s
  · split
    · split
      · exact .rfl w s
      · split <;> exact .rfl w s
    · split <;> exact .rfl w s
    · exact .rfl w s
    · exact .rfl w s
    · have hx := s.xlateFor_worked w va k
      split <;> rename_i h <;> rw [h] at hx
      · exact hx.trans (State.useXlate_worked _ w _ va k)
      · exact hx
      · exact hx

/-! ## Reads and writes -/

theorem State.readPage_worked (s : State) (w : Who) (va n : Nat) : State.Worked w s (s.readPage w va n).1 := by
  have hr := s.reach_worked w va .read
  unfold State.readPage
  split <;> rename_i h <;> rw [h] at hr
  · exact hr
  · exact hr
  · split
    · exact hr
    · exact hr.trans (State.countBytes_worked _ w _ _ _)

theorem State.writePage_worked (s : State) (w : Who) (va : Nat) (bs : List Byte) : State.Worked w s (s.writePage w va bs).1 := by
  have hr := s.reach_worked w va .write
  unfold State.writePage
  split <;> rename_i h <;> rw [h] at hr
  · exact hr
  · exact hr
  · split
    · exact hr
    · dsimp only
      exact (hr.trans (State.countBytes_worked _ w w.part _ bs.length)).trans (State.modMem_worked _ w _)

theorem State.readVA_worked (s : State) (w : Who) (va n : Nat) : State.Worked w s (s.readVA w va n).1 := by
  have hr := s.readPage_worked w va (firstPage va n)
  unfold State.readVA
  dsimp only
  split
  · next s1 bs h =>
    rw [h] at hr
    split
    · exact hr
    · have hr2 := s1.readPage_worked w (va + firstPage va n) (n - firstPage va n)
      split
      · next h2 => rw [h2] at hr2; exact hr.trans hr2
      · exact hr.trans hr2
  · exact hr

theorem State.writeVA_worked (s : State) (w : Who) (va : Nat) (bs : List Byte) : State.Worked w s (s.writeVA w va bs).1 := by
  unfold State.writeVA
  dsimp only
  split_ifs
  · exact .rfl w s
  · exact s.writePage_worked w va bs
  · have hr := s.reach_worked w (va + firstPage va bs.length) .write
    split
    · next s1 pa h =>
      rw [h] at hr
      split
      · exact hr
      · have hw := s1.writePage_worked w va (bs.take (firstPage va bs.length))
        split
        · next h2 => rw [h2] at hw; exact (hr.trans hw).trans (State.writePage_worked _ w _ _)
        · exact hr.trans hw
    · next h => rw [h] at hr; exact hr
    · next h => rw [h] at hr; exact hr

theorem State.writeNum_worked (s : State) (w : Who) (va n v : Nat) : State.Worked w s (s.writeNum w va n v).1 := s.writeVA_worked w va _

theorem State.readMany_worked (w : Who) (n k : Nat) : ∀ (s : State) (va : Nat), State.Worked w s (s.readMany w n k va).1 := by
  induction k with
  | zero => exact fun s va => .rfl w s
  | succ k ih =>
    intro s va
    have hr := s.readVA_worked w va n
    unfold State.readMany
    split
    · next s1 bs h =>
      rw [h] at hr
      have hn := ih s1 (va + n)
      split
      · next h2 => rw [h2] at hn; exact hr.trans hn
      · exact hr.trans hn
    · exact hr

theorem State.writeMany_worked (w : Who) (k : Nat) : ∀ (s : State) (va : Nat) (bs : List Byte), State.Worked w s (s.writeMany w k va bs).1 := by
  induction k with
  | zero => exact fun s va bs => .rfl w s
  | succ k ih =>
    intro s va bs
    have hw := s.writeVA_worked w va (bs.take 64)
    unfold State.writeMany
    split
    · exact .rfl w s
    · split
      · next h => rw [h] at hw; exact hw.trans (ih _ _ _)
      · exact hw

theorem State.readLong_worked (w : Who) (f : Nat) : ∀ (s : State) (va n : Nat), State.Worked w s (s.readLong w f va n).1 := by
  induction f with
  | zero => exact fun s va n => .rfl w s
  | succ f ih =>
    intro s va n
    unfold State.readLong
    dsimp only
    split
    · exact .rfl w s
    · have hr := s.readVA_worked w va (Nat.min n (64 - va % 64))
      split
      · next s1 bs h =>
        rw [h] at hr
        have hn := ih s1 (va + Nat.min n (64 - va % 64)) (n - Nat.min n (64 - va % 64))
        split
        · next h2 => rw [h2] at hn; exact hr.trans hn
        · exact hr.trans hn
      · exact hr

theorem State.canWritePage_worked (s : State) (w : Who) (va n : Nat) : State.Worked w s (s.canWritePage w va n).1 := by
  unfold State.canWritePage
  split_ifs
  · exact .rfl w s
  · have hr := s.reach_worked w va .write
    split <;> rename_i h <;> rw [h] at hr
    · split <;> exact hr
    · exact hr
    · exact hr

theorem State.canWrite_worked (w : Who) (k : Nat) : ∀ (s : State) (va n : Nat), State.Worked w s (s.canWrite w k va n).1 := by
  induction k with
  | zero => exact fun s va n => .rfl w s
  | succ k ih =>
    intro s va n
    have hc := s.canWritePage_worked w va (firstPage va n)
    unfold State.canWrite
    split
    · exact .rfl w s
    · split
      · next h => rw [h] at hc; exact hc.trans (ih _ _ _)
      · exact hc

theorem State.writeWhole_worked (s : State) (w : Who) (va : Nat) (bs : List Byte) : State.Worked w s (s.writeWhole w va bs).1 := by
  have hc := State.canWrite_worked w (bs.length / 4096 + 2) s va bs.length
  unfold State.writeWhole
  split
  · next h => rw [h] at hc; exact hc.trans (State.writeMany_worked w _ _ _ _)
  · exact hc

end Sys2Proof.Machine

/-!
O34, launch: what it makes of its operands, of the queue it enters and of its causes (R55, R56, R58, R59).
-/
namespace Sys2Proof.Machine

/-! ## Regions and sequencers beside a change of partitions -/

@[simp] theorem State.reg_modPart (s : State) (p r : Nat) (f : Part → Part) : (s.modPart p f).reg r = s.reg r := by
  rw [State.reg, State.modPart_regs, State.reg]

@[simp] theorem State.seq_modPart (s : State) (p : Nat) (f : Part → Part) : (s.modPart p f).seq = s.seq := by
  rw [State.seq, State.reg_modPart, State.modPart_cur, State.seq]

/-! ## Effective addresses modulo 2^64 -/

/-- The number that stands for an effective address is right modulo 2^64 (R8). -/
theorem ofNat_exactSum (x : Word) (off : BitVec 32) : BitVec.ofNat 64 (exactSum x off.toInt) = x + off.signExtend 64 := by
  have hoff : (off.signExtend 64).toInt = off.toInt := BitVec.toInt_signExtend_of_le (by decide)
  rw [BitVec.toInt_eq_toNat_cond] at hoff
  have hlo := BitVec.le_toInt off
  have hhi := BitVec.toInt_lt (x := off)
  apply BitVec.eq_of_toNat_eq
  rw [BitVec.toNat_ofNat, BitVec.toNat_add, exactSum]
  split at hoff <;> split <;> omega

/-- Whether an effective address is aligned can be read from its low bits. -/
theorem exactSum_mod (x : Word) (off : BitVec 32) (n : Nat) (hn : n ∣ 2 ^ 64) : exactSum x off.toInt % n = (x + off.signExtend 64).toNat % n := by
  rw [← ofNat_exactSum, BitVec.toNat_ofNat, Nat.mod_mod_of_dvd _ hn]

theorem aligned_exactSum (x : Word) (off : BitVec 32) (n : Nat) (hn : n ∣ 2 ^ 64) :
    aligned n (exactSum x off.toInt) = decide ((x + off.signExtend 64).toNat % n = 0) := by
  rw [aligned, exactSum_mod x off n hn]; rfl

/-! ## A step of the sequencer alone -/

/-- A change of the current sequencer changes nothing else. -/
theorem State.mod_seqOnly (s : State) (f : Seq → Seq) : Claims.SeqOnly s (s.mod f) (f s.seq) :=
  ⟨State.reg_mod_cur s f, State.reg_mod_other s f, fun _ => rfl, rfl, rfl, rfl, rfl, rfl, rfl, rfl, rfl⟩

/-- A trap of an instruction whose sequencer can trap. -/
theorem State.trap_seqOnly (s : State) (c : BitVec 9) (fva info : Word) (h : Claims.canTrap s.seq) :
    Claims.SeqOnly s (s.trap c fva info) (Claims.entered s.seq c s.seq.pc s.seq.pc fva info) := by
  rw [State.trap_entered s c fva info h.1 h.2]
  exact s.mod_seqOnly _

/-! ## The accesses of launch -/

/-- The accesses that launch and LAUNCH make before the acceptance. -/
theorem State.launchReach_readOnly (s s1 : State) (w : Who) (g f : Nat) (h : s.launchReach w g f = (s1, .ok ())) : State.ReadOnly w s s1 := by
  unfold State.launchReach at h
  split at h
  · cases h
  · cases h
  · next s2 pa hg =>
    have hread := State.reach_readOnly _ _ _ _ _ _ hg
    split_ifs at h
    · cases h
    · split at h
      · cases h
      · cases h
      · next hf => cases h; exact hread.trans (State.reach_readOnly _ _ _ _ _ _ hf)

theorem State.writeAccepted_worked (s : State) (w : Who) (frame n : Nat) : State.Worked w s (s.writeAccepted w frame n).1 := by
  have hw := s.writeNum_worked w frame 8 0
  unfold State.writeAccepted
  split
  · next h => rw [h] at hw; exact hw.trans (State.writeNum_worked _ w _ _ _)
  · exact hw

/-! ## Acceptance -/

/-- A partition that has accepted a replay, whatever has become of its queues and its meter. -/
theorem accepted_of_part (s t : State) (p prio graph frame : Nat) (src : Source) (u : Part) (l : Sparse HQueue) (m : Meter)
    (hu : s.part? p = some u) (ht : t.part? p = some { u.accept src prio graph frame with queues := l, meter := m }) :
    Claims.Accepted s t p src prio graph frame :=
  ⟨u, _, _, hu, ht, rfl, rfl, rfl, rfl, rfl, rfl, rfl, rfl, rfl, rfl, rfl, rfl⟩

/-! ## launch -/

section

variable {s s1 : State} {a b : BitVec 5} {prio : BitVec 2} {k : BitVec 3} {immG immF : BitVec 32} {v : Part} {g f : Nat}
  (hk : s.seq.kr k = true) (hheld : s.held s.cur = false) (hg : Claims.Sum (s.seq.gr a) immG.toInt g) (hf : Claims.Sum (s.seq.gr b) immF.toInt f)
  (hga : g % 256 = 0) (hfa : f % 64 = 0) (hreach : s.launchReach (s.seqWho s.cur) g f = (s1, .ok ())) (hv : s1.part? (s.seqWho s.cur).part = some v)
include hk hheld hg hf hga hfa hreach hv

/-- launch with aligned addresses that are reached, onto a full queue. -/
theorem execLaunch_full (d : BitVec 5) (nw : BitVec 1) (hfull : v.deviceFull prio.toNat = true) : exec (.launch d a b prio nw k immG immF) s =
    if nw = 1 then .next (s1.trap Cause.launchFull 0 (leadOf (.launch d a b prio nw k immG immF))) else .next s1.wait := by
  show execLaunch d a b prio nw k immG immF s = _
  rw [execLaunch, State.guarded_true _ _ _ _ hk]
  simp only [Seq.addr32, exactSum_eq_of_sum _ _ _ hg, exactSum_eq_of_sum _ _ _ hf, hheld, aligned, hga, hfa, beq_self_eq_true, Bool.not_true,
    Bool.false_eq_true, if_false, hreach, hv, hfull, if_true]

/-- launch with aligned addresses that are reached, onto a queue with room, whose frame is written. -/
theorem execLaunch_accepted (d : BitVec 5) (nw : BitVec 1) (s2 : State) (hroom : v.deviceFull prio.toNat = false)
    (hwrite : s1.writeAccepted (s.seqWho s.cur) f v.counter = (s2, .ok ())) : exec (.launch d a b prio nw k immG immF) s =
      .next ((s2.modPart (s.seqWho s.cur).part fun u => u.accept (.device prio.toNat) prio.toNat g f).setG d (BitVec.ofNat 64 v.counter) 12) := by
  show execLaunch d a b prio nw k immG immF s = _
  rw [execLaunch, State.guarded_true _ _ _ _ hk]
  simp only [Seq.addr32, exactSum_eq_of_sum _ _ _ hg, exactSum_eq_of_sum _ _ _ hf, hheld, aligned, hga, hfa, beq_self_eq_true, Bool.not_true,
    Bool.false_eq_true, if_false, hreach, hv, hroom, hwrite]

end

/-- R58, R59: a launch onto a queue with room is accepted. -/
theorem launchAccepts : Claims.LaunchAccepts := by
  intro s s1 s2 d a b prio nw k immG immF v g f w hk hheld hg hf hga hfa hreach hv hroom hwrite
  have hwritten : State.Worked w s1 s2 := (s1.writeAccepted_worked w f v.counter).of_eq hwrite
  have hw : State.Worked w s s2 := (State.launchReach_readOnly _ _ _ _ _ hreach).worked.trans hwritten
  obtain ⟨u, hu, -⟩ := hwritten.part_some hv
  refine ⟨_, execLaunch_accepted hk hheld hg hf hga hfa hreach hv d nw s2 hroom hwrite, ?_, accepted_of_part _ _ _ _ _ _ _ u u.queues u.meter hu ?_, ?_,
    fun r hr => ?_⟩
  · rw [State.setG, State.seq_mod, State.seq_modPart, hw.seq, Seq.advance, Seq.gw_pc]; rfl
  · rw [State.part?, State.setG_parts, ← State.part?, State.part_modPart, if_pos rfl, hu]; rfl
  · rw [State.setG_mem, State.modPart_mem]
  · rw [State.setG, State.reg_mod_other _ _ _ (by rwa [State.modPart_cur, hw.cur]), State.reg_modPart, hw.other r (fun h => hr (Option.some.inj h).symm)]

/-- R58, R59: the causes of launch, and its wait. -/
theorem launchTraps : Claims.LaunchTraps := by
  intro s d a b prio nw k immG immF g f i hk hheld htrap
  have hexec : exec i s = execLaunch d a b prio nw k immG immF s := rfl
  rw [execLaunch, State.guarded_true _ _ _ _ hk] at hexec
  simp only [Seq.addr32, hheld, aligned_exactSum _ _ 256 (by norm_num), aligned_exactSum _ _ 64 (by norm_num), ofNat_exactSum, Bool.false_eq_true,
    if_false] at hexec
  refine ⟨fun hg => ⟨_, hexec.trans (if_pos (by rw [decide_eq_false hg]; rfl)), s.trap_seqOnly _ _ _ htrap⟩,
    fun hg hf => ⟨_, hexec.trans ((if_neg (by rw [decide_eq_true hg]; simp)).trans (if_pos (by rw [decide_eq_false hf]; rfl))), s.trap_seqOnly _ _ _ htrap⟩,
    fun s1 v x y hx hy hxa hya hreach hv hfull => ?_⟩
  have hread := State.launchReach_readOnly _ _ _ _ _ hreach
  have hlaunch := execLaunch_full hk hheld hx hy hxa hya hreach hv d nw hfull
  have htrap1 : Claims.canTrap s1.seq := by rwa [hread.seq]
  by_cases hnw : nw = 1
  · rw [if_pos hnw] at hlaunch
    refine ⟨_, hlaunch, fun x => by rw [State.trap_mem, hread.mem], ?_⟩
    rw [if_pos hnw, State.trap_entered _ _ _ _ htrap1.1 htrap1.2, State.seq_mod, hread.seq]; rfl
  · rw [if_neg hnw] at hlaunch
    refine ⟨_, hlaunch, fun x => by rw [State.wait_mem, hread.mem], ?_⟩
    rw [if_neg hnw, State.wait, State.seq_mod, hread.seq, hread.tick]

/-- Settles O34: a launch reaches its two addresses and meets its queue; what follows is the acceptance, a cause or a wait. -/
theorem launches : Obligations.Launches := ⟨launchAccepts, launchTraps⟩

end Sys2Proof.Machine

/-!
O35, the life of a replay: the accesses of the launcher at its begin, and the writes of its end (R41, R42, R55 to R57, R391).
-/
namespace Sys2Proof.Machine

/-! ## What the launcher reads -/

theorem State.readDg_worked (s : State) (p : Nat) (v : Part) (total va : Nat) (before : List DieGraph) :
    State.Worked (outsideWho p 0xFC) s (s.readDg p v total va before).1 := by
  have hr := State.readMany_worked (outsideWho p 0xFC) 64 1 s va
  unfold State.readDg State.launcherRead
  split <;> rename_i h <;> rw [h] at hr
  · exact hr
  · exact hr
  · next s1 hd =>
    have hr2 := State.readMany_worked (outsideWho p 0xFC) 32 (numAt hd 8 2) s1 (va + 0x40)
    split
    · exact hr
    · split <;> rename_i h2 <;> rw [h2] at hr2
      · exact hr.trans hr2
      · exact hr.trans hr2
      · dsimp only
        split_ifs <;> exact hr.trans hr2

theorem State.readDgs_worked (p : Nat) (v : Part) (total : Nat) (vas : List Nat) : ∀ (s : State) (done : List DieGraph),
    State.Worked (outsideWho p 0xFC) s (s.readDgs p v total vas done).1 := by
  induction vas with
  | nil => exact fun s done => .rfl _ s
  | cons va vas ih =>
    intro s done
    have hr := s.readDg_worked p v total va done
    unfold State.readDgs
    split <;> rename_i h <;> rw [h] at hr
    · exact hr.trans (ih _ _)
    · exact hr
    · exact hr

/-- A graph object that is found well formed: what is read, and the replay that it makes. -/
theorem State.readGraph_ok (s s1 : State) (p : Nat) (v : Part) (y z : Replay) (snap : List Byte) (h : s.readGraph p v y = (s1, .ok (z, snap))) :
    State.Worked (outsideWho p 0xFC) s s1 ∧
      z = { y with begun := true, psize := z.psize, chtab := z.chtab, chcount := z.chcount, dgs := z.dgs } := by
  unfold State.readGraph at h
  split at h
  · cases h
  · cases h
  · next s2 hd h1 =>
    have w1 : State.Worked (outsideWho p 0xFC) s s2 := (State.readMany_worked _ 256 1 s y.graph).of_eq h1
    split at h
    · cases h
    · dsimp only at h
      split at h
      · cases h
      · cases h
      · next s3 ps h2 =>
        have w2 : State.Worked (outsideWho p 0xFC) s2 s3 := (State.readMany_worked _ 64 _ s2 _).of_eq h2
        split at h
        · cases h
        · cases h
        · next s4 dgs h3 =>
          have w3 : State.Worked (outsideWho p 0xFC) s3 s4 := (State.readDgs_worked p v _ _ s3 []).of_eq h3
          split at h
          · cases h
          · split at h
            · cases h
            · cases h
            · next s5 ch h4 =>
              have w4 : State.Worked (outsideWho p 0xFC) s4 s5 := (State.readMany_worked _ 32 _ s4 _).of_eq h4
              split at h
              · cases h
              · cases h
                exact ⟨((w1.trans w2).trans w3).trans w4, rfl⟩

/-! ## The writes to the frame -/

theorem State.writeBegin_worked (s : State) (p : Nat) (y : Replay) (snap : List Byte) : State.Worked (outsideWho p 0xFC) s (s.writeBegin p y snap).1 := by
  have h1 := s.writeVA_worked (outsideWho p 0xFC) (y.frame + 0x20) (toBytes 8 y.graph ++ toBytes 24 0)
  unfold State.writeBegin
  dsimp only
  split
  · next s1 e1 =>
    rw [e1] at h1
    have h2 := s1.writeNum_worked (outsideWho p 0xFC) (y.frame + 0x10) 8 s1.tick
    split
    · next s2 e2 =>
      rw [e2] at h2
      have h3 := State.writeMany_worked (outsideWho p 0xFC) (y.psize / 64) s2 (y.frame + 0x40) snap
      split
      · next e3 => rw [e3] at h3; exact ((h1.trans h2).trans h3).trans (State.writeNum_worked _ _ _ _ _)
      · exact (h1.trans h2).trans h3
    · exact h1.trans h2
  · exact h1

/-- The state with the TICK of a replay's end, before the writes to its frame. -/
def State.withTend (s : State) (p : Nat) (y : Replay) : State := s.modReplay p y.num fun x => { x with tend := some (y.tend.getD s.tick) }

/-- The end of a replay whose three writes are made. -/
theorem State.endReplay_ok (s s1 s2 s3 : State) (p : Nat) (y : Replay) (ha : y.aborting = none)
    (h1 : (s.withTend p y).writeNum (outsideWho p 0xFC) (y.frame + 0x18) 8 (y.tend.getD s.tick) = (s1, .ok ()))
    (h2 : s1.writeNum (outsideWho p 0xFC) (y.frame + 4) 4 0 = (s2, .ok ())) (h3 : s2.writeNum (outsideWho p 0xFC) y.frame 4 2 = (s3, .ok ())) :
    s.endReplay p y = s3.dropReplay p y.num := by
  rw [State.withTend] at h1
  simp only [State.endReplay, State.endWrite, h1, ha, Option.map_none, Option.getD_none, h2, Option.isSome_none, Bool.false_eq_true, if_false, h3]

/-- The end of a replay whose first write is held. -/
theorem State.endReplay_held (s s1 : State) (p : Nat) (y : Replay)
    (h1 : (s.withTend p y).writeNum (outsideWho p 0xFC) (y.frame + 0x18) 8 (y.tend.getD s.tick) = (s1, .held)) : s.endReplay p y = s1 := by
  rw [State.withTend] at h1
  simp only [State.endReplay, State.endWrite, h1]

/-! ## Replays of a partition -/

@[simp] theorem State.modReplay_mem (s : State) (p n : Nat) (f : Replay → Replay) : (s.modReplay p n f).mem = s.mem := State.modPart_mem ..
@[simp] theorem State.modReplay_tick (s : State) (p n : Nat) (f : Replay → Replay) : (s.modReplay p n f).tick = s.tick := State.modPart_tick ..
@[simp] theorem State.modReplay_sets (s : State) (p n : Nat) (f : Replay → Replay) : (s.modReplay p n f).sets = s.sets := State.modPart_sets ..
@[simp] theorem State.modReplay_regs (s : State) (p n : Nat) (f : Replay → Replay) : (s.modReplay p n f).regs = s.regs := State.modPart_regs ..
@[simp] theorem State.reg_modReplay (s : State) (p n r : Nat) (f : Replay → Replay) : (s.modReplay p n f).reg r = s.reg r := State.reg_modPart ..
@[simp] theorem State.dropReplay_mem (s : State) (p n : Nat) : (s.dropReplay p n).mem = s.mem := State.modPart_mem ..
@[simp] theorem State.dropReplay_tick (s : State) (p n : Nat) : (s.dropReplay p n).tick = s.tick := State.modPart_tick ..
@[simp] theorem State.reg_dropReplay (s : State) (p n r : Nat) : (s.dropReplay p n).reg r = s.reg r := State.reg_modPart ..
@[simp] theorem State.stampSave_mem (s : State) (p : Nat) : (s.stampSave p).mem = s.mem := State.modPart_mem ..
@[simp] theorem State.reg_stampSave (s : State) (p r : Nat) : (s.stampSave p).reg r = s.reg r := State.reg_modPart ..

/-- A partition after one of its replays has changed. -/
theorem State.part_modReplay (s : State) (p n : Nat) (f : Replay → Replay) (v : Part) (hv : s.part? p = some v) :
    (s.modReplay p n f).part? p = some { v with replays := v.replays.map (fun y => if y.num = n then f y else y) } := by
  rw [State.modReplay, State.part_modPart, if_pos rfl, hv]; rfl

/-- A partition after one of its replays has gone. -/
theorem State.part_dropReplay (s : State) (p n : Nat) (v : Part) (hv : s.part? p = some v) :
    (s.dropReplay p n).part? p = some { v with replays := v.replays.filter (fun y => y.num != n) } := by
  rw [State.dropReplay, State.part_modPart, if_pos rfl, hv]; rfl

/-- A partition after a save or a write of an end. -/
theorem State.part_stampSave (s : State) (p : Nat) (v : Part) (hv : s.part? p = some v) :
    (s.stampSave p).part? p = some (if v.suspending = none then v else { v with tsusp := s.tick }) := by
  rw [State.stampSave, State.part_modPart, if_pos rfl, hv, Option.map_some]
  cases v.suspending <;> rfl

/-! ## Begin and end -/

/-- R55 to R57: a replay that may begin does so, once its graph object is read and its frame written. -/
theorem replayBegins : Claims.ReplayBegins := by
  intro s s1 s2 p n v y z snap hp hv hstate hsus hfind hmay hfree hread hwrite
  obtain ⟨hw1, hz⟩ := State.readGraph_ok _ _ _ _ _ _ _ hread
  have hw : State.Worked (outsideWho p 0xFC) s s2 := hw1.trans ((s1.writeBegin_worked p z snap).of_eq hwrite)
  obtain ⟨u, hu, -⟩ := hw.part_some hv
  have hruns : v.runs = true := by rw [Part.runs, hstate, hsus]; rfl
  have hbusy : v.replays.any (fun x => x.begun && x.frame == y.frame) = false := by
    simpa only [List.any_eq_false, Bool.and_eq_true, beq_iff_eq, not_and] using hfree
  have hexec : exec (.replayBegin p n) s = .next (s2.modReplay p n fun _ => z) := by
    show execReplayBegin p n s = _
    simp only [execReplayBegin, hp, if_true, State.replayBegin, hv, hfind, hmay, hruns, Bool.not_true, Bool.or_self, Bool.false_eq_true, if_false, hbusy, hread,
      hwrite]
  refine ⟨by rw [hz], by rw [hz], by rw [hz], by rw [hz], by rw [hz], _, u, _, hexec, State.modReplay_mem .., hu, State.part_modReplay _ _ _ _ u hu, rfl,
    fun r => ?_⟩
  rw [State.reg_modReplay, hw.reg_outside rfl]

/-- R56, R391: a replay whose stages have all completed ends. -/
theorem replayEnds : Claims.ReplayEnds := by
  intro s p n v y hp hv hstill hfind habort hbegun hne hdone w tend s0
  obtain rfl : y.num = n := by simpa using List.find?_some hfind
  have hover : y.over = true := by
    have hall : y.dgs.all DieGraph.over = true := List.all_eq_true.2 fun d hd => by rw [DieGraph.over, hdone d hd]
    rw [Replay.over, hbegun, hall, List.isEmpty_eq_false_iff.2 hne]; rfl
  have hexec : exec (.replayComplete p y.num) s = .next ((s.endReplay p y).stampSave p) := by
    show execReplayComplete p y.num s = _
    simp only [execReplayComplete, hp, if_true, State.replayComplete, hv, hfind, hstill, hover, Bool.false_eq_true, if_false, Bool.or_true]
  have hs0 : s0.part? p = _ := s.part_modReplay p y.num _ v hv
  refine ⟨fun s1 s2 s3 h1 h2 h3 => ?_, fun s1 h1 => ?_⟩
  · rw [s.endReplay_ok s1 s2 s3 p y habort h1 h2 h3] at hexec
    have hw : State.Worked w s0 s3 :=
      (((s0.writeNum_worked w _ _ _).of_eq h1).trans ((s1.writeNum_worked w _ _ _).of_eq h2)).trans ((s2.writeNum_worked w _ _ _).of_eq h3)
    obtain ⟨u, hu, -⟩ := hw.part_some hs0
    refine ⟨_, u, _, hexec, ?_, hu, State.part_stampSave _ _ _ (s3.part_dropReplay p y.num u hu), ?_, fun hn => ?_, fun r => ?_⟩
    · rw [State.stampSave_mem, State.dropReplay_mem]
    · split <;> rfl
    · rw [if_neg hn, State.dropReplay_tick]; exact hw.tick.trans (State.modReplay_tick ..)
    · rw [State.reg_stampSave, State.reg_dropReplay, hw.reg_outside rfl]; exact State.reg_modReplay ..
  · rw [s.endReplay_held s1 p y h1] at hexec
    have hw : State.Worked w s0 s1 := (s0.writeNum_worked w _ _ _).of_eq h1
    obtain ⟨u, hu, hcore⟩ := hw.part_some hs0
    have hmem : { y with tend := some tend } ∈ u.replays := by
      rw [Part.replays_of_core hcore]
      exact List.mem_map.2 ⟨y, List.mem_of_find?_eq_some hfind, if_pos rfl⟩
    refine ⟨_, u, _, hexec, State.stampSave_mem .., hu, s1.part_stampSave p u hu, ?_, ⟨{ y with tend := some tend }, ?_, rfl, rfl⟩, fun r => ?_⟩
    · rw [hw.tick, show s0.tick = s.tick from State.modReplay_tick ..]
    · split <;> exact hmem
    · rw [State.reg_stampSave, hw.reg_outside rfl]; exact State.reg_modReplay ..

/-- Settles O35: the accesses of a begin and of an end leave the regions and the partition's replays, which then change as the
statement says. -/
theorem replayLife : Obligations.ReplayLife := ⟨replayBegins, replayEnds⟩

end Sys2Proof.Machine

/-!
The parsing of a packet of a host queue: its read, the write of cons, and what both leave as it was (R129 to R132).
-/
namespace Sys2Proof.Machine

/-! ## The read of a packet -/

/-- A number of one byte. -/
theorem numAt_one (bs : List Byte) (o : Nat) : numAt bs o 1 = (bs.getD o 0).toNat := by
  rw [numAt]
  by_cases h : o < bs.length
  · rw [List.drop_eq_getElem_cons h, List.take_succ_cons, List.take_zero, ofBytes, ofBytes, List.getD_eq_getElem _ _ h]; omega
  · rw [List.drop_eq_nil_of_le (by omega), List.getD_eq_default _ _ (by omega)]; rfl

/-- A party without a region that reaches an address changes nothing. -/
theorem State.reach_ok_outside (s s1 : State) (w : Who) (va pa : Nat) (k : AKind) (hw : w.region = none) (h : s.reach w va k = (s1, .ok pa)) : s1 = s := by
  rcases State.reach_ok _ _ _ _ _ _ h with h | ⟨r, x, hr, -⟩
  · exact h
  · rw [hw] at hr; cases hr

/-- A completed read of a queue only counts its bytes. -/
theorem State.queueRead_ok (s s1 : State) (p : Nat) (h : HQueue) (va n : Nat) (bs : List Byte) (hr : s.queueRead p h va n = (s1, .ok bs)) :
    ∃ pa, s1 = s.countBytes p pa n := by
  have hreach (s2 : State) (pa : Nat) (e : s.queueReach p h va .read = (s2, .ok pa)) : s2 = s := by
    unfold State.queueReach at e
    split at e
    · exact (State.useXlate_ok _ _ _ _ _ _ _ e).1
    · exact State.reach_ok_outside _ _ _ _ _ _ rfl e
  unfold State.queueRead at hr
  split at hr
  · next s2 pa e =>
    obtain rfl := hreach s2 pa e
    split at hr
    · cases hr
    · cases hr; exact ⟨pa, rfl⟩
  · cases hr
  · cases hr

/-- A queue that may parse hands the packet that is read to the parser. -/
theorem State.withPacket_eq (s s1 : State) (p q : Nat) (v : Part) (h : HQueue) (bs : List Byte) (f : State → HQueue → List Byte → State)
    (hv : s.part? p = some v) (hq : spFind v.queues q = some h) (hstate : v.state = .ready) (hsus : v.suspending = none) (ho : h.owed = [])
    (hs : h.stopped = false) (hw : h.wait = .none) (hlt : h.cons < h.prod)
    (hr : s.queueRead p h (h.va + 0x40 + 64 * (h.cons % (2 ^ h.log2 / 64))) 64 = (s1, .ok bs)) : s.withPacket p q f = f s1 h bs := by
  have hqueue : s.queue? p q = some h := by rw [State.queue?, hv]; exact hq
  have hruns : v.runs = true := by rw [Part.runs, hstate, hsus]; rfl
  have hwaits : h.waits = false := by rw [HQueue.waits, hw]
  have hr' : s.queueRead p h (h.packetVA h.cons) 64 = (s1, .ok bs) := hr
  simp only [State.withPacket, hv, hqueue, ho, hruns, hs, hwaits, hr', List.isEmpty_nil, Bool.not_true, Bool.or_self, Bool.false_or, Bool.false_eq_true,
    if_false, decide_eq_true_eq, Nat.not_le.2 hlt]

section

variable {s s1 : State} {p q base : Nat} {v : Part} {h : HQueue} {bs : List Byte} (hat : Claims.AtPacket s s1 p q v h bs base)
include hat

/-- A packet of a type is parsed by the unit for that type. -/
theorem packet_of_atPacket (ty : Nat) (f : State → HQueue → List Byte → State) (hty : (bs.getD 0 0).toNat = ty) : s.packet p q ty f = f s1 h bs := by
  obtain ⟨-, -, hv, hq, hstate, hsus, ho, hs, hw, hlt, hr, hok, -⟩ := hat
  rw [State.packet, s.withPacket_eq s1 p q v h bs _ hv hq hstate hsus ho hs hw hlt hr, if_pos ⟨(numAt_one bs 0).trans hty, hok⟩]

/-- What the read of the packet leaves. -/
theorem read_of_atPacket : ∃ pa, s1 = s.countBytes p pa 64 := by
  obtain ⟨-, -, -, -, -, -, -, -, -, -, hr, -, -⟩ := hat
  exact State.queueRead_ok _ _ _ _ _ _ _ hr

theorem worked_of_atPacket : State.Worked (xdWho p) s s1 := by
  obtain ⟨pa, rfl⟩ := read_of_atPacket hat
  exact s.countBytes_worked _ p pa 64

theorem mem_of_atPacket : s1.mem = s.mem := by
  obtain ⟨pa, rfl⟩ := read_of_atPacket hat
  exact s.countBytes_mem p pa 64

theorem queue_of_atPacket : s1.queue? p q = some h := by
  rw [(worked_of_atPacket hat).queue]
  obtain ⟨-, -, hv, hq, -⟩ := hat
  rw [State.queue?, hv]; exact hq

theorem part_of_atPacket : ∃ m, s1.part? p = some { v with meter := m } := by
  obtain ⟨pa, rfl⟩ := read_of_atPacket hat
  obtain ⟨m, hm⟩ := (s.countBytes_readOnly (xdWho p) p pa 64).part p
  obtain ⟨-, -, hv, -⟩ := hat
  exact ⟨m, by rw [hm, hv]; rfl⟩

theorem headerLies_of_atPacket : Claims.HeaderLies s1 p h base := by
  obtain ⟨pa, rfl⟩ := read_of_atPacket hat
  obtain ⟨-, -, -, -, -, -, -, -, -, -, -, -, hl⟩ := hat
  exact (s.countBytes_queueWork p pa 64).headerLies h h base rfl rfl hl

end

/-! ## The write of cons -/

@[simp] theorem State.reg_modQueue (s : State) (p q r : Nat) (f : HQueue → HQueue) : (s.modQueue p q f).reg r = s.reg r := State.reg_modPart ..

/-- A partition after one of its queues has changed. -/
theorem State.part_modQueue (s : State) (p q : Nat) (f : HQueue → HQueue) :
    ∃ l, (s.modQueue p q f).part? p = (s.part? p).map (fun v => { v with queues := l }) := by
  rw [State.modQueue, State.part_modPart, if_pos rfl]
  cases s.part? p with
  | none => exact ⟨[], rfl⟩
  | some v => cases h : spFind v.queues q with
    | none => exact ⟨v.queues, by rw [Option.map_some, Option.map_some, h]⟩
    | some g => exact ⟨spInsert v.queues q (f g), by rw [Option.map_some, Option.map_some, h]⟩

/-- A queue that has moved its cons past a packet and owes it to its header. -/
def State.owingCons (s : State) (p q cons : Nat) : State :=
  (s.modQueue p q fun g => { g with cons := cons, wait := .none }).modQueue p q fun g => { g with owed := g.owed ++ [(8, 8, cons)] }

@[simp] theorem State.owingCons_mem (s : State) (p q cons : Nat) : (s.owingCons p q cons).mem = s.mem := by
  rw [State.owingCons, State.modQueue_mem, State.modQueue_mem]

@[simp] theorem State.reg_owingCons (s : State) (p q cons r : Nat) : (s.owingCons p q cons).reg r = s.reg r := by
  rw [State.owingCons, State.reg_modQueue, State.reg_modQueue]

theorem State.queue_owingCons (s : State) (p q cons : Nat) :
    (s.owingCons p q cons).queue? p q = (s.queue? p q).map fun g => { g with cons := cons, wait := .none, owed := g.owed ++ [(8, 8, cons)] } := by
  rw [State.owingCons, State.queue_modQueue, State.queue_modQueue, Option.map_map]; rfl

theorem State.part_owingCons (s : State) (p q cons : Nat) : ∃ l, (s.owingCons p q cons).part? p = (s.part? p).map fun v => { v with queues := l } := by
  obtain ⟨l1, h1⟩ := s.part_modQueue p q fun g => { g with cons := cons, wait := .none }
  obtain ⟨l2, h2⟩ := State.part_modQueue (s.modQueue p q fun g => { g with cons := cons, wait := .none }) p q
    fun g => { g with owed := g.owed ++ [(8, 8, cons)] }
  exact ⟨l2, by rw [State.owingCons, h2, h1, Option.map_map]; rfl⟩

/-- A running queue writes what it owes once it has parsed a packet. -/
theorem State.parsed_eq_flushQueue (s : State) (p q : Nat) (h : HQueue) (hq : s.queue? p q = some h) (hs : h.stopped = false) :
    s.parsed p q = (s.owingCons p q (h.cons + 1)).flushQueue p q 16 := by
  simp only [State.parsed, hq, hs, Bool.false_eq_true, if_false, State.queuePut]; rfl

/-- A queue that owes nothing to its header, which lies in memory, moves its cons and then the header's. -/
theorem State.parsed_headerLies (s : State) (p q base : Nat) (h : HQueue) (hq : s.queue? p q = some h) (hs : h.stopped = false) (ho : h.owed = [])
    (hl : Claims.HeaderLies s p h base) : s.parsed p q =
      (((s.owingCons p q (h.cons + 1)).countBytes p (base + 8) 8).writePhys (base + 8) 8 (h.cons + 1)).modQueue p q fun g => { g with owed := [] } := by
  let g : HQueue := { h with cons := h.cons + 1, wait := .none, owed := [(8, 8, h.cons + 1)] }
  have hwork : State.QueueWork p s (s.owingCons p q (h.cons + 1)) := (State.modQueue_queueWork s p q _).trans (State.modQueue_queueWork _ p q _)
  have hq1 : (s.owingCons p q (h.cons + 1)).queue? p q = some g := by rw [State.queue_owingCons, hq, Option.map_some, ho]; rfl
  have hwrite := State.queueWrite_headerLies _ p g base 8 8 (h.cons + 1) (hwork.headerLies h g base rfl rfl hl) (by decide) (by decide)
  rw [s.parsed_eq_flushQueue p q h hq hs, State.flushQueue]
  simp only [hq1, hwrite, g]
  refine State.flushQueue_nil _ p q 15 { g with owed := [] } ?_ rfl
  rw [State.queue_modQueue, State.queue_writePhys, State.queue_countBytes, hq1]; rfl

section

variable {s : State} {p q base : Nat} {h : HQueue} (hq : s.queue? p q = some h) (hs : h.stopped = false) (ho : h.owed = []) (hl : Claims.HeaderLies s p h base)
include hq hs ho hl

/-- R129: the packet has been parsed. -/
theorem State.parsed_parsed : Claims.Parsed s.mem (s.parsed p q) p q { h with wait := .none } base := by
  have hmem : (s.parsed p q).mem = s.mem.writeN (base + 8) (toBytes 8 (h.cons + 1)) := by
    rw [s.parsed_headerLies p q base h hq hs ho hl, State.modQueue_mem, State.writePhys_mem, State.countBytes_mem, State.owingCons_mem]
  refine ⟨?_, fun i hi => ?_, fun x hx => ?_⟩
  · rw [s.parsed_headerLies p q base h hq hs ho hl, State.queue_modQueue, State.queue_writePhys, State.queue_countBytes, State.queue_owingCons, hq]
    simp only [Option.map_some, ho]
  · rw [hmem, Memory.read_writeN_in _ _ _ _ _ hi]
  · rw [hmem, Memory.read_writeN_out _ _ _ _ _ (by omega)]

/-- Parsing leaves the regions. -/
theorem State.reg_parsed (r : Nat) : (s.parsed p q).reg r = s.reg r := by
  rw [s.parsed_headerLies p q base h hq hs ho hl, State.reg_modQueue, State.reg, State.writePhys_regs, State.countBytes_regs, ← State.reg, State.reg_owingCons]

/-- Parsing leaves a partition but for its queues and its meter. -/
theorem State.part_parsed (v : Part) (hv : s.part? p = some v) : ∃ l m, (s.parsed p q).part? p = some { v with queues := l, meter := m } := by
  set s1 := s.owingCons p q (h.cons + 1) with hs1
  obtain ⟨l1, h1⟩ := s.part_owingCons p q (h.cons + 1)
  obtain ⟨m, h2⟩ := (s1.countBytes_readOnly (xdWho p) p (base + 8) 8).part p
  obtain ⟨l, h3⟩ := ((s1.countBytes p (base + 8) 8).writePhys (base + 8) 8 (h.cons + 1)).part_modQueue p q fun g => { g with owed := [] }
  refine ⟨l, m, ?_⟩
  rw [s.parsed_headerLies p q base h hq hs ho hl, h3, State.part?, State.writePhys_parts, ← State.part?, h2, hs1, h1, hv]; rfl

end

end Sys2Proof.Machine

/-!
The work on a queue's header whatever comes of its accesses, and a stage-1 invalidation (R129, R130, R174, R175).
-/
namespace Sys2Proof.Machine

/-! ## The header, whatever comes of its writes -/

theorem State.queueReach_worked (s : State) (p : Nat) (h : HQueue) (va : Nat) (k : AKind) : State.Worked (xdWho p) s (s.queueReach p h va k).1 := by
  unfold State.queueReach
  split
  · exact s.useXlate_worked _ _ va k
  · exact s.reach_worked _ va k

theorem State.queueWrite_worked (s : State) (p : Nat) (h : HQueue) (off n v : Nat) : State.Worked (xdWho p) s (s.queueWrite p h off n v).1 := by
  have hr := s.queueReach_worked p h (h.va + off) .write
  unfold State.queueWrite
  dsimp only
  split_ifs
  · exact .rfl _ s
  · split <;> rename_i e <;> rw [e] at hr
    · split
      · exact hr
      · dsimp only
        exact (hr.trans (State.countBytes_worked _ _ p _ n)).trans (State.modMem_worked _ _ _)
    · exact hr
    · exact hr

/-- `t` has the regions of `s` and the cons of queue `q` of partition `p`. -/
structure State.KeepsCons (p q : Nat) (s t : State) : Prop where
  reg : ∀ r, t.reg r = s.reg r
  cons : (t.queue? p q).map HQueue.cons = (s.queue? p q).map HQueue.cons

theorem State.KeepsCons.trans {p q : Nat} {s t u : State} (h : State.KeepsCons p q s t) (g : State.KeepsCons p q t u) : State.KeepsCons p q s u :=
  ⟨fun r => (g.reg r).trans (h.reg r), g.cons.trans h.cons⟩

theorem State.Worked.keepsCons {p q : Nat} {w : Who} {s t : State} (h : State.Worked w s t) (hw : w.region = none) : State.KeepsCons p q s t :=
  ⟨h.reg_outside hw, by rw [h.queue]⟩

theorem State.modQueue_keepsCons (s : State) (p q : Nat) (f : HQueue → HQueue) (hf : ∀ h, (f h).cons = h.cons) : State.KeepsCons p q s (s.modQueue p q f) :=
  ⟨fun r => s.reg_modQueue p q r f, by rw [State.queue_modQueue, Option.map_map]; exact Option.map_congr fun h _ => hf h⟩

theorem State.modPart_keepsCons (s : State) (p q : Nat) (f : Part → Part) (hf : ∀ v, (f v).queues = v.queues) : State.KeepsCons p q s (s.modPart p f) :=
  ⟨fun r => s.reg_modPart p r f, by rw [State.queue_modPart _ _ _ _ hf]⟩

theorem State.markStopped_keepsCons (s : State) (p q : Nat) (c : BitVec 9) (idx : Nat) : State.KeepsCons p q s (s.markStopped p q c idx) := by
  have hdrop : State.KeepsCons p q s (s.invDrop p (InvOp.isInval q)) := (s.invDrop_worked (xdWho p) p _).keepsCons rfl
  refine (hdrop.trans (State.modQueue_keepsCons _ p q _ fun h => ?_)).trans (State.modPart_keepsCons _ p q _ fun v => ?_) <;> rfl

/-- The writes that a queue owes, whatever comes of them. -/
theorem State.flushQueue_keepsCons (p q f : Nat) : ∀ s : State, State.KeepsCons p q s (s.flushQueue p q f) := by
  induction f with
  | zero => exact fun s => ⟨fun _ => rfl, rfl⟩
  | succ f ih =>
    intro s
    have hpop (s1 : State) (rest : List (Nat × Nat × Nat)) : State.KeepsCons p q s1 ((s1.modQueue p q fun g => { g with owed := rest }).flushQueue p q f) :=
      (s1.modQueue_keepsCons p q (fun g => { g with owed := rest }) fun _ => rfl).trans (ih _)
    rw [State.flushQueue]
    split
    · exact ⟨fun _ => rfl, rfl⟩
    · next h _ =>
      split
      · exact ⟨fun _ => rfl, rfl⟩
      · next off n v rest _ =>
        have hw : State.KeepsCons p q s (s.queueWrite p h off n v).1 := (s.queueWrite_worked p h off n v).keepsCons rfl
        split <;> rename_i e <;> rw [e] at hw
        · exact hw
        · exact hw.trans (hpop _ rest)
        · split
          · exact hw.trans (hpop _ rest)
          · exact hw.trans ((State.markStopped_keepsCons _ p q _ _).trans (ih _))

/-- A running queue that has parsed a packet, whatever comes of the write to its header. -/
theorem State.parsed_cons (s : State) (p q : Nat) (h : HQueue) (hq : s.queue? p q = some h) (hs : h.stopped = false) :
    (∀ r, (s.parsed p q).reg r = s.reg r) ∧ ∃ g, (s.parsed p q).queue? p q = some g ∧ g.cons = h.cons + 1 := by
  have hflush := State.flushQueue_keepsCons p q 16 (s.owingCons p q (h.cons + 1))
  rw [← s.parsed_eq_flushQueue p q h hq hs] at hflush
  refine ⟨fun r => by rw [hflush.reg, State.reg_owingCons], ?_⟩
  have hcons := hflush.cons
  rw [State.queue_owingCons, hq] at hcons
  exact Option.map_eq_some_iff.1 hcons

/-! ## A stage-1 invalidation -/

theorem spFind_map {α β : Type} (l : Sparse α) (f : α → β) (n : Nat) : spFind (l.map fun e => (e.1, f e.2)) n = (spFind l n).map f := by
  induction l with
  | nil => rfl
  | cons e l ih =>
    obtain ⟨k, v⟩ := e
    rw [List.map_cons, spFind, spFind]
    split
    · rfl
    · exact ih

/-- A change of every listed region that leaves a region at reset as it is. -/
theorem State.reg_mapRegs (s : State) (f : Region → Region) (hf : f {} = {}) (r : Nat) :
    ({ s with regs := s.regs.map fun e => (e.1, f e.2) } : State).reg r = f (s.reg r) := by
  rw [State.reg, spGet, spFind_map, State.reg, spGet]
  cases spFind s.regs r with
  | none => exact hf.symm
  | some v => rfl

/-- Whether an invalidation of a range of VAs of a partition drops a translation (R174). -/
def dropsXlate (p lo hi : Nat) (x : Xlate) : Bool := x.part == p && (decide (x.va < hi) && decide (lo < x.va + x.size))

/-- A region without the translations that an invalidation drops. -/
def State.withoutXlates (s : State) (p lo hi : Nat) (g : Region) : Region :=
  { g with
    tlb := g.tlb.filter fun x => !dropsXlate p lo hi x
    streams := g.streams.map fun e => (e.1, s.repatchStream p (dropsXlate p lo hi) e.2) }

/-- A region without the instruction-cache lines that an invalidation drops. -/
def Region.withoutLines (p lo hi : Nat) (g : Region) : Region :=
  if g.place.map Placement.part = some p then { g with icache := g.icache.filter fun l => !(decide (l.va < hi) && decide (lo < l.va + 64)) } else g

/-- A region after an invalidation. -/
theorem State.reg_invalidate (s : State) (p lo hi r : Nat) : (s.invalidate p lo hi).reg r = (s.withoutXlates p lo hi (s.reg r)).withoutLines p lo hi := by
  refine (State.reg_mapRegs _ (Region.withoutLines p lo hi) rfl r).trans ?_
  rw [State.repatch, State.reg_modPart]
  exact congrArg _ (s.reg_mapRegs (s.withoutXlates p lo hi) rfl r)

theorem Region.withoutLines_seq (p lo hi : Nat) (g : Region) : (g.withoutLines p lo hi).seq = g.seq := by unfold Region.withoutLines; split <;> rfl

theorem Region.withoutLines_tlb (p lo hi : Nat) (g : Region) : (g.withoutLines p lo hi).tlb = g.tlb := by unfold Region.withoutLines; split <;> rfl

/-- No line of the range is left in the cache of a region of the partition. -/
theorem Region.mem_withoutLines_icache (p lo hi : Nat) (g : Region) (l : ILine) (hp : g.place.map Placement.part = some p)
    (hl : l ∈ (g.withoutLines p lo hi).icache) (hlt : l.va < hi) : l.va + 64 ≤ lo := by
  rw [Region.withoutLines, if_pos hp, List.mem_filter] at hl
  obtain ⟨-, hkept⟩ := hl
  simpa [hlt] using hkept

/-- No translation of the range is left in the cache of a region. -/
theorem State.mem_withoutXlates_tlb (s : State) (p lo hi : Nat) (g : Region) (x : Xlate) (hx : x ∈ (s.withoutXlates p lo hi g).tlb) (hp : x.part = p)
    (hlt : x.va < hi) : x.va + x.size ≤ lo := by
  obtain ⟨-, hkept⟩ := List.mem_filter.1 hx
  simpa [dropsXlate, hp, hlt] using hkept

/-- A queue without the extents that an invalidation drops. -/
def HQueue.withoutExtents (p lo hi : Nat) (h : HQueue) : HQueue := { h with extents := h.extents.filter fun x => !dropsXlate p lo hi x }

/-- A queue after an invalidation. -/
theorem State.queue_invalidate (s : State) (p q lo hi : Nat) : (s.invalidate p lo hi).queue? p q = (s.queue? p q).map (HQueue.withoutExtents p lo hi) := by
  have hpart : (s.invalidate p lo hi).part? p = (s.part? p).map fun v => { v with queues := v.queues.map fun e => (e.1, e.2.withoutExtents p lo hi) } := by
    show (State.modPart _ p _).part? p = _
    rw [State.part_modPart, if_pos rfl]; rfl
  rw [State.queue?, hpart, State.queue?]
  cases s.part? p with
  | none => rfl
  | some v => exact spFind_map v.queues (HQueue.withoutExtents p lo hi) q

/-- An INVAL that has invalidated its range in a state with the regions of `s`, and is then parsed. -/
theorem invalidated_of_parsed (s s0 u : State) (p q lo hi : Nat) (h : HQueue) (hs0 : ∀ r, s0.reg r = s.reg r)
    (hu : ∀ r, u.reg r = (s0.invalidate p lo hi).reg r) (hq : u.queue? p q = some h) (hs : h.stopped = false) (hexec : exec (.inval p q) s = .next (u.parsed p q)) :
    Claims.Invalidated s p q lo hi (h.cons + 1) := by
  obtain ⟨hreg, g, hg, hcons⟩ := u.parsed_cons p q h hq hs
  have hregs (r : Nat) : (u.parsed p q).reg r = (s0.withoutXlates p lo hi (s.reg r)).withoutLines p lo hi := by rw [hreg, hu, s0.reg_invalidate, hs0]
  refine ⟨_, g, hexec, fun r x hx hpart hlt => ?_, fun r l hl howner hlt => ?_, fun r => ?_, hg, hcons⟩
  · rw [hregs, Region.withoutLines_tlb] at hx
    exact s0.mem_withoutXlates_tlb p lo hi _ x hx hpart hlt
  · rw [hregs] at hl
    exact Region.mem_withoutLines_icache p lo hi (s0.withoutXlates p lo hi (s.reg r)) l howner hl hlt
  · rw [hregs, Region.withoutLines_seq]; rfl

/-- An INVAL that finds other operations takes its place behind them. -/
theorem State.inval_mem_invQueue (s : State) (p q lo hi : Nat) (v : Part) (hv : s.part? p = some v) :
    ∃ u, (s.invQueue p (.inval q lo hi)).part? p = some u ∧ InvOp.inval q lo hi ∈ u.invq := by
  have hcovers (a : InvOp) : a.covers (.inval q lo hi) = (a == .inval q lo hi) := by cases a <;> rfl
  set s1 := s.modPart p fun v => if v.invq.any (fun a => a.covers (.inval q lo hi)) then v else { v with invq := v.invq ++ [.inval q lo hi] } with hs1
  obtain ⟨u, hu, hmem⟩ : ∃ u, s1.part? p = some u ∧ InvOp.inval q lo hi ∈ u.invq := by
    rw [hs1, State.part_modPart, if_pos rfl, hv, Option.map_some]
    split
    · next h =>
      obtain ⟨a, ha, he⟩ := List.any_eq_true.1 h
      rw [hcovers, beq_iff_eq] at he
      exact ⟨v, rfl, he ▸ ha⟩
    · exact ⟨_, rfl, List.mem_append_right _ List.mem_cons_self⟩
  show ∃ u, (s1.invStart p).part? p = some u ∧ _
  rcases s1.invStart_cases p with h | ⟨w, g, l, m, hw, hl, h⟩ <;> rw [h]
  · exact ⟨u, hu, hmem⟩
  · obtain rfl : u = w := Option.some.inj (hu.symm.trans hw)
    refine ⟨_, by rw [State.part?, State.emit_parts, ← State.part?, State.part_setPart, if_pos rfl], List.mem_cons_of_mem _ ?_⟩
    simpa [hl] using hmem

end Sys2Proof.Machine

/-!
O37, the packets of a host queue (R55 to R57, R129 to R134, R174, R175).
-/
namespace Sys2Proof.Machine

/-! ## What every packet's proof needs of its packet -/

section

variable {s s1 : State} {p q base : Nat} {v : Part} {h : HQueue} {bs : List Byte} (hat : Claims.AtPacket s s1 p q v h bs base)
include hat

theorem unit_of_atPacket : p < 48 ∧ q < 16 := ⟨hat.1, hat.2.1⟩

theorem ok_of_atPacket : packetOk bs = true := by
  obtain ⟨-, -, -, -, -, -, -, -, -, -, -, hok, -⟩ := hat
  exact hok

/-- The queue stands before its packet. -/
theorem standing_of_atPacket : h.owed = [] ∧ h.stopped = false ∧ h.wait = .none := by
  obtain ⟨-, -, -, -, -, -, ho, hs, hw, -⟩ := hat
  exact ⟨ho, hs, hw⟩

/-- A packet of this queue that is parsed in a state which still holds the queue and its header. -/
theorem parsed_of_atPacket (t : State) (hq : t.queue? p q = some h) (hl : Claims.HeaderLies t p h base) :
    Claims.Parsed t.mem (t.parsed p q) p q h base ∧ ∀ r, (t.parsed p q).reg r = t.reg r := by
  obtain ⟨ho, hs, hw⟩ := standing_of_atPacket hat
  have hparsed := State.parsed_parsed hq hs ho hl
  rw [← hw] at hparsed
  exact ⟨hparsed, fun r => State.reg_parsed hq hs ho hl r⟩

end

theorem State.packetGot_ok {α : Type} {y : State × Got α} {s1 : State} {a : α} (hy : y = (s1, .ok a)) (p q idx : Nat) (f : State → α → State) :
    State.packetGot y p q idx f = f s1 a := by rw [hy]; rfl

theorem State.packetGot_held {α : Type} {y : State × Got α} {s1 : State} (hy : y = (s1, .held)) (p q idx : Nat) (f : State → α → State) :
    State.packetGot y p q idx f = s1 := by rw [hy]; rfl

/-- A flag byte of a packet that has at most three flags. -/
theorem flags_testBit (n : Nat) :
    n.testBit 0 = decide (n % 2 = 1) ∧ n.testBit 1 = decide (n / 2 % 2 = 1) ∧ (n ≤ 7 → n.testBit 2 = decide (4 ≤ n)) := by
  refine ⟨?_, ?_, fun h => ?_⟩ <;> rw [Nat.testBit_eq_decide_div_mod_eq, decide_eq_decide]
  · rw [Nat.pow_zero, Nat.div_one]
  · rw [show 2 ^ 2 = 4 from rfl]; omega

/-- R134: a SIGNAL that meets R132 has no flag beyond its three. -/
theorem signal_flags_le (bs : List Byte) (hty : numAt bs 0 1 = 6) (hok : packetOk bs = true) : numAt bs 1 1 ≤ 7 := by
  simp only [packetOk, hty, Bool.and_eq_true, decide_eq_true_eq] at hok
  exact hok.2.1.1.1

/-! ## NOP, HCOPY, SIGNAL -/

/-- The copy that an HCOPY packet enters. -/
def hcopyJob (s : State) (q : Nat) (h : HQueue) (bs : List Byte) : HJob :=
  { num := s.pkg.msgCount, queue := q, idx := h.cons, src := numAt bs 8 8, dst := numAt bs 0x10 8, len := numAt bs 0x18 8, ctr := numAt bs 0x20 8
    wait := numAt bs 1 1 == 1 }

/-- The state in which a copy has entered the copy engine. -/
def State.withJob (s : State) (p : Nat) (j : HJob) : State :=
  (s.modPart p fun v => { v with jobs := v.jobs ++ [j] }).modPkg fun k => { k with msgCount := s.pkg.msgCount + 1 }

theorem State.hcopyPacket_eq (s : State) (p q : Nat) (h : HQueue) (bs : List Byte) : s.hcopyPacket p q h bs =
    if numAt bs 1 1 = 1 then (s.withJob p (hcopyJob s q h bs)).modQueue p q fun g => { g with wait := .hcopy h.cons }
    else (s.withJob p (hcopyJob s q h bs)).parsed p q := by
  simp only [State.hcopyPacket, State.withJob, hcopyJob, beq_iff_eq]

theorem State.part_withJob (s : State) (p : Nat) (j : HJob) (v : Part) (hv : s.part? p = some v) :
    (s.withJob p j).part? p = some { v with jobs := v.jobs ++ [j] } := by
  rw [State.withJob, State.part?, State.modPkg_parts, ← State.part?, State.part_modPart, if_pos rfl, hv]; rfl

theorem State.queue_withJob (s : State) (p q : Nat) (j : HJob) : (s.withJob p j).queue? p q = s.queue? p q :=
  State.queue_modPart s p q _ fun _ => rfl

/-- A copy that enters leaves a header where it lies. -/
theorem State.headerLies_withJob (s : State) (p : Nat) (j : HJob) (h : HQueue) (base : Nat) (hl : Claims.HeaderLies s p h base) :
    Claims.HeaderLies (s.withJob p j) p h base := by
  have hpart : Claims.HeaderLies (s.modPart p fun v => { v with jobs := v.jobs ++ [j] }) p h base :=
    (s.modPart_queueWork p (fun v => { v with jobs := v.jobs ++ [j] }) (fun _ => rfl) fun _ => rfl).headerLies h h base rfl rfl hl
  exact hpart

/-- R129, R132, R134: NOP, HCOPY and a waiting SIGNAL. -/
theorem packetsParsed : Claims.PacketsParsed := by
  intro s s1 p q base v h bs hat n8 ty flags
  have hunit := unit_of_atPacket hat
  have hq1 := queue_of_atPacket hat
  have hmem1 := mem_of_atPacket hat
  have hreg1 (r : Nat) : s1.reg r = s.reg r := (worked_of_atPacket hat).reg_outside rfl r
  obtain ⟨m1, hv1⟩ := part_of_atPacket hat
  refine ⟨fun hty => ?_, fun hty => ?_, fun hty hafter => ?_⟩
  · have hexec : exec (.nopPacket p q) s = .next (s1.parsed p q) := by
      show execNopPacket p q s = _
      rw [execNopPacket, if_pos hunit, packet_of_atPacket hat 0 _ hty]
    obtain ⟨hparsed, hreg⟩ := parsed_of_atPacket hat s1 hq1 (headerLies_of_atPacket hat)
    exact ⟨_, hexec, hmem1 ▸ hparsed, fun r => (hreg r).trans (hreg1 r)⟩
  · have hexec : exec (.hcopy p q) s = .next (s1.hcopyPacket p q h bs) := by
      show execHcopy p q s = _
      rw [execHcopy, if_pos hunit, packet_of_atPacket hat 5 _ hty]
    rw [State.hcopyPacket_eq, numAt_one] at hexec
    have hq2 : (s1.withJob p (hcopyJob s1 q h bs)).queue? p q = some h := (State.queue_withJob ..).trans hq1
    have hv2 := s1.part_withJob p (hcopyJob s1 q h bs) _ hv1
    have hmem2 : (s1.withJob p (hcopyJob s1 q h bs)).mem = s.mem := (State.modPart_mem ..).trans hmem1
    by_cases hwait : flags = 1
    · rw [if_pos hwait] at hexec
      obtain ⟨l, hl⟩ := (s1.withJob p (hcopyJob s1 q h bs)).part_modQueue p q fun g => { g with wait := .hcopy h.cons }
      refine ⟨_, _, hcopyJob s1 q h bs, hexec, hl.trans (congrArg _ hv2), rfl, rfl, rfl, rfl, rfl, rfl, rfl, rfl, fun h0 => by omega,
        fun _ => ⟨?_, fun x => ?_⟩⟩
      · rw [State.queue_modQueue, hq2]; rfl
      · rw [State.modQueue_mem, hmem2]
    · rw [if_neg hwait] at hexec
      obtain ⟨ho, hs, hw⟩ := standing_of_atPacket hat
      have hl2 := s1.headerLies_withJob p (hcopyJob s1 q h bs) h base (headerLies_of_atPacket hat)
      obtain ⟨l, m, hpart⟩ := State.part_parsed hq2 hs ho hl2 _ hv2
      obtain ⟨hparsed, -⟩ := parsed_of_atPacket hat _ hq2 hl2
      exact ⟨_, _, hcopyJob s1 q h bs, hexec, hpart, rfl, rfl, rfl, rfl, rfl, rfl, rfl, rfl, fun _ => hmem2 ▸ hparsed, fun h1 => absurd h1 hwait⟩
  · intro vec before
    have hfl : numAt bs 1 1 = flags := numAt_one bs 1
    have hle : flags ≤ 7 := hfl ▸ signal_flags_le bs ((numAt_one bs 0).trans hty) (ok_of_atPacket hat)
    obtain ⟨hadd, hafter', hvec⟩ := flags_testBit flags
    have hexec : exec (.signal p q) s = .next (s1.modQueue p q fun g =>
        { g with wait := .signal h.cons (n8 8) (n8 0x10) (decide (flags % 2 = 1)) vec before }) := by
      show execSignal p q s = _
      rw [execSignal, if_pos hunit, packet_of_atPacket hat 6 _ hty, State.signalPacket]
      simp only [hfl, hadd, hafter', hvec hle, hafter, hv1, decide_true, if_true, decide_eq_true_eq]
      rfl
    refine ⟨_, hexec, ?_, fun x => by rw [State.modQueue_mem, hmem1]⟩
    rw [State.queue_modQueue, hq1]; rfl

/-! ## A packet that does not meet R132 -/

/-- R132: such a packet stops its queue. -/
theorem malformedStops : Claims.MalformedStops := by
  intro s s1 p q base v h bs hp hq hv hh hstate hsus ho hs hw hlt hr hbad hl
  have hexec : exec (.packetMalformed p q) s = .next (s1.queueStop p q Cause.packetMalformed h.cons) := by
    show execPacketMalformed p q s = _
    rw [execPacketMalformed, if_pos ⟨hp, hq⟩, s.withPacket_eq s1 p q v h bs _ hv hh hstate hsus ho hs hw hlt hr, hbad, if_neg Bool.false_ne_true]
  obtain ⟨pa, rfl⟩ := State.queueRead_ok _ _ _ _ _ _ _ hr
  have hwork := s.countBytes_queueWork p pa 64
  have hqueue : (s.countBytes p pa 64).queue? p q = some h := by rw [State.queue_countBytes, State.queue?, hv]; exact hh
  obtain ⟨hstop, hheader⟩ := State.queueStop_headerLies _ p q base h.cons h Cause.packetMalformed hqueue hs (hwork.headerLies h h base rfl rfl hl)
  exact ⟨_, hexec, s.countBytes_mem p pa 64 ▸ hheader, (hwork.trans hstop).reg⟩

/-! ## LAUNCH -/

/-- R55, R56, R132: a LAUNCH is accepted, and then parsed. -/
theorem launchParsed : Claims.LaunchParsed := by
  intro s s1 s2 p q base v h bs hat hty hl hwrite
  have hw1 : State.Worked (xdWho p) s1 s2 := (s1.writeAccepted_worked _ _ _).of_eq hwrite
  obtain ⟨m1, hv1⟩ := part_of_atPacket hat
  obtain ⟨u, hu, -⟩ := hw1.part_some hv1
  have hq2 : s2.queue? p q = some h := (hw1.queue p q).trans (queue_of_atPacket hat)
  let accept (u : Part) : Part := u.accept (.host q) h.prio (numAt bs 8 8) (numAt bs 0x10 8)
  set s3 := s2.modPart p accept with hs3
  have hexec : exec (.launchPacket p q) s = .next (s3.parsed p q) := by
    show execLaunchPacket p q s = _
    rw [execLaunchPacket, if_pos (unit_of_atPacket hat), packet_of_atPacket hat 1 _ (by rw [hty]; rfl)]
    simp only [State.launchPacket, hv1]
    exact congrArg _ (State.packetGot_ok hwrite _ _ _ _)
  have hq3 : s3.queue? p q = some h := (s2.queue_modPart p q accept fun _ => rfl).trans hq2
  have hv3 : s3.part? p = some (accept u) := by rw [hs3, State.part_modPart, if_pos rfl, hu]; rfl
  have hl3 : Claims.HeaderLies s3 p h base := (s2.modPart_queueWork p accept (fun _ => rfl) fun _ => rfl).headerLies h h base rfl rfl hl
  obtain ⟨hparsed, hreg⟩ := parsed_of_atPacket hat s3 hq3 hl3
  obtain ⟨ho, hs, -⟩ := standing_of_atPacket hat
  obtain ⟨l, m, hpart⟩ := State.part_parsed hq3 hs ho hl3 _ hv3
  refine ⟨_, hexec, (s2.modPart_mem p _ : s3.mem = s2.mem) ▸ hparsed, fun r => ?_, accepted_of_part _ _ _ _ _ _ _ u l m hu hpart⟩
  rw [hreg, hs3, State.reg_modPart, ((worked_of_atPacket hat).trans hw1).reg_outside rfl]

/-! ## PATCH and INVAL -/

/-- PATCH, where its graph object and its bytes are read and lie in the block: what is left is the write. -/
theorem exec_patch_eq {s s1 s2 s3 : State} {p q base : Nat} {v : Part} {h : HQueue} {bs g d : List Byte} (hat : Claims.AtPacket s s1 p q v h bs base)
    (hty : bs.getD 0 0 = 3) (hg : s1.readVA (xdWho p) (numAt bs 8 8) 64 = (s2, .ok g)) (hlen : numAt bs 0x10 4 + numAt bs 0x14 4 ≤ numAt g 0x18 4)
    (hd : (if bs.getD 1 0 = 1 then s2.readLong (xdWho p) 1026 (numAt bs 0x18 8) (numAt bs 0x14 4)
      else (s2, .ok ((bs.drop 0x18).take (numAt bs 0x14 4)))) = (s3, .ok d)) :
    exec (.patch p q) s = .next (State.packetGot (s3.writeWhole (xdWho p) (numAt g 0x10 8 + numAt bs 0x10 4) d) p q h.cons fun s4 _ => s4.parsed p q) := by
  have hflag : numAt bs 1 1 = 1 ↔ bs.getD 1 0 = 1 := by
    rw [numAt_one]; exact ⟨fun e => BitVec.eq_of_toNat_eq e, fun e => by rw [e]; rfl⟩
  show execPatch p q s = _
  rw [execPatch, if_pos (unit_of_atPacket hat), packet_of_atPacket hat 3 _ (by rw [hty]; rfl), State.patchPacket]
  dsimp only
  rw [State.packetGot_ok hg, if_neg (Nat.not_lt.2 hlen), State.packetGot_ok]
  simp only [hflag, hd]

/-- R132, R174, R175: PATCH and INVAL at parse. -/
theorem patchInval : Claims.PatchInval := by
  intro s s1 p q base v h bs hat w n4
  have hq1 := queue_of_atPacket hat
  have hw1 := worked_of_atPacket hat
  constructor
  · intro s2 s3 s4 g d hty hg hlen hd at'
    have hexec := exec_patch_eq hat hty hg hlen hd
    have hw3 : State.Worked w s s3 := by
      refine (hw1.trans ((s1.readVA_worked w _ 64).of_eq hg)).trans ?_
      split at hd
      · exact (State.readLong_worked w _ s2 _ _).of_eq hd
      · cases hd; exact .rfl w s2
    refine ⟨fun hwrite hl => ?_, fun hheld => ?_⟩
    · have hw4 := hw3.trans ((s3.writeWhole_worked w at' d).of_eq hwrite)
      have hq4 : s4.queue? p q = some h := by rw [hw4.queue, ← hw1.queue, hq1]
      obtain ⟨hparsed, hreg⟩ := parsed_of_atPacket hat s4 hq4 hl
      exact ⟨_, hexec.trans (congrArg _ (State.packetGot_ok hwrite _ _ _ _)), hparsed, fun r => (hreg r).trans (hw4.reg_outside rfl r)⟩
    · have hwrite : s3.writeWhole w at' d = (s4, .held) := by rw [State.writeWhole, hheld]
      exact ⟨_, hexec.trans (congrArg _ (State.packetGot_held hwrite _ _ _ _)), rfl, rfl, fun _ => rfl⟩
  · intro hty lo hi
    obtain ⟨ho, hs, hwait⟩ := standing_of_atPacket hat
    obtain ⟨m1, hv1⟩ := part_of_atPacket hat
    have hqs : s.queue? p q = some h := (hw1.queue p q).symm.trans hq1
    have hrange : invalRange bs = (lo, hi) := by
      show (if n4 0x10 = 0 then _ else _) = _
      simp only [lo, hi]
      split <;> rfl
    have hexec : exec (.inval p q) s = .next (s1.invalPacket p q h bs) := by
      show execInval p q s = _
      rw [execInval, if_pos (unit_of_atPacket hat), hqs]
      simp only [Option.map_some, hwait]
      rw [packet_of_atPacket hat 4 _ (by rw [hty]; rfl)]
    have hfree : s1.invFree p = v.invq.isEmpty := by rw [State.invFree, hv1]; rfl
    simp only [State.invalPacket, hrange, hfree] at hexec
    refine ⟨fun hq => ?_, fun hq => ?_⟩
    · rw [hq, List.isEmpty_nil, if_pos rfl] at hexec
      exact invalidated_of_parsed s s1 _ p q lo hi (h.withoutExtents p lo hi) (hw1.reg_outside rfl) (fun _ => rfl)
        (by rw [State.queue_invalidate, hq1, Option.map_some]) hs hexec
    · rw [List.isEmpty_eq_false_iff.2 hq, if_neg Bool.false_ne_true] at hexec
      obtain ⟨u, hu, hmem⟩ := s1.inval_mem_invQueue p q lo hi _ hv1
      have hw2 := hw1.trans (s1.invQueue_worked (xdWho p) p (.inval q lo hi))
      obtain ⟨l, hl⟩ := (s1.invQueue p (.inval q lo hi)).part_modQueue p q fun g => { g with wait := .inval h.cons }
      refine ⟨_, { u with queues := l }, hexec, by rw [hl, hu]; rfl, hmem, ?_, fun r => ?_, fun x => ?_⟩
      · rw [State.queue_modQueue, hw2.queue, hqs]; rfl
      · rw [State.reg_modQueue, hw2.reg_outside rfl]
      · rw [State.modQueue_mem, State.invQueue_mem, mem_of_atPacket hat]

/-- R174, R175: an INVAL whose turn has come. -/
theorem invalTurn : Claims.InvalTurn := by
  intro s p q idx lo hi v h l hp hq hv hh hstate hsus hs hwait hinv
  have hqueue : s.queue? p q = some h := by rw [State.queue?, hv]; exact hh
  have hruns : v.runs = true := by rw [Part.runs, hstate, hsus]; rfl
  have hdone := (s.invalidate p lo hi).invDone_worked (xdWho p) p
  have hexec : exec (.inval p q) s = .next (((s.invalidate p lo hi).invDone p).parsed p q) := by
    show execInval p q s = _
    simp only [execInval, hp, hq, and_self, if_true, hqueue, Option.map_some, hwait, State.invalTurn, hv, hinv, List.head?_cons, hruns]
  exact invalidated_of_parsed s s _ p q lo hi (h.withoutExtents p lo hi) (fun _ => rfl) (hdone.reg_outside rfl)
    (by rw [hdone.queue, State.queue_invalidate, hqueue, Option.map_some]) hs hexec

/-- Settles O37: a packet is read by counting its bytes alone, and its unit then parses it, stops its queue, or lets the queue wait. -/
theorem queuePackets : Obligations.QueuePackets := ⟨packetsParsed, malformedStops, launchParsed, patchInval, invalTurn⟩

end Sys2Proof.Machine

/-!
O40, what signals, done tokens, armed words and the words of a region's router do when they arrive (R52, R222, R318 to R326, R390).
-/
namespace Sys2Proof.Machine

/-! ## Tags -/

/-- A tag reads as it was last written, and the others as before. -/
theorem Region.tag_setTag (g : Region) (n m : Nat) (w : TagState) : (g.setTag n w).tag m = if m = n then w else g.tag m := by
  simp only [Region.tag, Region.setTag, spGet, spFind_spInsert]
  split <;> rfl

theorem State.onlyRegion_modReg (s : State) (r : Nat) (f : Region → Region) : Claims.OnlyRegion s (s.modReg r f) r :=
  ⟨fun x hx => by rw [State.reg_modReg, if_neg hx], fun _ => rfl, rfl, rfl⟩

theorem State.tagBecomes_setTag (s : State) (r n : Nat) (w : TagState) : Claims.TagBecomes s (s.modReg r fun g => g.setTag n w) r n w := by
  have hreg : (s.modReg r fun g => g.setTag n w).reg r = (s.reg r).setTag n w := by rw [State.reg_modReg, if_pos rfl]
  have hwake : (w != (s.reg r).tag n) = decide (w ≠ (s.reg r).tag n) := by rw [Bool.eq_iff_iff, bne_iff_ne, decide_eq_true_iff]
  rw [Claims.TagBecomes, hreg]
  refine ⟨by rw [Region.tag_setTag, if_pos rfl], fun m hm => by rw [Region.tag_setTag, if_neg hm], ?_⟩
  rw [← hwake]; rfl

/-- R318: a decrement that the count allows, or an unblock. -/
theorem State.tagEvent_eq (s : State) (r n mode src : Nat) (h : mode = 1 ∨ ((s.reg r).tag n).count ≠ BitVec.intMin 16) :
    s.tagEvent r n mode src = s.modReg r fun g => g.setTag n (Claims.tagAfter mode ((s.reg r).tag n)) := by
  unfold State.tagEvent Claims.tagAfter
  by_cases hmode : mode = 1
  · simp only [hmode, true_or, if_true]; rfl
  · have hcount := h.resolve_left hmode
    by_cases hone : ((s.reg r).tag n).count = 1
    · simp only [hmode, false_or, hone, if_true, if_false, TagState.decrement, if_neg (show ¬(1 : BitVec 16) = BitVec.intMin 16 by decide)]; rfl
    · simp only [hmode, false_or, hone, hcount, if_false, TagState.decrement]

theorem State.queueCause_pkg (s : State) (r : Nat) (c : Pend) : (s.queueCause r c).pkg = s.pkg := by
  unfold State.queueCause
  split
  · rfl
  · dsimp only
    split
    · exact State.modPart_pkg ..
    · rfl

theorem State.tagEvent_pkg (s : State) (r n mode src : Nat) : (s.tagEvent r n mode src).pkg = s.pkg := by
  unfold State.tagEvent
  dsimp only
  split
  · rfl
  · split
    · rfl
    · exact s.queueCause_pkg r _

/-! ## Signals (R326) -/

/-- A saved tag table takes the signal. -/
theorem Part.mem_held_holdSignal (v : Part) (g : Signal) (y : Replay) (d : DieGraph) (hy : y ∈ v.replays) (hd : d ∈ y.dgs)
    (ht : d.takesSignal y.num g = true) : ∃ y ∈ (v.holdSignal g).replays, ∃ d ∈ y.dgs, g ∈ d.held := by
  obtain ⟨x, hx⟩ := Option.isSome_iff_exists.1
    (List.find?_isSome.2 ⟨y, hy, List.any_eq_true.2 ⟨d, hd, ht⟩⟩ : (v.replays.find? fun y => y.dgs.any fun d => d.takesSignal y.num g).isSome)
  have htakes := List.find?_some hx
  have hlt := List.findIdx_lt_length.2 (List.any_eq_true.1 htakes)
  rw [Part.holdSignal, hx]
  refine ⟨_, List.mem_map.2 ⟨x, List.mem_of_find?_eq_some hx, if_pos rfl⟩, _,
    List.mem_map.2 ⟨_, List.mem_of_getElem (i := x.dgs.findIdx fun d => d.takesSignal x.num g) (h := by rwa [List.length_zipIdx]) rfl, rfl⟩, ?_⟩
  rw [List.getElem_zipIdx, Nat.zero_add, if_pos rfl]
  exact List.mem_append_right _ List.mem_cons_self

/-- No saved tag table takes the signal. -/
theorem Part.holdSignal_eq_self (v : Part) (g : Signal) (h : ∀ y ∈ v.replays, ∀ d ∈ y.dgs, d.takesSignal y.num g = false) : v.holdSignal g = v := by
  have hnone : (v.replays.find? fun y => y.dgs.any fun d => d.takesSignal y.num g) = none := by
    refine List.find?_eq_none.2 fun y hy htakes => ?_
    obtain ⟨d, hd, ht⟩ := List.any_eq_true.1 htakes
    exact Bool.false_ne_true ((h y hy d hd).symm.trans ht)
  rw [Part.holdSignal, hnone]

/-- Where a signal lands. -/
theorem State.signalLands_iff (s : State) (g : Signal) (v : Part) (hv : s.part? g.part = some v) : s.signalLands g = true ↔
    ∃ pl, (s.reg g.dst).place = some pl ∧ pl.part = g.part ∧ (∀ x, g.target = some x → x = (pl.replay, pl.stage)) ∧
      ∀ c, v.stageOf pl = some c → g.dst ∉ c.done := by
  rw [State.signalLands]
  cases hpl : (s.reg g.dst).place with
  | none => simp only [Bool.false_eq_true, reduceCtorEq, false_and, exists_false]
  | some pl =>
    have hdone (hpart : pl.part = g.part) : s.partDone g.dst pl = false ↔ ∀ c, v.stageOf pl = some c → g.dst ∉ c.done := by
      rw [State.partDone, hpart, hv, Option.bind_some]
      cases v.stageOf pl with
      | none => simp only [Option.any_none, reduceCtorEq, false_implies, implies_true]
      | some c => simp only [Option.any_some, List.contains_eq_mem, decide_eq_false_iff_not, Option.some.injEq, forall_eq']
    have key (b : Bool) (aims : Prop) (hb : b = true ↔ aims) : (pl.part == g.part && !(s.partDone g.dst pl) && b) = true ↔
        pl.part = g.part ∧ aims ∧ ∀ c, v.stageOf pl = some c → g.dst ∉ c.done := by
      simp only [Bool.and_eq_true, beq_iff_eq, Bool.not_eq_true']
      exact ⟨fun ⟨⟨hp, hd⟩, ht⟩ => ⟨hp, hb.1 ht, (hdone hp).1 hd⟩, fun ⟨hp, ht, hd⟩ => ⟨⟨hp, (hdone hp).2 hd⟩, hb.2 ht⟩⟩
    simp only [Option.some.injEq, exists_eq_left']
    cases g.target with
    | none => exact key true _ (by simp only [reduceCtorEq, false_implies, implies_true])
    | some t =>
      exact key (t.1 == pl.replay && t.2 == pl.stage) _
        (by rw [Bool.and_eq_true, beq_iff_eq, beq_iff_eq, ← Prod.ext_iff (y := (pl.replay, pl.stage))]; simp only [Option.some.injEq, forall_eq'])

/-- R326, R318, R390: REMOTE_SIGNAL. -/
theorem signalApplied : Claims.SignalApplied := by
  intro s src dst g v hsrc hdst hret hlive hfind hv lands
  have hboth := List.find?_some hfind
  rw [Bool.and_eq_true, beq_iff_eq, beq_iff_eq] at hboth
  obtain ⟨rfl, rfl⟩ := hboth
  set s1 := s.modPkg fun k => { k with signals := k.signals.filter fun x => x.num != g.num } with hs1
  have hexec : exec (.remoteSignal g.src g.dst) s = .next (s1.applySignal g) := by
    have hreach : s.unreachable g.dst = false := by rw [State.unreachable, hret, hlive]; rfl
    show execRemoteSignal g.src g.dst s = _
    rw [execRemoteSignal, if_pos ⟨hsrc, hdst⟩, State.remoteSignal, hreach, State.takeSignal, hfind]; rfl
  have hlands : s1.signalLands g = true ↔ lands := s.signalLands_iff g v hv
  have hv1 : s1.part? g.part = some v := hv
  refine ⟨_, hexec, ?_, fun hl hmode => ?_, fun hl => ?_⟩
  · rw [State.applySignal]
    split
    · rw [State.tagEvent_pkg]; rfl
    · rw [State.modPart_pkg]; rfl
  · rw [State.applySignal, if_pos (hlands.2 hl), s1.tagEvent_eq _ _ _ _ hmode]
    exact ⟨s1.tagBecomes_setTag _ _ _, s1.onlyRegion_modReg _ _⟩
  · rw [State.applySignal, if_neg fun h => hl (hlands.1 h)]
    refine ⟨State.modPart_regs .., State.modPart_mem .., v.holdSignal g, ?_, v.holdSignal_eq_self g, fun ⟨y, hy, d, hd, ht⟩ =>
      v.mem_held_holdSignal g y d hy hd ht⟩
    rw [State.part_modPart, if_pos rfl, hv1]; rfl

/-! ## Done tokens and armed tags (R52, R325) -/

/-- Whether an rmw operation of the replay that is placed on a region is on its way. -/
theorem State.rmwBusy_iff (s : State) (r : Nat) : s.rmwBusy r = true ↔
    ∃ f ∈ s.pkg.folds, f.rmw = true ∧ f.issuer = r ∧ ∃ pl, (s.reg r).place = some pl ∧ f.part = pl.part ∧ f.replay = pl.replay := by
  simp only [State.rmwBusy, State.sentHere, List.any_eq_true, Bool.and_eq_true, beq_iff_eq, Option.any_eq_true, and_assoc]
  simp only [eq_comm]

/-- R52, R318, R321: DONE_TOKEN. -/
theorem doneTokenUnblocks : Claims.DoneTokenUnblocks := by
  intro s r n ns hr htok
  have hexec : exec (.doneToken r) s = .next (s.doneToken r) := by
    show execDoneToken r s = _
    rw [execDoneToken, if_pos hr]
  rw [hexec, State.doneToken, htok]
  refine ⟨fun hfree => ?_, fun hbusy => ?_⟩
  · have hbusy : ¬ s.rmwBusy r = true := fun h => by
      obtain ⟨f, hf, hrmw, hissuer, pl, hpl, hsent⟩ := (s.rmwBusy_iff r).1 h
      exact hfree f hf hrmw hissuer pl hpl hsent
    dsimp only
    rw [if_neg hbusy]
    refine ⟨_, rfl, ?_, ?_, fun m hm => ?_, ?_, s.onlyRegion_modReg r _⟩ <;> rw [State.reg_modReg, if_pos rfl]
    · rfl
    · rw [Region.tag_setTag, if_pos rfl]; rfl
    · rw [Region.tag_setTag, if_neg hm]; rfl
    · rfl
  · dsimp only
    rw [if_pos ((s.rmwBusy_iff r).2 hbusy)]

/-- R325: ARM_EVALUATION. -/
theorem armEvaluated : Claims.ArmEvaluated := by
  intro s s1 r n w a hr hn harm hread
  have hro := State.readNum_readOnly _ _ _ _ _ _ hread
  have htag (m : Nat) : (s1.reg r).tag m = (s.reg r).tag m := by rw [hro.reg r]; rfl
  have hother (x : Nat) (hx : x ≠ r) : s1.reg x = s.reg x := hro.other x fun h => hx (Option.some.inj h).symm
  have hexec : exec (.armEvaluation r n) s = .next (s.evalArm r n) := by
    show execArmEvaluation r n s = _
    rw [execArmEvaluation, if_pos ⟨hr, hn⟩]
  rw [hexec, State.evalArm, harm]
  dsimp only
  rw [hread]
  dsimp only
  refine ⟨_, rfl, ?_⟩
  split
  · refine ⟨?_, fun m hm => ?_, fun x hx => ?_, fun x => ?_⟩
    · rw [State.reg_modReg, if_pos rfl, Region.tag_setTag, if_pos rfl, htag]; rfl
    · rw [State.reg_modReg, if_pos rfl, Region.tag_setTag, if_neg hm, htag]
    · rw [State.reg_modReg, if_neg hx, hother x hx]
    · rw [State.modReg_mem, hro.mem]
  · exact ⟨htag n, fun m _ => htag m, hother, fun x => by rw [hro.mem]⟩

/-! ## Where the router sends a word (R320, R324) -/

section

variable {g : Region} {n : Nat}

theorem Region.routeTo_blocked (hb : (g.tag n).b = true) : g.routeTo n = .wait := by rw [Region.routeTo]; exact if_pos hb

theorem Region.routeTo_unbound (hb : (g.tag n).b = false) (ht : (g.tag n).task = none) : g.routeTo n = .row (n % 16) := by
  simp only [Region.routeTo, hb, ht, Bool.false_eq_true, if_false]

theorem Region.routeTo_island {i : Nat} {x : Island} (hb : (g.tag n).b = false) (ht : (g.tag n).task = some i) (hx : (g.bank g.cur).islands[i]? = some x) :
    g.routeTo n = if x.started then .injection (injKey g.cur i) else .row (n % 16) := by
  simp only [Region.routeTo, hb, ht, hx, Bool.false_eq_true, if_false]

theorem Region.routeTo_missing {i : Nat} (hb : (g.tag n).b = false) (ht : (g.tag n).task = some i) (hx : (g.bank g.cur).islands[i]? = none) :
    g.routeTo n = .wait := by
  simp only [Region.routeTo, hb, ht, hx, Bool.false_eq_true, if_false]

end

theorem Region.routeFor_of_not_missed (g : Region) (q : QWord) (h : q.missed = false) : g.routeFor q = g.routeTo q.w.tag.toNat := by
  rw [Region.routeFor, h]
  cases g.routeTo q.w.tag.toNat <;> rfl

theorem Region.routeFor_unbound (g : Region) (q : QWord) (hb : (g.tag q.w.tag.toNat).b = false) (ht : (g.tag q.w.tag.toNat).task = none) :
    g.routeFor q = .row (q.w.tag.toNat % 16) := by
  rw [Region.routeFor, Region.routeTo_unbound hb ht, ht]
  simp only [Option.isSome_none, Bool.and_false, Bool.false_eq_true, if_false]

/-! ## A word that arrives while the hold is empty -/

/-- A word as the router takes it (R222). -/
def QWord.arrived (q : QWord) : QWord := { q with w := q.w.received, missed := false }

theorem GWord.received_kind_eq_four (w : GWord) : w.received.kind = 4 ↔ w.kind = 4 := by
  rw [GWord.received]
  split
  · next h => exact ⟨fun h3 => absurd h3 (by decide : ¬ (3 : BitVec 3) = 4), fun h4 => absurd h (by rw [h4]; decide)⟩
  · rfl

section

variable {g : Region} {q : QWord} (hold : g.hold = [])
include hold

theorem Region.routeArrive_marker (hk : q.w.kind = 4) : g.routeArrive q = some g := by
  simp only [Region.routeArrive, hold, (GWord.received_kind_eq_four q.w).2 hk, List.length_nil, Nat.reduceLeDiff, if_true, if_false]

theorem Region.routeArrive_wait (hk : q.w.kind ≠ 4) (hto : g.routeTo q.arrived.w.tag.toNat = .wait) :
    g.routeArrive q = some { g with hold := [{ q.arrived with missed := g.islandMissing q.arrived.w.tag.toNat }] } := by
  simp only [QWord.arrived] at hto
  simp only [Region.routeArrive, hold, mt (GWord.received_kind_eq_four q.w).1 hk, hto, List.length_nil, Nat.reduceLeDiff, true_or, if_true, if_false,
    List.any_nil, Bool.or_false, List.nil_append, QWord.arrived]

/-- A word whose tag names a FIFO goes there if it has room. -/
theorem Region.routeArrive_fifo (hk : q.w.kind ≠ 4) (hto : g.routeTo q.arrived.w.tag.toNat ≠ .wait) :
    g.routeArrive q = if g.routeRoom q.arrived then some (g.routePut q.arrived) else none := by
  have hhold (h : QWord → Bool) : ¬ (g.hold.any h = true) := by rw [hold]; exact Bool.false_ne_true
  have hroom : ¬ 64 ≤ g.hold.length := by rw [hold]; exact Nat.not_succ_le_zero 63
  rw [Region.routeArrive]
  dsimp only
  rw [if_neg hroom, if_neg (mt (GWord.received_kind_eq_four q.w).1 hk)]
  exact if_neg (not_or.2 ⟨hto, hhold _⟩)

theorem Region.routeArrive_row (hk : q.w.kind ≠ 4) {y : Nat} (hto : g.routeTo q.arrived.w.tag.toNat = .row y) :
    g.routeArrive q = if (spGet [] g.rows y).length < 8 then some { g with rows := spInsert g.rows y (spGet [] g.rows y ++ [q.arrived]) } else none := by
  have hfor := (g.routeFor_of_not_missed q.arrived rfl).trans hto
  simp only [Region.routeArrive_fifo hold hk (by rw [hto]; exact RouteTo.noConfusion), Region.routeRoom, Region.routePut, hfor, decide_eq_true_eq]

theorem Region.routeArrive_injection (hk : q.w.kind ≠ 4) {i : Nat} (hto : g.routeTo q.arrived.w.tag.toNat = .injection i) :
    g.routeArrive q = if (spGet [] g.inj i).length < 8 then some { g with inj := spInsert g.inj i (spGet [] g.inj i ++ [q.arrived]) } else none := by
  have hfor := (g.routeFor_of_not_missed q.arrived rfl).trans hto
  simp only [Region.routeArrive_fifo hold hk (by rw [hto]; exact RouteTo.noConfusion), Region.routeRoom, Region.routePut, hfor, decide_eq_true_eq]

end

/-! ## A step of the router -/

theorem takeFirst_head {α : Type} (f : α → Bool) (x : α) (xs : List α) (h : f x = true) : takeFirst f (x :: xs) = some (x, xs) := if_pos h

theorem takeFirst_eq_none {α : Type} (f : α → Bool) (l : List α) (h : ∀ x ∈ l, f x = false) : takeFirst f l = none := by
  induction l with
  | nil => rfl
  | cons x xs ih =>
    rw [takeFirst, h x List.mem_cons_self, ih fun y hy => h y (List.mem_cons_of_mem x hy)]; rfl

section

variable {g : Region} {mesh : Bool} {q : QWord} {qs : List QWord} (hold : takeFirst g.routeRoom g.hold = none)
  (hin : (if mesh then g.mesh else g.loc) = q :: qs)
include hold hin

theorem Region.routerStep_taken {g1 : Region} (h : g.routeArrive q = some g1) :
    g.routerStep mesh = if mesh then { g1 with mesh := qs } else { g1 with loc := qs } := by
  rw [Region.routerStep, hold]; dsimp only; rw [hin]; dsimp only; rw [h]

theorem Region.routerStep_left (h : g.routeArrive q = none) : g.routerStep mesh = g := by
  rw [Region.routerStep, hold]; dsimp only; rw [hin]; dsimp only; rw [h]

end

/-- With words in the hold, the oldest whose FIFO has room. -/
theorem Region.routerStep_hold (g : Region) (mesh : Bool) (h : QWord) (hs : List QWord) (hhold : g.hold = h :: hs)
    (hb : (g.tag h.w.tag.toNat).b = false) (ht : (g.tag h.w.tag.toNat).task = none) (hroom : (spGet [] g.rows (h.w.tag.toNat % 16)).length < 8) :
    g.routerStep mesh = { g with hold := hs, rows := spInsert g.rows (h.w.tag.toNat % 16) (spGet [] g.rows (h.w.tag.toNat % 16) ++ [h]) } := by
  have hfor := g.routeFor_unbound h hb ht
  have hroom' : g.routeRoom h = true := by rw [Region.routeRoom, hfor]; exact decide_eq_true hroom
  have hfor' : ({ g with hold := hs } : Region).routeFor h = .row (h.w.tag.toNat % 16) := Region.routeFor_unbound _ h hb ht
  rw [Region.routerStep, hhold, takeFirst_head _ h hs hroom']
  dsimp only
  rw [Region.routePut, hfor']

/-- A full hold of blocked words. -/
theorem Region.routerStep_full (g : Region) (mesh : Bool) (hlen : 64 ≤ g.hold.length) (hb : ∀ h ∈ g.hold, (g.tag h.w.tag.toNat).b = true) :
    g.routerStep mesh = g := by
  have hnone : takeFirst g.routeRoom g.hold = none := by
    refine takeFirst_eq_none _ _ fun h hh => ?_
    rw [Region.routeRoom, Region.routeFor, Region.routeTo_blocked (hb h hh)]
  cases hin : (if mesh then g.mesh else g.loc) with
  | nil => rw [Region.routerStep, hnone]; dsimp only; rw [hin]
  | cons q qs => exact Region.routerStep_left hnone hin (by rw [Region.routeArrive]; exact if_pos hlen)

/-- R222, R320, R324: ROUTER_WORD_ARRIVAL. -/
theorem routerTakesWord : Claims.RouterTakesWord := by
  intro s r mesh hr g goes
  have goes_of (u : Region) (h : g.routerStep mesh = u) : goes u := by
    refine ⟨s.modReg r fun g => g.routerStep mesh, ?_, ?_, s.onlyRegion_modReg r _⟩
    · show execRouterWordArrival r mesh s = _
      rw [execRouterWordArrival, if_pos hr]
    · rw [State.reg_modReg, if_pos rfl]; exact h
  refine ⟨?_, fun h hs hhold hb ht hroom => goes_of _ (g.routerStep_hold mesh h hs hhold hb ht hroom),
    fun hlen hb => goes_of _ (g.routerStep_full mesh hlen hb)⟩
  intro q0 qs hold hin q v u y rowed
  have hnone : takeFirst g.routeRoom g.hold = none := by rw [hold]; rfl
  have taken {g1 u1 : Region} (h : g.routeArrive q0 = some g1) (hu : (if mesh then { g1 with mesh := qs } else { g1 with loc := qs }) = u1) : goes u1 :=
    goes_of _ ((Region.routerStep_taken hnone hin h).trans hu)
  have left (h : g.routeArrive q0 = none) : goes g := goes_of _ (Region.routerStep_left hnone hin h)
  have toRow (hk : q0.w.kind ≠ 4) (hto : g.routeTo q0.arrived.w.tag.toNat = .row y) (hroom : (spGet [] g.rows y).length < 8) : goes rowed :=
    taken ((Region.routeArrive_row hold hk hto).trans (if_pos hroom)) (by cases mesh <;> rfl)
  refine ⟨fun hk => taken (Region.routeArrive_marker hold hk) rfl, fun hk => ⟨fun hb ht hroom => ?_, fun hb ht hfull => ?_,
    fun i x hb ht hx => ⟨fun hst hroom => ?_, fun hst hroom => ?_⟩, fun i hb ht hx => ?_, fun hb => ?_⟩⟩
  · exact toRow hk (Region.routeTo_unbound hb ht) hroom
  · exact left ((Region.routeArrive_row hold hk (Region.routeTo_unbound hb ht)).trans (if_neg (Nat.not_lt.2 hfull)))
  · have hto := Region.routeTo_island hb ht hx
    rw [hst] at hto
    exact taken ((Region.routeArrive_injection hold hk hto).trans (if_pos hroom)) (by cases mesh <;> rfl)
  · have hto := Region.routeTo_island hb ht hx
    rw [hst] at hto
    exact toRow hk hto hroom
  · have hmissing : g.islandMissing q0.arrived.w.tag.toNat = true := by
      rw [Region.islandMissing, show (g.tag q0.arrived.w.tag.toNat).task = some i from ht]; exact Option.isNone_iff_eq_none.2 hx
    refine taken (Region.routeArrive_wait hold hk (Region.routeTo_missing hb ht hx)) ?_
    rw [hmissing]
    cases mesh <;> rfl
  · refine taken (Region.routeArrive_wait hold hk (Region.routeTo_blocked hb)) ?_
    cases mesh <;> rfl

/-- Settles O40: each arrival is one change of its region, chosen by the tag that the message names. -/
theorem messagesArrive : Obligations.MessagesArrive := ⟨signalApplied, doneTokenUnblocks, armEvaluated, routerTakesWord⟩

end Sys2Proof.Machine

/-!
Die graphs of a partition, the record of a region, and a region between two stages (R46, R53, R364).
-/
namespace Sys2Proof.Machine

/-! ## Changes of a die graph -/

@[simp] theorem State.modDg_mem (s : State) (p n i : Nat) (f : DieGraph → DieGraph) : (s.modDg p n i f).mem = s.mem := State.modReplay_mem ..
@[simp] theorem State.modDg_sets (s : State) (p n i : Nat) (f : DieGraph → DieGraph) : (s.modDg p n i f).sets = s.sets := State.modReplay_sets ..
@[simp] theorem State.modDg_regs (s : State) (p n i : Nat) (f : DieGraph → DieGraph) : (s.modDg p n i f).regs = s.regs := State.modReplay_regs ..
@[simp] theorem State.reg_modDg (s : State) (p n i r : Nat) (f : DieGraph → DieGraph) : (s.modDg p n i f).reg r = s.reg r := State.reg_modReplay ..

/-- A replay after a change of it that keeps its number. -/
theorem State.replay_modReplay (s : State) (p n : Nat) (f : Replay → Replay) (hf : ∀ y, (f y).num = y.num) :
    (s.modReplay p n f).replay? p n = (s.replay? p n).map f := by
  have hnum (y : Replay) : ((if y.num = n then f y else y).num == n) = (y.num == n) := by split <;> simp only [hf]
  rw [State.replay?, State.replay?]
  cases hv : s.part? p with
  | none => rw [State.modReplay, State.part_modPart, if_pos rfl, hv]; rfl
  | some v =>
    rw [s.part_modReplay p n f v hv, Option.bind_some, Option.bind_some, List.find?_map]
    simp only [Function.comp_def, hnum]
    cases hy : v.replays.find? fun y => y.num == n with
    | none => rfl
    | some y => rw [Option.map_some, Option.map_some, if_pos (beq_iff_eq.1 (List.find?_some (p := fun y : Replay => y.num == n) hy))]

/-- A replay with a change of one of its die graphs. -/
def Replay.modDg (y : Replay) (i : Nat) (f : DieGraph → DieGraph) : Replay :=
  { y with dgs := y.dgs.zipIdx.map fun (e : DieGraph × Nat) => if e.2 = i then f e.1 else e.1 }

theorem State.modDg_eq (s : State) (p n i : Nat) (f : DieGraph → DieGraph) : s.modDg p n i f = s.modReplay p n fun y => y.modDg i f := rfl

/-- A die graph after a change of it. -/
theorem State.dg_modDg (s : State) (p n i : Nat) (f : DieGraph → DieGraph) : (s.modDg p n i f).dg? p n i = (s.dg? p n i).map f := by
  rw [State.dg?, State.modDg_eq, State.replay_modReplay s p n (fun y => y.modDg i f) fun _ => rfl, State.dg?]
  cases s.replay? p n with
  | none => rfl
  | some y =>
    rw [Option.map_some, Option.bind_some, Option.bind_some, Replay.modDg, List.getElem?_map, List.getElem?_zipIdx, Option.map_map]
    refine Option.map_congr fun d _ => ?_
    rw [Function.comp_apply, if_pos (Nat.zero_add i)]

/-! ## Accesses to a record, whatever comes of them (R364) -/

/-- A fold of accesses. -/
theorem State.Worked.foldl {α : Type} {w : Who} (f : State → α → State) (hf : ∀ s a, State.Worked w s (f s a)) (l : List α) :
    ∀ s, State.Worked w s (l.foldl f s) := by
  induction l with
  | nil => exact fun s => .rfl w s
  | cons a l ih => exact fun s => (hf s a).trans (ih _)

theorem State.recordReach_worked (s : State) (w : Who) (va : Nat) (k : AKind) : State.Worked w s (s.recordReach w va k).1 := by
  have ite {c : Prop} [Decidable c] {x y : State × Got Nat} (hx : State.Worked w s x.1) (hy : State.Worked w s y.1) :
      State.Worked w s (if c then x else y).1 := by split <;> assumption
  have h0 : State.Worked w s s := .rfl w s
  unfold State.recordReach
  dsimp only
  split
  · exact h0
  · refine ite (ite h0 ?_) (ite h0 ?_)
    · have hr := s.reach_worked w va k
      split
      · next h => rw [h] at hr; exact hr
      · exact hr
    · split
      · exact h0
      · exact h0
      · exact ite h0 (s.invQueue_worked w _ _)
      · exact ite h0 (ite (s.invQueue_worked w _ _) h0)

theorem State.recordPages_worked (w : Who) (k : AKind) (n : Nat) : ∀ (s : State) (va : Nat), State.Worked w s (s.recordPages w k n va).1 := by
  induction n with
  | zero => exact fun s va => .rfl w s
  | succ n ih =>
    intro s va
    have hr := s.recordReach_worked w va k
    unfold State.recordPages
    split <;> rename_i h <;> rw [h] at hr
    · split
      · exact hr
      · next s1 _ _ _ =>
        have hn := ih s1 (va + 4096)
        split
        · next h2 => rw [h2] at hn; exact hr.trans hn
        · exact hr.trans hn
    · exact hr
    · exact hr

theorem State.writeRecord_worked (s : State) (w : Who) (va : Nat) (l : List Host.Cell) : State.Worked w s (s.writeRecord w va l).1 := by
  have hp := State.recordPages_worked w .write (recordPieces + (if va % 4096 = 0 then 0 else 1)) s (va - va % 4096)
  unfold State.writeRecord
  dsimp only
  split <;> rename_i h <;> rw [h] at hp
  · exact hp
  · exact hp
  · exact (hp.trans (State.modMem_worked _ w _)).trans (State.Worked.foldl _ (fun st a => st.countBytes_worked w w.part a 4096) _ _)

/-! ## A region between two stages (R46) -/

/-- Nothing of a cell stays but its pad. -/
theorem Region.cell_vacate (g : Region) (c : Nat) : g.vacate.cell c = { pad := (g.cell c).pad } := by
  show spGet {} (g.cells.map fun e => (e.1, ({ pad := e.2.pad } : Cell))) c = _
  rw [spGet, spFind_map g.cells (fun x : Cell => ({ pad := x.pad } : Cell)) c, Region.cell, spGet]
  cases spFind g.cells c <;> rfl

theorem State.meterResid_readOnly (s : State) (w : Who) (p d t0 t1 : Nat) : State.ReadOnly w s (s.meterResid p d t0 t1) := by
  unfold State.meterResid
  generalize List.range _ = l
  induction l generalizing s with
  | nil => exact .rfl w s
  | cons i l ih => exact (s.meterIn_readOnly w p _ d _).trans (ih _)

/-- A stage leaves a region: what changes besides is a meter. -/
theorem State.unplace_eq (s : State) (r : Nat) : ∃ s1, s.unplace r = s1.modReg r Region.vacate ∧ ∀ p, State.ReadOnly (xdWho p) s s1 := by
  unfold State.unplace
  split
  · exact ⟨_, rfl, fun p => s.meterResid_readOnly _ _ _ _ _⟩
  · exact ⟨s, rfl, fun p => .rfl _ s⟩

theorem State.unplace_mem (s : State) (r : Nat) : (s.unplace r).mem = s.mem := by
  obtain ⟨s1, h, hro⟩ := s.unplace_eq r
  rw [h, State.modReg_mem, (hro 0).mem]

theorem State.reg_unplace (s : State) (r x : Nat) : (s.unplace r).reg x = if x = r then (s.reg r).vacate else s.reg x := by
  obtain ⟨s1, h, hro⟩ := s.unplace_eq r
  rw [h, State.reg_modReg, (hro 0).worked.reg_outside rfl, (hro 0).worked.reg_outside rfl]

theorem State.dg_unplace (s : State) (r p n i : Nat) : (s.unplace r).dg? p n i = s.dg? p n i := by
  obtain ⟨s1, h, hro⟩ := s.unplace_eq r
  rw [h, ← (hro 0).worked.dg]; rfl

end Sys2Proof.Machine

/-!
O50, the end of a region's part of a stage, markers, saves and their deadline (R53, R157, R359 to R364, R390).
-/
namespace Sys2Proof.Machine

/-! ## A region completes (R390) -/

/-- A region has reported to its stage (R53). -/
def DieGraph.reported (d : DieGraph) (pl : Placement) (r : Nat) : DieGraph :=
  { d with stages := d.stages.map fun (g : StageRec) => if g.index = pl.stage then { g with done := g.done ++ [r] } else g }

/-- The state in which a region has been cleared and has reported. -/
def State.withReport (s : State) (r : Nat) (pl : Placement) : State :=
  (s.unplace r).modDg pl.part pl.replay pl.dg fun d => d.reported pl r

/-- What the report of a region makes of its die graph. -/
theorem State.report_eq (s : State) (r : Nat) (pl : Placement) (d : DieGraph) (hd : s.dg? pl.part pl.replay pl.dg = some d) : s.report r pl =
    if d.isSaving then (s.withReport r pl).endSave pl.part pl.replay pl.dg
    else if (d.reported pl r).stages.all StageRec.over then
      ((s.withReport r pl).modDg pl.part pl.replay pl.dg fun (x : DieGraph) => { x with place := .finished }).stampEnd pl.part pl.replay
    else s.withReport r pl := by
  have hdg : (s.withReport r pl).dg? pl.part pl.replay pl.dg = some (d.reported pl r) := by
    rw [State.withReport, State.dg_modDg, State.dg_unplace, hd, Option.map_some]
  show (match (s.withReport r pl).dg? pl.part pl.replay pl.dg with | none => _ | some d => _) = _
  rw [hdg]; rfl

/-- R53, R157, R390: REGION_COMPLETION. -/
theorem regionCompletes : Claims.RegionCompletes := by
  intro s r pl v hr hpl hv hdone hchans d hd
  have hexec : exec (.regionCompletion r) s = .next (((s.report r pl).settle v.set).schedule v.set) := by
    show execRegionCompletion r s = _
    rw [execRegionCompletion, if_pos hr, State.regionCompletion, hpl]
    dsimp only
    rw [if_pos hdone, hchans, hv]; rfl
  rw [s.report_eq r pl d hd] at hexec
  have hreg (x : Nat) : (s.withReport r pl).reg x = if x = r then (s.reg r).vacate else s.reg x := by
    rw [State.withReport, State.reg_modDg, State.reg_unplace]
  have hself : (s.withReport r pl).reg r = (s.reg r).vacate := by rw [hreg, if_pos rfl]
  refine ⟨s.withReport r pl, d.reported pl r, ?_, rfl, ?_, ?_, ?_, ?_, fun c => ?_, fun x hx => ?_, ?_, fun hp hover => ?_,
    fun hp hover => ?_, fun since hp => ?_⟩
  · rw [State.withReport, State.dg_modDg, State.dg_unplace, hd, Option.map_some]
  · rw [hself]; rfl
  · rw [hself]; rfl
  · rw [hself]; rfl
  · rw [hself]; rfl
  · rw [hself, Region.cell_vacate]
  · rw [hreg, if_neg hx]
  · rw [State.withReport, State.modDg_mem, State.unplace_mem]
  all_goals simp only [DieGraph.isSaving, hp, Bool.false_eq_true, if_true, if_false] at hexec
  · rwa [hover, if_neg Bool.false_ne_true] at hexec
  · rwa [hover, if_pos rfl] at hexec
  · exact hexec

/-! ## Markers, saves and their deadline -/

/-- R359: MARKER_ARRIVAL. -/
theorem markerArrives : Claims.MarkerArrives := by
  intro s r since pl d hr hdg hplace
  refine ⟨s.modReg r fun g => { g with marker := true }, ?_, by rw [State.reg_modReg, if_pos rfl], s.onlyRegion_modReg r _, rfl⟩
  show execMarkerArrival r s = _
  rw [execMarkerArrival, if_pos hr, State.markerArrival, hdg]
  simp only [DieGraph.isSaving, hplace, if_true]

/-- The placement and the die graph of a region. -/
theorem State.dgAt_eq_some {s : State} {r : Nat} {pl : Placement} {d : DieGraph} (h : s.dgAt r = some (pl, d)) :
    (s.reg r).place = some pl ∧ s.dg? pl.part pl.replay pl.dg = some d := by
  rw [State.dgAt] at h
  split at h
  · cases h
  · next pl' hpl =>
    obtain ⟨d', hd', heq⟩ := Option.map_eq_some_iff.1 h
    cases heq
    exact ⟨hpl, hd'⟩

/-- The saved lane of a region (R360, R362). -/
def State.savedLane (s : State) (r : Nat) (pl : Placement) : SavedLane :=
  { region := r, stage := pl.stage, lane := pl.lane, tick := s.tick, img := (s.endWaits r).parked
    palette := s.mem.cut (palBase r) (2 ^ 21), vat := s.mem.cut (sliceBase r) (2 ^ 21) }

/-- The bytes of the record of a region (R364 to R367). -/
def State.savedCells (s : State) (r : Nat) (pl : Placement) (d : DieGraph) : List Host.Cell :=
  (s.endWaits r).parked.recordCells { region := r, lane := pl.lane, tick := s.tick, replay := pl.replay, misses := d.misses } ++
    putCut 0x300000 (s.mem.cut (palBase r) (2 ^ 21)) ++ putCut 0x600000 (s.mem.cut (sliceBase r) (2 ^ 21))

/-- The state in which the record of a region has been written and the region is vacated. -/
def State.withSaved (s s1 : State) (r : Nat) (pl : Placement) : State :=
  (s1.modDg pl.part pl.replay pl.dg fun x => { x with saved := x.saved ++ [s.savedLane r pl] }).unplace r

theorem State.regionSave_ok (s s1 : State) (r : Nat) (pl : Placement) (d : DieGraph) (hdg : s.dgAt r = some (pl, d)) (hsaving : d.isSaving = true)
    (hready : (s.endWaits r).saveReady = true)
    (hwrite : s.writeRecord (recordWho pl.part r) (pl.save + pl.lane * 0x800000) (s.savedCells r pl d) = (s1, .ok ())) :
    s.regionSave r = (s.withSaved s1 r pl).endSave pl.part pl.replay pl.dg := by
  have hgo : ¬ (!(d.isSaving && (s.endWaits r).saveReady)) = true := by rw [hsaving, hready]; decide
  rw [State.savedCells] at hwrite
  rw [State.regionSave, hdg]
  refine (if_neg hgo).trans ?_
  -- Only the outermost `let`s: two matches that are not the same term would make the kernel run the writes of the record's pages.
  with_reducible conv_lhs => whnf
  rw [hwrite]
  rfl

/-- R360, R363, R364: REGION_SAVE_COMPLETE. -/
theorem regionSaved : Claims.RegionSaved := by
  intro s s1 r since k pl d hr hdg hplace hready hset g head cells hwrite
  have hw : State.Worked (recordWho pl.part r) s s1 := (s.writeRecord_worked _ _ _).of_eq hwrite
  have hexec : exec (.regionSaveComplete r) s = .next (((s.withSaved s1 r pl).endSave pl.part pl.replay pl.dg).schedule k) := by
    show execRegionSaveComplete r s = _
    rw [execRegionSaveComplete, if_pos hr, hset, ← s.regionSave_ok s1 r pl d hdg (by rw [DieGraph.isSaving, hplace]) hready hwrite]
  have hreg (x : Nat) : (s.withSaved s1 r pl).reg x = if x = r then (s1.reg r).vacate else s1.reg x := by
    rw [State.withSaved, State.reg_unplace, State.reg_modDg, State.reg_modDg]
  refine ⟨s.withSaved s1 r pl, { d with saved := d.saved ++ [s.savedLane r pl] }, hexec, ?_, ?_, fun x hx => ?_, ?_, hplace, s.savedLane r pl, rfl, rfl, rfl,
    rfl, rfl, rfl⟩
  · rw [State.withSaved, State.unplace_mem, State.modDg_mem]
  · rw [hreg, if_pos rfl]; rfl
  · rw [hreg, if_neg hx]; exact hw.other x fun h => hx (Option.some.inj h).symm
  · rw [State.withSaved, State.dg_unplace, State.dg_modDg, hw.dg, (State.dgAt_eq_some hdg).2, Option.map_some]

/-- R361: SAVE_DEADLINE. -/
theorem saveDeadlinePasses : Claims.SaveDeadlinePasses := by
  intro s p n i since v d hp hv hd hplace
  have hexec : exec (.saveDeadline p n i) s = .next (if d.forSuspend = false ∧ 200000 < s.tick - since then
      s.modDg p n i fun x => { x with missing := true } else s) := by
    show execSaveDeadline p n i s = _
    simp only [execSaveDeadline, hp, if_true, State.saveLate, hv, hd, hplace, saveDeadline, Bool.not_eq_true']
  refine ⟨fun hsus hlate => ⟨_, { d with missing := true }, hexec.trans (by rw [if_pos ⟨hsus, hlate⟩]), ?_, rfl, State.modDg_regs ..,
    State.modDg_mem ..⟩, fun h => ?_⟩
  · rw [State.dg_modDg, hd, Option.map_some]
  · have hnot : ¬(d.forSuspend = false ∧ 200000 < s.tick - since) := fun ⟨hsus, hlate⟩ => by
      rcases h with h | h
      · rw [h] at hsus; cases hsus
      · exact absurd hlate (Nat.not_lt.2 h)
    rw [hexec, if_neg hnot]

/-- Settles O50: a region that completes or is saved is vacated, and its die graph keeps what it reported or saved. -/
theorem stageEnds : Obligations.StageEnds := ⟨regionCompletes, markerArrives, regionSaved, saveDeadlinePasses⟩

end Sys2Proof.Machine

/-!
What the scheduler leaves of the sets of partitions, and of the work that their members have (R157 to R159, R361).
-/
namespace Sys2Proof.Machine

/-! ## Folds of the state -/

/-- What every step of a fold keeps. -/
theorem foldl_keeps {α β : Type} (field : State → β) (f : State → α → State) (hf : ∀ s a, field (f s a) = field s) (l : List α) :
    ∀ s, field (l.foldl f s) = field s := by
  induction l with
  | nil => exact fun s => rfl
  | cons a l ih => exact fun s => (ih _).trans (hf s a)

/-- What one step of a fold brings about and every step keeps. -/
theorem foldl_reaches {α : Type} (P : State → Prop) (f : State → α → State) (a : α) (hkeep : ∀ s b, P s → P (f s b))
    (hreach : ∀ s, P (f s a)) (l : List α) : a ∈ l → ∀ s, P (l.foldl f s) := by
  induction l with
  | nil => exact fun h => absurd h List.not_mem_nil
  | cons b l ih =>
    intro h s
    rcases List.mem_cons.1 h with rfl | h
    · exact List.foldlRecOn l f (hreach s) fun t ht b _ => hkeep t b ht
    · exact ih h _

/-! ## Decisions of the scheduler -/

theorem State.fatal_sets (s : State) (p : Nat) (q : ResetReq) : (s.fatal p q).sets = s.sets := State.modPart_sets ..

theorem State.queueCause_sets (s : State) (r : Nat) (c : Pend) : (s.queueCause r c).sets = s.sets := by
  unfold State.queueCause
  split
  · rfl
  · dsimp only
    split
    · exact State.fatal_sets ..
    · rfl

theorem State.tagEvent_sets (s : State) (r n mode src : Nat) : (s.tagEvent r n mode src).sets = s.sets := by
  unfold State.tagEvent
  dsimp only
  split
  · rfl
  · split
    · rfl
    · exact s.queueCause_sets r _

theorem State.chanWrite_sets (s : State) (r : Nat) (e : ChanEnd) (off n v : Nat) : (s.chanWrite r e off n v).1.sets = s.sets := by
  have hw := (s.writeNum_worked (s.chanWho r) (e.header + off) n v).sets
  unfold State.chanWrite
  split
  · next h => rw [h] at hw; exact (State.queueCause_sets ..).trans hw
  · exact hw

theorem State.chanLost_sets (s : State) (r : Nat) (e : ChanEnd) : (s.chanLost r e).sets = s.sets := State.queueCause_sets ..

theorem State.chanCorrupt_sets (s : State) (r : Nat) (e : ChanEnd) : (s.chanCorrupt r e).1.sets = s.sets := by
  have hw := (s.modReg r fun g => g.stopSends e.num).chanWrite_sets r e 0x18 4 0x084
  rw [State.modReg_sets] at hw
  unfold State.chanCorrupt
  split <;> rename_i h <;> rw [h] at hw
  · exact hw
  · exact (State.chanLost_sets ..).trans hw
  · next s1 =>
    have hw2 := s1.chanWrite_sets r e 0x14 4 1
    split <;> rename_i h2 <;> rw [h2] at hw2
    · exact hw2.trans hw
    · exact (State.chanLost_sets ..).trans (hw2.trans hw)

theorem State.chanRead_sets (s : State) (r : Nat) (e : ChanEnd) : (s.chanRead r e).1.sets = s.sets := by
  have hr := (s.readVA_worked (s.chanWho r) e.header 64).sets
  unfold State.chanRead
  split <;> rename_i h <;> rw [h] at hr
  · split
    · exact (State.chanCorrupt_sets ..).trans hr
    · exact hr
  · exact hr
  · exact hr

theorem State.rereadEnds_sets (s : State) (r : Nat) : (s.rereadEnds r).sets = s.sets :=
  foldl_keeps State.sets _ (fun st e => by
    split
    · rfl
    · exact st.chanRead_sets r e) _ s

theorem State.restoreLane_sets (s : State) (p : Nat) (held : List Signal) (words : List (Nat × GWord)) (l : SavedLane) :
    (s.restoreLane p held words l).sets = s.sets :=
  (foldl_keeps State.sets _ (fun st (g : Signal) => st.tagEvent_sets g.dst g.tag g.mode g.src) _ _).trans (State.rereadEnds_sets _ _)

/-- Unfolded at a lane, a read of records lets the kernel evaluate the lane's offset in unary: the recursion is unfolded for a list that is not known yet,
and the reads of the pages are a variable before the induction. -/
theorem State.readRecords_sets (p : Nat) (d : DieGraph) (ls : List SavedLane) : ∀ s : State, (s.readRecords p d ls).1.sets = s.sets := by
  have hpages (s : State) (w : Who) (k : AKind) (n va : Nat) : (s.recordPages w k n va).1.sets = s.sets := (State.recordPages_worked w k n s va).sets
  delta State.readRecords State.readRecords._f
  generalize State.recordPages = pages at hpages ⊢
  as_aux_lemma =>
    induction ls with
    | nil => exact fun s => rfl
    | cons l ls ih =>
      intro s
      dsimp only
      split <;> rename_i h <;> have hp := (congrArg (fun y => y.1.sets) h).symm.trans (hpages ..)
      · exact (ih _).trans ((foldl_keeps State.sets _ (fun st a => (st.countBytes_worked (xdWho p) p a 4096).sets) _ _).trans hp)
      · exact hp
      · exact hp

theorem State.restoreDg_sets (s : State) (p n i : Nat) (d : DieGraph) : (s.restoreDg p n i d).sets = s.sets := by
  have hr := State.readRecords_sets p d d.saved s
  unfold State.restoreDg
  split <;> rename_i h <;> rw [h] at hr
  · exact (State.fatal_sets ..).trans hr
  · exact (State.modDg_sets ..).trans hr
  · exact (foldl_keeps State.sets _ (fun st l => st.restoreLane_sets p d.held d.heldWords l) _ _).trans ((State.modDg_sets ..).trans hr)

theorem State.restoreAll_sets (s : State) (t : RSet) (p : Nat) (v : Part) : (s.restoreAll t p v).sets = s.sets :=
  foldl_keeps State.sets _ (fun st (e : Replay × Nat × DieGraph) => st.restoreDg_sets p e.1.num e.2.1 e.2.2) _ s

theorem State.finishRestores_sets (s : State) (t : RSet) : (s.finishRestores t).sets = s.sets :=
  foldl_keeps State.sets _ (fun st p => by
    split
    · rfl
    · exact foldl_keeps State.sets _ (fun u (e : Replay × Nat × DieGraph) => (State.modDg_sets ..).trans (u.restoreDg_sets p e.1.num e.2.1 e.2.2)) _ st) _ s

theorem State.placeStage_sets (s : State) (p : Nat) (y : Replay) (i : Nat) (all : List Nat) (g : StageRec) : (s.placeStage p y i all g).sets = s.sets := by
  refine foldl_keeps State.sets _ ?_ _ s
  exact fun _ _ => rfl

theorem State.placeDg_sets (s : State) (p : Nat) (v : Part) (y : Replay) (i : Nat) (d : DieGraph) : (s.placeDg p v y i d).sets = s.sets :=
  (foldl_keeps State.sets _ (fun st g => st.placeStage_sets p y i _ g) _ _).trans ((State.modPart_sets ..).trans (State.modDg_sets ..))

theorem State.placeAll_sets (k p n : Nat) : ∀ s : State, (s.placeAll k p n).sets = s.sets := by
  induction n with
  | zero => exact fun s => rfl
  | succ n ih =>
    intro s
    unfold State.placeAll
    split
    · split
      · exact (ih _).trans (State.placeDg_sets ..)
      · rfl
    · rfl

/-- A decision of the scheduler leaves the sets as they are. -/
theorem State.schedule_sets (s : State) (k : Nat) : (s.schedule k).sets = s.sets := by
  unfold State.schedule
  split
  · rfl
  · next t _ =>
    have hf := s.finishRestores_sets t
    dsimp only
    split
    · exact hf
    · split
      · exact (State.placeAll_sets ..).trans ((State.restoreAll_sets ..).trans hf)
      · exact hf

/-! ## A die passes to the owner -/

theorem State.set_setSet (s : State) (k : Nat) (t : RSet) : spFind (s.setSet k t).sets k = some t := by
  rw [State.setSet, spFind_spInsert, if_pos rfl]

/-- A die that settles changes nothing of its set but on which dies the owner is not live. -/
theorem State.settleDie_set (s : State) (k die : Nat) (t : RSet) (h : spFind s.sets k = some t) :
    ∃ l, spFind (s.settleDie k die).sets k = some { t with live := l } := by
  rw [State.settleDie, h]
  dsimp only
  split
  · exact ⟨t.live, h⟩
  · exact ⟨_, State.set_setSet ..⟩

theorem State.settle_set (s : State) (k : Nat) (t : RSet) (h : spFind s.sets k = some t) :
    ∃ l, spFind (s.settle k).sets k = some { t with live := l } := by
  refine List.foldlRecOn (motive := fun (st : State) => ∃ l, spFind st.sets k = some { t with live := l }) (List.range 4) _ ⟨t.live, h⟩
    fun st hst die _ => ?_
  obtain ⟨l, hl⟩ := hst
  obtain ⟨m, hm⟩ := st.settleDie_set k die _ hl
  exact ⟨m, hm⟩

/-- Where the owner is live on every die, none changes hands. -/
theorem State.settle_eq_self (s : State) (k : Nat) (t : RSet) (h : spFind s.sets k = some t) (hlive : t.live = []) : s.settle k = s := by
  refine List.foldlRecOn (motive := fun st => st = s) (List.range 4) _ rfl fun st hst die _ => ?_
  subst hst
  have hown : t.liveOn die = t.owner := by rw [RSet.liveOn, hlive]; rfl
  rw [State.settleDie, h]
  exact if_pos (.inl hown)

/-! ## The work of a partition (R159) -/

/-- A partition with a change of every die graph. -/
def Part.mapDgs (v : Part) (f : DieGraph → DieGraph) : Part := { v with replays := v.replays.map fun y => { y with dgs := y.dgs.map f } }

theorem Part.any_dieGraphs (v : Part) (f : Replay → DieGraph → Bool) : v.dieGraphs.any (fun e => f e.1 e.2.2) = v.replays.any fun y => y.dgs.any (f y) := by
  rw [Part.dieGraphs, List.any_flatMap]
  refine congrArg _ (funext fun y => ?_)
  rw [List.any_map, ← congrArg (fun l => l.any (f y)) (List.zipIdx_map_fst 0 y.dgs), List.any_map]
  rfl

/-- The work of a partition after a change of its die graphs that keeps where they stand and their stages. -/
theorem Part.hasWork_mapDgs (v : Part) (f : DieGraph → DieGraph) (hplace : ∀ d, (f d).place = d.place) (hstages : ∀ d, (f d).stages = d.stages) :
    (v.mapDgs f).hasWork = v.hasWork := by
  have hallowed (y : Replay) (g : StageRec) : (v.mapDgs f).stageAllowed { y with dgs := y.dgs.map f } g = v.stageAllowed y g := by
    unfold Part.stageAllowed Part.mapDgs
    simp only [List.find?_map, Function.comp_def]
    cases v.replays.find? fun x => x.num == y.prev with
    | none => rfl
    | some x => simp only [Option.map_some, List.all_map, Function.comp_def, hstages]
  have hrun (y : Replay) (d : DieGraph) : (v.mapDgs f).runnable { y with dgs := y.dgs.map f } (f d) = v.runnable y d := by
    have hall : (v.mapDgs f).stageAllowed { y with dgs := y.dgs.map f } = v.stageAllowed y := funext (hallowed y)
    rw [Part.runnable, Part.runnable, hall, DieGraph.isWaiting, hplace, hstages]
    rfl
  rw [Part.hasWork, Part.hasWork, Part.any_dieGraphs _ fun y d => d.isSaved || (v.mapDgs f).runnable y d,
    Part.any_dieGraphs _ fun y d => d.isSaved || v.runnable y d]
  refine congrArg₂ _ rfl ?_
  simp only [Part.mapDgs, List.any_map, Function.comp_def] at hrun ⊢
  simp only [hrun, DieGraph.isSaved, hplace]

/-- Partitions changed in a way that keeps their work. -/
theorem State.hasWork_modPart (s : State) (p q : Nat) (f : Part → Part) (hf : ∀ v, (f v).hasWork = v.hasWork) :
    ((s.modPart p f).part? q).any Part.hasWork = (s.part? q).any Part.hasWork := by
  rw [State.part_modPart]
  split
  · subst q
    cases s.part? p with
    | none => rfl
    | some v => exact hf v
  · rfl

end Sys2Proof.Machine

/-!
O49, the gang ticks and the placement of die graphs (R46, R47, R62, R156, R158, R159).
-/
namespace Sys2Proof.Machine

/-! ## A region that takes a lane (R46, R47) -/

/-- The registers of a sequencer that starts. -/
theorem Region.gr_placed (g : Region) (pl : Placement) (entry frame : Nat) (route : Sparse Nat) (a : BitVec 5) :
    (g.placed pl entry frame route).seq.gr a =
      if a = 1 then BitVec.ofNat 64 frame else if a = 2 then BitVec.ofNat 64 (frame + 0x40) else 0 := by
  have hzero (q : Seq) (h : q.g = Vector.replicate 32 0) : q.gr a = 0 := by
    rw [Seq.gr]
    split
    · rfl
    · simp only [h, Vector.getElem_replicate]
  show Seq.gr ((Seq.gw _ 1 _).gw 2 _) a = _
  rw [Seq.gr_gw, Seq.gr_gw]
  by_cases h2 : a = 2
  · subst h2; rfl
  · by_cases h1 : a = 1
    · subst h1; rfl
    · simp only [h1, h2, false_and, if_false]
      exact hzero _ rfl

/-- R46, R47: what a region starts with. -/
theorem placedRegion : Claims.PlacedRegion := by
  intro g pl entry frame route u
  refine ⟨rfl, rfl, rfl, rfl, rfl, rfl, rfl, rfl, rfl, rfl, rfl, fun i h => ?_, fun a => g.gr_placed pl entry frame route a, fun k => ?_,
    fun n => ?_, rfl, rfl, rfl, rfl, rfl, rfl, fun c => ?_⟩
  · show (Vector.replicate 16 (0 : Word))[i] = 0
    exact Vector.getElem_replicate h
  · have hk : u.seq.k = 1 := by
      show (Seq.gw (Seq.gw _ 1 _) 2 _).k = 1
      rw [Seq.gw_k, Seq.gw_k]
    have hone : ∀ k : BitVec 3, (k == 0 || (1 : BitVec 8).getLsbD k.toNat) = (k == 0) := by decide
    rw [Seq.kr, hk, hone]
  · show (Vector.replicate 16 Slot.empty)[n.toNat] = .empty
    exact Vector.getElem_replicate _
  · show (g.vacate.cell c).pad = _ ∧ (g.vacate.cell c).acc = [] ∧ (g.vacate.cell c).rot = []
    rw [Region.cell_vacate]
    exact ⟨rfl, rfl, rfl⟩

/-! ## The slice passes on (R158, R159) -/

/-- What a gang tick counts and opens before the next owner is sought. -/
def State.ticked (s : State) (k : Nat) (t : RSet) : State := ((s.setSet k t).countRunning t).openSlice t

theorem State.ticked_sets (s : State) (k : Nat) (t : RSet) : (s.ticked k t).sets = (s.setSet k t).sets :=
  (foldl_keeps State.sets _ (fun st p => st.modPart_sets p _) _ _).trans (foldl_keeps State.sets _ (fun st p => st.modPart_sets p _) _ _)

/-- A gang tick leaves the work of every partition as it was. -/
theorem State.ticked_hasWork (s : State) (k : Nat) (t : RSet) (p : Nat) : ((s.ticked k t).part? p).any Part.hasWork = (s.part? p).any Part.hasWork := by
  let miss (d : DieGraph) : DieGraph := if d.isSaving && !d.forSuspend then { d with missing := true } else d
  have hplace (d : DieGraph) : (miss d).place = d.place := by simp only [miss]; split <;> rfl
  have hstages (d : DieGraph) : (miss d).stages = d.stages := by simp only [miss]; split <;> rfl
  refine (foldl_keeps (fun s : State => (s.part? p).any Part.hasWork) _ (fun st q => st.hasWork_modPart q p _ fun v => ?_) _ _).trans
    (foldl_keeps (fun s : State => (s.part? p).any Part.hasWork) _ (fun st q => st.hasWork_modPart q p _ fun v => ?_) _ _)
  · rfl
  · exact v.hasWork_mapDgs miss hplace hstages

/-- R158, R159: GANG_TICK at a tick of the set. -/
theorem gangTickOwner : Claims.GangTickOwner := by
  intro s k t hk ht hlast
  let t1 : RSet := { t with last := s.tick / (1000 * t.period) }
  set next := (s.ticked k t1).nextOwner t1 with hnext
  have hexec : exec (.gangTick k) s = .next ((if next = t.owner then (s.ticked k t1).settle k else (s.ticked k t1).changeOwner k t1 next).schedule k) := by
    show execGangTick k s = _
    rw [execGangTick, if_pos hk, State.gangTick, ht]
    dsimp only
    rw [if_neg (Nat.not_le.2 hlast)]
    rfl
  have hset : spFind (s.ticked k t1).sets k = some t1 := by rw [State.ticked_sets, State.set_setSet]
  obtain ⟨l, hl⟩ : ∃ l, spFind (if next = t.owner then (s.ticked k t1).settle k else (s.ticked k t1).changeOwner k t1 next).sets k =
      some { t1 with owner := next, live := l } := by
    split
    · next h =>
      obtain ⟨l, hl⟩ := State.settle_set _ k t1 hset
      exact ⟨l, by rw [h]; exact hl⟩
    · exact State.settle_set _ k _ (State.set_setSet ..)
  refine ⟨_, { t1 with owner := next, live := l }, hexec, by rw [State.schedule_sets, hl], rfl, ?_, rfl, rfl, rfl⟩
  show next = _
  rw [hnext, State.nextOwner]
  simp only [State.ticked_hasWork]
  rfl

/-! ## Placement (R62, R156) -/

/-- A region is placed for a die graph of a replay of a partition. -/
def State.placedFor (s : State) (r p num i : Nat) : Prop :=
  ∃ pl, (s.reg r).place = some pl ∧ pl.part = p ∧ pl.replay = num ∧ pl.dg = i

theorem mem_of_mem_assignRegions (r : Nat) (g : StageRec) (hr : r ∈ g.regions) (gs : List StageRec) : ∀ l, g ∈ assignRegions gs l → r ∈ l := by
  induction gs with
  | nil => exact fun l h => absurd h List.not_mem_nil
  | cons a gs ih =>
    intro l h
    rcases List.mem_cons.1 h with rfl | h
    · exact List.mem_of_mem_take hr
    · exact List.mem_of_mem_drop (ih _ h)

/-- Every region goes to a stage while the stages have lanes for it. -/
theorem exists_mem_assignRegions (r : Nat) (gs : List StageRec) : ∀ l, l.length ≤ (gs.map StageRec.width).sum → r ∈ l →
    ∃ g ∈ assignRegions gs l, r ∈ g.regions := by
  induction gs with
  | nil => exact fun l hl hr => absurd hl (Nat.not_le.2 (List.length_pos_of_mem hr))
  | cons a gs ih =>
    intro l hl hr
    rw [List.map_cons, List.sum_cons] at hl
    rw [← List.take_append_drop a.width l, List.mem_append] at hr
    rcases hr with hr | hr
    · exact ⟨_, List.mem_cons_self, hr⟩
    · obtain ⟨g, hg, hgr⟩ := ih (l.drop a.width) (by rw [List.length_drop]; omega) hr
      exact ⟨g, List.mem_cons_of_mem _ hg, hgr⟩

/-- The placement of a lane of a stage on a region. -/
def lanePlacement (p : Nat) (y : Replay) (i : Nat) (g : StageRec) (lane since : Nat) : Placement :=
  { part := p, replay := y.num, dg := i, stage := g.index, number := g.number, lane := lane, width := g.width, graph := y.graph, save := g.save
    since := since }

section

variable (s : State) (p : Nat) (y : Replay) (i : Nat) (all : List Nat) (g : StageRec) (r : Nat)

/-- A region takes a lane of a stage. -/
def State.placeLane (e : Nat × Nat) : State :=
  (s.columnOn e.1).modReg e.1 fun u => u.placed (lanePlacement p y i g e.2 s.tick) g.entry y.frame (meshMap (lanePlacement p y i g e.2 s.tick) e.1 all)

theorem State.placeStage_eq : s.placeStage p y i all g = g.regions.zipIdx.foldl (fun st e => st.placeLane p y i all g e) s := rfl

theorem State.reg_placeLane (e : Nat × Nat) (hr : r ≠ e.1) : (s.placeLane p y i all g e).reg r = s.reg r := by
  rw [State.placeLane, State.reg_modReg, if_neg hr]; rfl

theorem State.placedFor_placeLane_self (e : Nat × Nat) : (s.placeLane p y i all g e).placedFor e.1 p y.num i := by
  refine ⟨lanePlacement p y i g e.2 s.tick, ?_, rfl, rfl, rfl⟩
  rw [State.placeLane, State.reg_modReg, if_pos rfl]; rfl

/-- A region that is placed for the die graph stays so while its lanes are placed. -/
theorem State.placedFor_placeLane (e : Nat × Nat) (h : s.placedFor r p y.num i) : (s.placeLane p y i all g e).placedFor r p y.num i := by
  by_cases hr : r = e.1
  · subst hr; exact s.placedFor_placeLane_self p y i all g e
  · rwa [State.placedFor, State.reg_placeLane s p y i all g r e hr]

/-- The lanes of one stage leave the other regions. -/
theorem State.reg_placeStage (hr : r ∉ g.regions) : (s.placeStage p y i all g).reg r = s.reg r := by
  rw [State.placeStage_eq]
  refine List.foldlRecOn (motive := fun st : State => st.reg r = s.reg r) g.regions.zipIdx _ rfl fun st hst e he => ?_
  have hne : r ≠ e.1 := fun h => hr (h ▸ List.fst_mem_of_mem_zipIdx he)
  exact (st.reg_placeLane p y i all g r e hne).trans hst

theorem State.placedFor_placeStage (h : s.placedFor r p y.num i) : (s.placeStage p y i all g).placedFor r p y.num i :=
  List.foldlRecOn (motive := fun st : State => st.placedFor r p y.num i) g.regions.zipIdx _ h fun st hst e _ => st.placedFor_placeLane p y i all g r e hst

/-- The regions of a stage that is placed. -/
theorem State.placedFor_of_mem_regions (hr : r ∈ g.regions) : (s.placeStage p y i all g).placedFor r p y.num i := by
  rw [← List.zipIdx_map_fst 0 g.regions] at hr
  obtain ⟨e, he, rfl⟩ := List.mem_map.1 hr
  exact foldl_reaches (fun st => st.placedFor e.1 p y.num i) _ e (fun st b hst => st.placedFor_placeLane p y i all g e.1 b hst)
    (fun st => st.placedFor_placeLane_self p y i all g e) _ he s

variable (v : Part) (d : DieGraph)

/-- The state in which a die graph is placed and its regions have still to start. -/
theorem State.placeDg_eq : ∃ s1 : State, (∀ r, s1.reg r = s.reg r) ∧ s.placeDg p v y i d =
    (assignRegions d.stages ((s.freeRegions v d.die).take d.width)).foldl
      (fun st g => st.placeStage p y i ((s.freeRegions v d.die).take d.width) g) s1 :=
  ⟨_, fun _ => (State.reg_modPart ..).trans (State.reg_modDg ..), rfl⟩

/-- R156: the lowest free regions of its die. -/
theorem State.placedFor_placeDg (hr : r ∈ (s.freeRegions v d.die).take d.width) : (s.placeDg p v y i d).placedFor r p y.num i := by
  obtain ⟨s1, -, heq⟩ := s.placeDg_eq p y i v d
  obtain ⟨g, hg, hgr⟩ := exists_mem_assignRegions r d.stages _ (List.length_take_le ..) hr
  rw [heq]
  exact foldl_reaches (fun st => st.placedFor r p y.num i) _ g (fun st g hst => st.placedFor_placeStage p y i _ g r hst)
    (fun st => st.placedFor_of_mem_regions p y i _ g r hgr) _ hg s1

/-- A die graph is placed on free regions only. -/
theorem State.reg_placeDg (hr : (s.reg r).place ≠ none) : (s.placeDg p v y i d).reg r = s.reg r := by
  obtain ⟨s1, hreg, heq⟩ := s.placeDg_eq p y i v d
  have hbusy : r ∉ (s.freeRegions v d.die).take d.width := fun h => by
    have hfree := (List.mem_filter.1 (List.mem_of_mem_take h)).2
    rw [State.isFree, Bool.and_eq_true, Bool.and_eq_true] at hfree
    exact hr (Option.isNone_iff_eq_none.1 hfree.1.2)
  rw [heq]
  refine List.foldlRecOn (motive := fun st : State => st.reg r = s.reg r) _ _ (hreg r) fun st hst g hg => ?_
  exact (st.reg_placeStage p y i _ g r fun h => hbusy (mem_of_mem_assignRegions r g h _ _ hg)).trans hst

end

/-- What is placed later leaves what is placed. -/
theorem State.reg_placeAll (k p r n : Nat) : ∀ s : State, (s.reg r).place ≠ none → (s.placeAll k p n).reg r = s.reg r := by
  induction n with
  | zero => exact fun s _ => rfl
  | succ n ih =>
    intro s hr
    unfold State.placeAll
    split
    · next v _ _ =>
      split
      · next y i d _ =>
        have hreg := s.reg_placeDg p y i r v d hr
        exact (ih _ (by rwa [hreg])).trans hreg
      · rfl
    · rfl

/-- Where no die graph is saved, none is restored. -/
theorem State.restoreAll_eq_self (s : State) (t : RSet) (p : Nat) (v : Part) (h : ∀ e ∈ v.dieGraphs, e.2.2.isSaved = false) : s.restoreAll t p v = s := by
  rw [State.restoreAll, List.filter_eq_nil_iff.2 fun e he => by simp only [h e he, Bool.false_and, Bool.false_eq_true, not_false_eq_true]]
  rfl

/-- Where the owner is live on every die, no member that lost its slice has a restore to finish. -/
theorem State.finishRestores_eq_self (s : State) (t : RSet) (hlive : t.live = []) : s.finishRestores t = s := by
  refine List.foldlRecOn (motive := fun st : State => st = s) _ _ rfl fun st hst p hp => ?_
  subst hst
  have hne : p ≠ t.owner := bne_iff_ne.1 (List.mem_filter.1 hp).2
  have hnone (e : Replay × Nat × DieGraph) : (t.liveOn e.2.2.die == p) = false := by
    rw [RSet.liveOn, hlive]; exact beq_eq_false_iff_ne.2 hne.symm
  split
  · rfl
  · rw [List.filter_eq_nil_iff.2 fun e _ => by simp only [hnone e, Bool.and_false, Bool.false_and, Bool.false_eq_true, not_false_eq_true]]
    rfl

/-- R62, R156: a decision of the scheduler. -/
theorem schedulerPlaces : Claims.SchedulerPlaces := by
  intro s k p i t v y d hk ht hown hlive hlast hv hstate hsus hsaved hchoose
  subst hown
  have hruns : v.runs = true := by rw [Part.runs, hstate, hsus]; rfl
  have hall : s.placeAll k t.owner 256 = (s.placeDg t.owner v y i d).placeAll k t.owner 255 := by
    rw [State.placeAll, ht, hv]
    dsimp only
    rw [hchoose]
  have hexec : exec (.gangTick k) s = .next ((s.placeDg t.owner v y i d).placeAll k t.owner 255) := by
    show execGangTick k s = _
    rw [execGangTick, if_pos hk, State.gangTick, ht]
    dsimp only
    rw [if_pos hlast, s.settle_eq_self k t ht hlive, State.schedule, ht]
    dsimp only
    rw [s.finishRestores_eq_self t hlive, hv]
    dsimp only
    rw [if_pos hruns, s.restoreAll_eq_self t t.owner v hsaved, hall]
  refine ⟨_, hexec, fun r hr => ?_⟩
  obtain ⟨pl, hpl, hof⟩ := s.placedFor_placeDg t.owner y i r v d hr
  refine ⟨pl, ?_, hof⟩
  rw [State.reg_placeAll k t.owner r 255 _ (by rw [hpl]; exact Option.some_ne_none pl), hpl]

/-- Settles O49: a gang tick changes its set in the slice alone, and a decision places on free regions what later decisions leave. -/
theorem scheduling : Obligations.Scheduling := ⟨placedRegion, gangTickOwner, schedulerPlaces⟩

end Sys2Proof.Machine

/-!
O43, folds at their owner: what becomes of an operation there, of the return and the discard at its issuer, and of a window that is being
re-homed (R72, R186, R326, R327, R331, R333, R334, R381, R382, R390).
-/
namespace Sys2Proof.Machine

/-! ## Two changes of one region -/

theorem spInsert_spInsert {α : Type} (l : Sparse α) (n : Nat) (v w : α) : spInsert (spInsert l n v) n w = spInsert l n w := by
  induction l with
  | nil => simp only [spInsert, Nat.lt_irrefl, if_false, if_true]
  | cons e l ih =>
    obtain ⟨k, u⟩ := e
    simp only [spInsert]
    split
    · simp only [spInsert, Nat.lt_irrefl, if_false, if_true]
    · split
      · simp only [spInsert, Nat.lt_irrefl, if_false, if_true]
      · simp only [spInsert, *, if_false]

theorem State.modReg_modReg (s : State) (r : Nat) (f g : Region → Region) : (s.modReg r f).modReg r g = s.modReg r fun v => g (f v) := by
  simp only [State.modReg, State.reg_setReg, if_true]
  simp only [State.setReg, spInsert_spInsert]

theorem State.modSeq_modSeq (s : State) (r : Nat) (f g : Seq → Seq) : (s.modSeq r f).modSeq r g = s.modSeq r fun q => g (f q) :=
  s.modReg_modReg r _ _

theorem State.onlyRegion_modSeq (s : State) (r : Nat) (f : Seq → Seq) : Claims.OnlyRegion s (s.modSeq r f) r := s.onlyRegion_modReg r _

theorem State.seq_modSeq_self (s : State) (r : Nat) (f : Seq → Seq) : ((s.modSeq r f).reg r).seq = f (s.reg r).seq := by
  rw [State.reg_modSeq, if_pos rfl]

/-! ## Landing slots -/

theorem Seq.slot_setSlot (q : Seq) (n i : BitVec 4) (v : Slot) : (q.setSlot n v).slot i = if i = n then v else q.slot i := by
  have hne : i ≠ n → n.toNat ≠ i.toNat := fun h e => h (BitVec.eq_of_toNat_eq e.symm)
  unfold Seq.slot Seq.setSlot
  split
  · subst i; exact Vector.getElem_set_self ..
  · exact Vector.getElem_set_ne n.isLt i.isLt (hne ‹_›)

theorem Seq.slot_unowe_self (q : Seq) (n : Nat) (h : q.slot (BitVec.ofNat 4 n) = .owed) : (q.unowe n).slot (BitVec.ofNat 4 n) = .empty := by
  rw [Seq.unowe, h, if_pos rfl, Seq.slot_setSlot, if_pos rfl]

/-- A slot that an operation gives up is its own, or as it was. -/
theorem Seq.slot_unowe_cases (q : Seq) (n : Nat) (i : BitVec 4) : (q.unowe n).slot i = .empty ∨ (q.unowe n).slot i = q.slot i := by
  rw [Seq.unowe]
  split
  · rw [Seq.slot_setSlot]
    split
    · exact .inl rfl
    · exact .inr rfl
  · exact .inr rfl

theorem Seq.unowe_pending (q : Seq) (n : Nat) : (q.unowe n).pending = q.pending := by
  rw [Seq.unowe]; split <;> rfl

theorem Seq.unowe_pc (q : Seq) (n : Nat) : (q.unowe n).pc = q.pc := by
  rw [Seq.unowe]; split <;> rfl

/-! ## The issuer of a message, where its replay stands placed -/

theorem State.sentHere_eq {s : State} {r : Nat} {pl : Placement} (hpl : (s.reg r).place = some pl) (p replay : Nat) :
    s.sentHere r p replay = (pl.part == p && pl.replay == replay) := by
  rw [State.sentHere, hpl, Option.any_some]

theorem State.sentHere_of_place {s : State} {r p replay : Nat} {pl : Placement} (hpl : (s.reg r).place = some pl) (hp : pl.part = p)
    (hr : pl.replay = replay) : s.sentHere r p replay = true := by
  rw [State.sentHere_eq hpl, hp, hr, beq_self_eq_true, beq_self_eq_true]; rfl

theorem State.place_of_sentHere {s : State} {r p replay : Nat} (h : s.sentHere r p replay = true) :
    ∃ pl, (s.reg r).place = some pl ∧ pl.part = p ∧ pl.replay = replay := by
  obtain ⟨pl, hpl, hsent⟩ := (Option.any_eq_true _ _).1 h
  rw [Bool.and_eq_true, beq_iff_eq, beq_iff_eq] at hsent
  exact ⟨pl, hpl, hsent⟩

theorem State.modIssuer_here {s : State} {p replay r : Nat} (f : Region → Region) (h : s.sentHere r p replay = true) :
    s.modIssuer p replay r f = s.modReg r f := by
  obtain ⟨pl, hpl, hsent⟩ := State.place_of_sentHere h
  rw [State.modIssuer, hpl]
  exact if_pos hsent

theorem State.modIssuer_away {s : State} {p replay r : Nat} (f : Region → Region) (h : s.sentHere r p replay = false) :
    s.modIssuer p replay r f = s.modPart p fun v => v.modSaved replay r f := by
  unfold State.modIssuer
  split
  · next pl hpl => exact if_neg fun hsent => Bool.false_ne_true (h.symm.trans (State.sentHere_of_place hpl hsent.1 hsent.2))
  · rfl

theorem State.queueIssuer_here {s : State} {p replay r : Nat} (c : Pend) (h : s.sentHere r p replay = true) :
    s.queueIssuer p replay r c = s.queueCause r c := by
  obtain ⟨pl, hpl, hsent⟩ := State.place_of_sentHere h
  rw [State.queueIssuer, hpl]
  exact if_pos hsent

theorem State.queueIssuer_away {s : State} {p replay r : Nat} (c : Pend) (h : s.sentHere r p replay = false) :
    s.queueIssuer p replay r c = s.queueSaved p replay r c := by
  unfold State.queueIssuer
  split
  · next pl hpl => exact if_neg fun hsent => Bool.false_ne_true (h.symm.trans (State.sentHere_of_place hpl hsent.1 hsent.2))
  · rfl

/-- A cause behind those that are pending (R188). -/
def Seq.queued (q : Seq) (c : Pend) : Seq := { q with pending := q.pending ++ [c], wake := true }

/-- R188: a queue of causes with room takes one more. -/
theorem State.queueCause_room {s : State} {r p : Nat} (c : Pend) (hp : s.owner r = some p) (hroom : (s.reg r).seq.pending.length < 16) :
    s.queueCause r c = s.modSeq r fun q => q.queued c := by
  rw [State.queueCause, hp]
  exact if_neg (Nat.not_le.2 hroom)

theorem State.owner_of_sentHere {s : State} {r p replay : Nat} (h : s.sentHere r p replay = true) : s.owner r = some p := by
  obtain ⟨pl, hpl, hp, -⟩ := State.place_of_sentHere h
  rw [State.owner, hpl, ← hp]; rfl

theorem State.queueIssuer_room {s : State} {p replay r : Nat} (c : Pend) (h : s.sentHere r p replay = true)
    (hroom : (s.reg r).seq.pending.length < 16) : s.queueIssuer p replay r c = s.modSeq r fun q => q.queued c := by
  rw [State.queueIssuer_here c h, State.queueCause_room c (State.owner_of_sentHere h) hroom]

/-! ## What news for an issuer leaves -/

/-- What news for an issuer leaves of a region: its placement and its sticky bits. -/
def Region.standing (g : Region) : Option Placement × Bool × Bool := (g.place, g.sat, g.snan)

/-- `t` differs from `s` at most in partitions, other than their fold windows, and in regions, other than their standing: what the causes and
the slots of issuers leave, whether those are placed or saved. -/
structure State.Told (s t : State) : Prop where
  pkg : t.pkg = s.pkg
  mem : t.mem = s.mem
  standing : ∀ r, (t.reg r).standing = (s.reg r).standing
  windows : ∀ p, (t.part? p).map Part.windows = (s.part? p).map Part.windows

namespace State.Told

protected theorem rfl (s : State) : State.Told s s := ⟨Eq.refl _, Eq.refl _, fun _ => Eq.refl _, fun _ => Eq.refl _⟩

theorem trans {s t u : State} (h : State.Told s t) (g : State.Told t u) : State.Told s u :=
  ⟨g.pkg.trans h.pkg, g.mem.trans h.mem, fun r => (g.standing r).trans (h.standing r), fun p => (g.windows p).trans (h.windows p)⟩

theorem foldl {α : Type} (f : State → α → State) (hf : ∀ s a, State.Told s (f s a)) (l : List α) (s : State) : State.Told s (l.foldl f s) :=
  List.foldlRecOn l f (.rfl s) fun t ht a _ => ht.trans (hf t a)

theorem place {s t : State} (h : State.Told s t) (r : Nat) : (t.reg r).place = (s.reg r).place := congrArg Prod.fst (h.standing r)

theorem sentHere {s t : State} (h : State.Told s t) (r p replay : Nat) : t.sentHere r p replay = s.sentHere r p replay := by
  rw [State.sentHere, h.place, State.sentHere]

/-- The fold windows of a partition. -/
theorem part_some {s t : State} (h : State.Told s t) {p : Nat} {v : Part} (hv : s.part? p = some v) :
    ∃ u, t.part? p = some u ∧ u.windows = v.windows := by
  have hw := h.windows p
  rwa [hv, Option.map_some, Option.map_eq_some_iff] at hw

end State.Told

theorem State.modReg_told (s : State) (r : Nat) (f : Region → Region) (hf : ∀ g, (f g).standing = g.standing) : State.Told s (s.modReg r f) := by
  refine ⟨rfl, rfl, fun x => ?_, fun _ => rfl⟩
  rw [State.reg_modReg]
  split
  · subst x; exact hf _
  · rfl

theorem State.modSeq_told (s : State) (r : Nat) (f : Seq → Seq) : State.Told s (s.modSeq r f) := s.modReg_told r _ fun _ => rfl

theorem State.modPart_told (s : State) (p : Nat) (f : Part → Part) (hf : ∀ v, (f v).windows = v.windows) : State.Told s (s.modPart p f) := by
  refine ⟨State.modPart_pkg .., State.modPart_mem .., fun r => by rw [State.reg_modPart], fun q => ?_⟩
  rw [State.part_modPart]
  split
  · subst q; rw [Option.map_map]; exact Option.map_congr fun v _ => hf v
  · rfl

theorem State.modIssuer_told (s : State) (p replay r : Nat) (f : Region → Region) (hf : ∀ g, (f g).standing = g.standing) :
    State.Told s (s.modIssuer p replay r f) := by
  cases h : s.sentHere r p replay with
  | true => rw [State.modIssuer_here f h]; exact s.modReg_told r f hf
  | false => rw [State.modIssuer_away f h]; exact s.modPart_told p _ fun _ => rfl

theorem State.fatal_told (s : State) (p : Nat) (q : ResetReq) : State.Told s (s.fatal p q) := s.modPart_told p _ fun _ => rfl

theorem State.queueCause_told (s : State) (r : Nat) (c : Pend) : State.Told s (s.queueCause r c) := by
  unfold State.queueCause
  split
  · exact .rfl s
  · dsimp only
    split
    · exact s.fatal_told ..
    · exact s.modSeq_told ..

theorem State.queueSaved_told (s : State) (p replay r : Nat) (c : Pend) : State.Told s (s.queueSaved p replay r c) := by
  unfold State.queueSaved
  split
  · exact .rfl s
  · split
    · exact s.fatal_told ..
    · exact s.modPart_told p _ fun _ => rfl

theorem State.queueIssuer_told (s : State) (p replay r : Nat) (c : Pend) : State.Told s (s.queueIssuer p replay r c) := by
  cases h : s.sentHere r p replay with
  | true => rw [State.queueIssuer_here c h]; exact s.queueCause_told r c
  | false => rw [State.queueIssuer_away c h]; exact s.queueSaved_told p replay r c

/-- The slot that a discarded operation gives up, where it asked for a return. -/
theorem State.giveUp_told (s : State) (m : FoldMsg) :
    State.Told s (if m.r then s.modIssuer m.part m.replay m.issuer (fun g => { g with seq := g.seq.unowe m.slot }) else s) := by
  split
  · exact s.modIssuer_told _ _ _ _ fun _ => rfl
  · exact .rfl s

theorem State.discardFold_told (s : State) (m : FoldMsg) (c : Pend) : State.Told s (s.discardFold m c) :=
  (s.giveUp_told m).trans (State.queueIssuer_told ..)

/-! ## The regions that news for an issuer leaves -/

theorem State.reg_modIssuer_other (s : State) (p replay r x : Nat) (f : Region → Region) (hx : x ≠ r) :
    (s.modIssuer p replay r f).reg x = s.reg x := by
  cases h : s.sentHere r p replay with
  | true => rw [State.modIssuer_here f h, State.reg_modReg, if_neg hx]
  | false => rw [State.modIssuer_away f h, State.reg_modPart]

theorem State.reg_queueCause_other (s : State) (r x : Nat) (c : Pend) (hx : x ≠ r) : (s.queueCause r c).reg x = s.reg x := by
  unfold State.queueCause
  split
  · rfl
  · dsimp only
    split
    · exact State.reg_modPart ..
    · rw [State.reg_modSeq, if_neg hx]

theorem State.reg_queueSaved (s : State) (p replay r x : Nat) (c : Pend) : (s.queueSaved p replay r c).reg x = s.reg x := by
  unfold State.queueSaved
  split
  · rfl
  · split <;> exact State.reg_modPart ..

theorem State.reg_queueIssuer_other (s : State) (p replay r x : Nat) (c : Pend) (hx : x ≠ r) : (s.queueIssuer p replay r c).reg x = s.reg x := by
  cases h : s.sentHere r p replay with
  | true => rw [State.queueIssuer_here c h, State.reg_queueCause_other _ _ _ _ hx]
  | false => rw [State.queueIssuer_away c h, State.reg_queueSaved]

/-! ## A discarded operation (R334, R381, R382) -/

/-- The sequencer of an issuer whose operation has been discarded. -/
def Seq.discarded (q : Seq) (c : Pend) (m : FoldMsg) : Seq := (if m.r then q.unowe m.slot else q).queued c

theorem Seq.discarded_pending (q : Seq) (c : Pend) (m : FoldMsg) : (q.discarded c m).pending = q.pending ++ [c] := by
  rw [Seq.discarded, Seq.queued]
  split
  · rw [Seq.unowe_pending]
  · rfl

theorem Seq.discarded_pc (q : Seq) (c : Pend) (m : FoldMsg) : (q.discarded c m).pc = q.pc := by
  rw [Seq.discarded, Seq.queued]
  split
  · exact q.unowe_pc m.slot
  · rfl

theorem Seq.slot_discarded_self (q : Seq) (c : Pend) (m : FoldMsg) (hr : m.r = true) (h : q.slot (BitVec.ofNat 4 m.slot) = .owed) :
    (q.discarded c m).slot (BitVec.ofNat 4 m.slot) = .empty := by
  rw [Seq.discarded, if_pos hr]
  exact q.slot_unowe_self m.slot h

theorem Seq.slot_discarded_cases (q : Seq) (c : Pend) (m : FoldMsg) (i : BitVec 4) :
    (q.discarded c m).slot i = .empty ∨ (q.discarded c m).slot i = q.slot i := by
  rw [Seq.discarded]
  split
  · exact q.slot_unowe_cases m.slot i
  · exact .inr rfl

/-- A discard at an issuer whose replay stands placed, with room for its cause. -/
theorem State.discardFold_here {s : State} {m : FoldMsg} (c : Pend) (h : s.sentHere m.issuer m.part m.replay = true)
    (hroom : (s.reg m.issuer).seq.pending.length < 16) : s.discardFold m c = s.modSeq m.issuer fun q => q.discarded c m := by
  unfold State.discardFold Seq.discarded
  cases m.r with
  | false => exact State.queueIssuer_room c h hroom
  | true =>
    have hslot : s.modIssuer m.part m.replay m.issuer (fun g => { g with seq := g.seq.unowe m.slot }) = s.modSeq m.issuer fun q => q.unowe m.slot :=
      State.modIssuer_here _ h
    dsimp only
    rw [if_pos rfl, hslot, State.queueIssuer_room, State.modSeq_modSeq]
    · rfl
    · rw [← h]; exact (s.modSeq_told ..).sentHere ..
    · rwa [State.seq_modSeq_self, Seq.unowe_pending]

/-- A discard at an issuer whose replay is not placed touches no region. -/
theorem State.reg_discardFold_away {s : State} {m : FoldMsg} (c : Pend) (h : s.sentHere m.issuer m.part m.replay = false) (x : Nat) :
    (s.discardFold m c).reg x = s.reg x := by
  have hqueued := ((s.giveUp_told m).sentHere ..).trans h
  unfold State.discardFold
  dsimp only
  rw [State.queueIssuer_away c hqueued, State.reg_queueSaved]
  split
  · rw [State.modIssuer_away _ h, State.reg_modPart]
  · rfl

theorem State.reg_discardFold_other (s : State) (m : FoldMsg) (c : Pend) (x : Nat) (hx : x ≠ m.issuer) : (s.discardFold m c).reg x = s.reg x := by
  unfold State.discardFold
  dsimp only
  rw [State.reg_queueIssuer_other _ _ _ _ _ _ hx]
  split
  · exact s.reg_modIssuer_other _ _ _ _ _ hx
  · rfl

/-! ## Operations that are discarded one after another -/

/-- Whether an operation was issued in a region by the replay that a placement names. -/
def FoldMsg.sentFrom (m : FoldMsg) (r : Nat) (pl : Placement) : Bool := m.issuer == r && m.part == pl.part && m.replay == pl.replay

/-- One discard, as a region sees it. -/
theorem State.seq_discardFold {s : State} {r : Nat} {pl : Placement} (hpl : (s.reg r).place = some pl) (m : FoldMsg) (c : Pend) :
    (m.sentFrom r pl = true → (s.reg r).seq.pending.length < 16 → ((s.discardFold m c).reg r).seq = (s.reg r).seq.discarded c m) ∧
      (m.sentFrom r pl = false → ((s.discardFold m c).reg r).seq = (s.reg r).seq) := by
  by_cases hr : m.issuer = r
  · subst hr
    have hsent : s.sentHere m.issuer m.part m.replay = m.sentFrom m.issuer pl := by
      rw [State.sentHere_eq hpl, FoldMsg.sentFrom, beq_self_eq_true, Bool.true_and, BEq.comm, BEq.comm (a := pl.replay)]
    refine ⟨fun h hroom => ?_, fun h => ?_⟩
    · rw [State.discardFold_here c (hsent.trans h) hroom, State.seq_modSeq_self]
    · rw [State.reg_discardFold_away c (hsent.trans h)]
  · have hnot : m.sentFrom r pl = false := by rw [FoldMsg.sentFrom, beq_false_of_ne hr]; rfl
    refine ⟨fun h => absurd (hnot.symm.trans h) Bool.false_ne_true, fun _ => ?_⟩
    rw [State.reg_discardFold_other _ _ _ _ fun h => hr h.symm]

/-- A region sees the discards of its own operations, in order, while its queue has room for their causes. -/
theorem State.seq_foldl_discardFold {r : Nat} {pl : Placement} (c : Pend) (ms : List FoldMsg) : ∀ s : State, (s.reg r).place = some pl →
    (s.reg r).seq.pending.length + (ms.filter fun m => m.sentFrom r pl).length ≤ 16 →
    ((ms.foldl (fun st m => st.discardFold m c) s).reg r).seq = (ms.filter fun m => m.sentFrom r pl).foldl (fun q m => q.discarded c m) (s.reg r).seq := by
  induction ms with
  | nil => exact fun s _ _ => rfl
  | cons m ms ih =>
    intro s hpl hroom
    have hpl' := ((s.discardFold_told m c).place r).trans hpl
    obtain ⟨hown, helse⟩ := State.seq_discardFold hpl m c
    rw [List.foldl_cons]
    cases hm : m.sentFrom r pl with
    | true =>
      have htake : (m :: ms).filter (fun m => m.sentFrom r pl) = m :: ms.filter fun m => m.sentFrom r pl := List.filter_cons_of_pos hm
      rw [htake, List.length_cons] at hroom
      have hseq := hown hm (by omega)
      rw [htake, List.foldl_cons, ← hseq]
      refine ih _ hpl' ?_
      rw [hseq, Seq.discarded_pending, List.length_append, List.length_singleton]
      omega
    | false =>
      have hskip : (m :: ms).filter (fun m => m.sentFrom r pl) = ms.filter fun m => m.sentFrom r pl :=
        List.filter_cons_of_neg (by rw [hm]; exact Bool.false_ne_true)
      rw [hskip] at hroom ⊢
      rw [← helse hm]
      exact ih _ hpl' (by rwa [helse hm])

theorem Seq.foldl_discarded_pending (c : Pend) (ms : List FoldMsg) : ∀ q : Seq,
    (ms.foldl (fun q m => q.discarded c m) q).pending = q.pending ++ List.replicate ms.length c := by
  induction ms with
  | nil => exact fun q => (List.append_nil _).symm
  | cons m ms ih =>
    intro q
    rw [List.foldl_cons, ih, Seq.discarded_pending, List.append_assoc, List.length_cons, List.replicate_succ, List.singleton_append]

theorem Seq.slot_foldl_discarded_empty (c : Pend) (i : BitVec 4) (ms : List FoldMsg) (q : Seq) (h : q.slot i = .empty) :
    (ms.foldl (fun q m => q.discarded c m) q).slot i = .empty :=
  List.foldlRecOn (motive := fun q : Seq => q.slot i = .empty) ms _ h fun q hq m _ => (q.slot_discarded_cases c m i).elim id fun e => e.trans hq

/-- The slot that one of several discarded operations owes is empty in the end. -/
theorem Seq.slot_foldl_discarded (c : Pend) (m : FoldMsg) (hr : m.r = true) (ms : List FoldMsg) : m ∈ ms → ∀ q : Seq,
    q.slot (BitVec.ofNat 4 m.slot) = .owed → (ms.foldl (fun q m => q.discarded c m) q).slot (BitVec.ofNat 4 m.slot) = .empty := by
  induction ms with
  | nil => exact fun h => absurd h List.not_mem_nil
  | cons a ms ih =>
    intro h q hq
    rw [List.foldl_cons]
    rcases List.mem_cons.1 h with rfl | h
    · exact Seq.slot_foldl_discarded_empty c _ ms _ (q.slot_discarded_self c m hr hq)
    · rcases q.slot_discarded_cases c a (BitVec.ofNat 4 m.slot) with he | he
      · exact Seq.slot_foldl_discarded_empty c _ ms _ he
      · exact ih h _ (he.trans hq)

/-! ## Operations and returns that are taken -/

theorem takeFirst_holds {α : Type} (f : α → Bool) (l : List α) (x : α) (rest : List α) (h : takeFirst f l = some (x, rest)) : f x = true := by
  induction l generalizing rest with
  | nil => cases h
  | cons a l ih =>
    rw [takeFirst] at h
    split at h
    · cases h; assumption
    · obtain ⟨y, hy, he⟩ := Option.map_eq_some_iff.1 h
      cases he
      exact ih y.2 hy

/-! ## The sticky bits of an issuer (R72, R278, R334) -/

/-- What an owner tells the issuing region beside its sticky bits. -/
theorem State.tellIssuer_told (s : State) (m : FoldMsg) (sat snan : Bool) :
    State.Told (s.modIssuer m.part m.replay m.issuer fun g => g.sticky sat snan) (s.tellIssuer m sat snan) := by
  have told (st : State) (on : Bool) (c : Pend) : State.Told st (if on then st.queueIssuer m.part m.replay m.issuer c else st) := by
    split
    · exact st.queueIssuer_told _ _ _ c
    · exact .rfl st
  have sent (st : State) (bank a b : Bool) : State.Told st (st.modIssuer m.part m.replay m.issuer fun g =>
      g.setBank bank { g.bank bank with satSent := (g.bank bank).satSent || a, snanSent := (g.bank bank).snanSent || b }) :=
    st.modIssuer_told _ _ _ _ fun _ => by cases bank <;> rfl
  unfold State.tellIssuer
  dsimp only
  split
  · exact .rfl _
  · split
    · exact .rfl _
    · split
      · exact .rfl _
      · exact ((sent ..).trans (told ..)).trans (told ..)

/-- What an owner tells the issuing region: memory and the package stay, and an event sets the sticky bits where the replay is placed. -/
theorem State.tellIssuer_frame (s : State) (m : FoldMsg) (sat snan : Bool) :
    (s.tellIssuer m sat snan).pkg = s.pkg ∧ (s.tellIssuer m sat snan).mem = s.mem ∧
      (s.sentHere m.issuer m.part m.replay = true → ((s.tellIssuer m sat snan).reg m.issuer).sat = ((s.reg m.issuer).sat || sat) ∧
        ((s.tellIssuer m sat snan).reg m.issuer).snan = ((s.reg m.issuer).snan || snan)) := by
  have htold := s.tellIssuer_told m sat snan
  cases hsent : s.sentHere m.issuer m.part m.replay with
  | true =>
    rw [State.modIssuer_here _ hsent] at htold
    have hstand := htold.standing m.issuer
    rw [State.reg_modReg, if_pos rfl] at hstand
    exact ⟨htold.pkg, htold.mem, fun _ => ⟨congrArg (fun x => x.2.1) hstand, congrArg (fun x => x.2.2) hstand⟩⟩
  | false =>
    rw [State.modIssuer_away _ hsent] at htold
    exact ⟨htold.pkg.trans (State.modPart_pkg ..), htold.mem.trans (State.modPart_mem ..), fun h => absurd h Bool.false_ne_true⟩

/-- An owner tells the issuing region of an event, and of nothing else. -/
theorem State.tellEvent_frame (s : State) (m : FoldMsg) (sat snan : Bool) {t : State}
    (ht : t = if sat || snan then s.tellIssuer m sat snan else s) : t.pkg = s.pkg ∧ t.mem = s.mem ∧ (sat = false → snan = false → t = s) ∧
      (s.sentHere m.issuer m.part m.replay = true → (t.reg m.issuer).sat = ((s.reg m.issuer).sat || sat) ∧
        (t.reg m.issuer).snan = ((s.reg m.issuer).snan || snan)) := by
  subst ht
  split
  · next hevent =>
    obtain ⟨hpkg, hmem, hsticky⟩ := s.tellIssuer_frame m sat snan
    exact ⟨hpkg, hmem, fun h1 h2 => by rw [h1, h2] at hevent; exact absurd hevent Bool.false_ne_true, hsticky⟩
  · next hevent =>
    rw [Bool.or_eq_true, not_or, Bool.not_eq_true, Bool.not_eq_true] at hevent
    refine ⟨rfl, rfl, fun _ _ => rfl, fun _ => ?_⟩
    rw [hevent.1, hevent.2, Bool.or_false, Bool.or_false]
    exact ⟨rfl, rfl⟩

/-! ## An operation at its owner (R331, R334) -/

/-- What the package keeps of an operation that has been applied: the owner's shadows, the other operations, and the return it asked for. -/
def Pkg.applied (k : Pkg) (o : Nat × Nat) (l : Sparse FoldReg) (m : FoldMsg) (rest : List FoldMsg) (old : Nat) : Pkg :=
  { k.setShadows o l with
    folds := rest
    returns := if m.r then k.returns ++ [{ part := m.part, replay := m.replay, dst := m.issuer, slot := m.slot, val := BitVec.ofNat 64 old }]
      else k.returns }

section

variable {s s1 : State} {issuer : Nat} {o : Nat × Nat} {m : FoldMsg} {rest : List FoldMsg} (hnext : s.nextFold issuer o = some (m, rest))
include hnext

theorem State.foldOperation_done (hdone : s.ownerDone m = true) : s.foldOperation issuer o = s.modPkg fun k => { k with folds := rest } := by
  rw [State.foldOperation, hnext]
  exact if_pos hdone

variable (hdone : s.ownerDone m = false)
include hdone

theorem State.foldOperation_held (hread : s.readNum m.who m.addr m.z = (s1, .held)) : s.foldOperation issuer o = s1.holdOwner m := by
  rw [State.foldOperation, hnext]
  dsimp only
  rw [hdone, hread]
  exact if_neg Bool.false_ne_true

theorem State.foldOperation_applied {s2 : State} {old v : Nat} {l : Sparse FoldReg} {sat snan : Bool}
    (hread : s.readNum m.who m.addr m.z = (s1, .ok old)) (happly : applyFold m (s.pkg.shadowsOf o) old = .done v l sat snan)
    (hwrite : s1.writeNum m.who m.addr m.z v = (s2, .ok ())) :
    s.foldOperation issuer o = if sat || snan then (s2.modPkg fun k => k.applied o l m rest old).tellIssuer m sat snan
      else s2.modPkg fun k => k.applied o l m rest old := by
  rw [State.foldOperation, hnext]
  dsimp only
  rw [hdone, if_neg Bool.false_ne_true, hread]
  dsimp only
  rw [happly]
  dsimp only
  rw [hwrite]
  rfl

end

/-- An owner's write of a number within one page, where nothing stands against it (R330). -/
theorem State.writeNum_ownerPage (s s1 : State) (w : Who) (va n pa v : Nat) (hpage : firstPage va n = n) (hown : w.owner = true)
    (hreach : s.reach w va .write = (s1, .ok pa)) (hphys : s1.physFault pa n .write = none) :
    s.writeNum w va n v = ((s1.countBytes w.part pa n).writePhys pa n v, .ok ()) := by
  have hlen := toBytes_length n v
  rw [State.writeNum, State.writeVA_page _ _ _ _ (by rw [hlen, hpage]) (.inl hown), State.writePage_ok]
  exact ⟨s1, pa, hreach, by rwa [hlen], by rw [hlen]; rfl⟩

theorem State.exec_foldOperation (s : State) {issuer owner row : Nat} (hi : issuer < 192) (ho : owner < 192) (hr : row < 16) :
    exec (.foldOperation issuer owner row) s = .next (s.foldOperation issuer (owner, row)) := by
  show execFoldOperation issuer owner row s = _
  rw [execFoldOperation, if_pos ⟨hi, ho, hr⟩]

/-- R390: where every stage of the replay that has the region is done there, so is the region's part of the operation. -/
theorem State.ownerDone_of_done {s : State} {m : FoldMsg} {v : Part} {y : Replay} {d : DieGraph} {c : StageRec} (hrmw : m.rmw = true)
    (hv : s.part? m.part = some v) (hy : v.replays.find? (fun y => y.num == m.replay) = some y) (hd : d ∈ y.dgs) (hc : c ∈ d.stages)
    (hdone : m.owner.1 ∈ c.done) (hall : ∀ d ∈ y.dgs, ∀ c ∈ d.stages, m.owner.1 ∈ c.regions → m.owner.1 ∈ c.done) : s.ownerDone m = true := by
  have hsome : ((y.dgs.flatMap DieGraph.stages).any fun g => g.done.contains m.owner.1) = true :=
    List.any_eq_true.2 ⟨c, List.mem_flatMap.2 ⟨d, hd, hc⟩, List.contains_iff_mem.2 hdone⟩
  have hleft : ((y.dgs.flatMap DieGraph.stages).any fun g => g.regions.contains m.owner.1 && !(g.done.contains m.owner.1)) = false := by
    refine List.any_eq_false.2 fun g hg h => ?_
    obtain ⟨e, he, hge⟩ := List.mem_flatMap.1 hg
    rw [Bool.and_eq_true, List.contains_iff_mem, Bool.not_eq_true', ← Bool.not_eq_true, List.contains_iff_mem] at h
    exact h.2 (hall e he g hge h.1)
  rw [State.ownerDone, hv, Option.bind_some, hy, Option.map_some, Option.getD_some, hrmw, hsome, hleft]
  rfl

/-- R390: an rmw operation whose region is done is discarded. -/
theorem foldDiscardedLate (s : State) (issuer owner row : Nat) (m : FoldMsg) (rest : List FoldMsg) (v : Part) (y : Replay) (d : DieGraph) (c : StageRec)
    (hi : issuer < 192) (ho : owner < 192) (hrow : row < 16) (hnext : s.nextFold issuer (owner, row) = some (m, rest)) (hrmw : m.rmw = true)
    (hv : s.part? m.part = some v) (hy : v.replays.find? (fun y => y.num == m.replay) = some y) (hd : d ∈ y.dgs) (hc : c ∈ d.stages)
    (hdone : owner ∈ c.done) (hown : m.owner = (owner, row)) (hall : ∀ d ∈ y.dgs, ∀ c ∈ d.stages, owner ∈ c.regions → owner ∈ c.done) :
    ∃ t, exec (.foldOperation issuer owner row) s = .next t ∧ t.pkg = { s.pkg with folds := rest } ∧ t.mem = s.mem ∧ t.regs = s.regs ∧
      t.parts = s.parts := by
  have howner : m.owner.1 = owner := congrArg Prod.fst hown
  have hlate : s.ownerDone m = true := State.ownerDone_of_done hrmw hv hy hd hc (by rwa [howner]) (by rwa [howner])
  exact ⟨_, (s.exec_foldOperation hi ho hrow).trans (congrArg _ (State.foldOperation_done hnext hlate)), rfl, rfl, rfl, rfl⟩

/-- R72, R331, R334, R390: FOLD_OPERATION. -/
theorem foldApplied : Claims.FoldApplied := by
  refine ⟨foldDiscardedLate, ?_⟩
  intro s s1 s2 issuer owner row old v pa m rest l sat snan hi ho hrow hnext hown hdone hread happly hal hz hreach hphys
  have hpage : firstPage m.addr m.z = m.z := firstPage_aligned _ _ (by rcases hz with h | h | h <;> rw [h] <;> decide) hal
  have hfold := State.foldOperation_applied hnext hdone hread happly (s1.writeNum_ownerPage s2 m.who m.addr m.z pa v hpage rfl hreach hphys)
  have hro : State.ReadOnly m.who s (s2.countBytes m.who.part pa m.z) :=
    (State.readNum_readOnly _ _ _ _ _ _ hread).trans (State.reach_countBytes_readOnly _ _ _ _ _ _ _ hreach)
  set s3 := ((s2.countBytes m.who.part pa m.z).writePhys pa m.z v).modPkg fun k => k.applied (owner, row) l m rest old
  have hmem : s3.mem = s.mem.writeN pa (toBytes m.z v) := by rw [← hro.mem]; rfl
  have hpkg : s3.pkg = s.pkg.applied (owner, row) l m rest old := by rw [← hro.pkg]; rfl
  have hreg (x : Nat) : s3.reg x = { s.reg x with tlb := (s3.reg x).tlb } := hro.reg x
  obtain ⟨htp, htm, hquiet, hsticky⟩ := s3.tellEvent_frame m sat snan hfold
  refine ⟨_, s.exec_foldOperation hi ho hrow, fun i hlt => ?_, fun x hx => ?_, ?_, ?_, fun h1 h2 x => ?_, fun pl hpl hp hr => ?_⟩
  · rw [htm, hmem, Memory.read_writeN_in _ _ _ _ _ hlt]
  · rw [htm, hmem, Memory.read_writeN_out _ _ _ _ _ hx]
  · rw [htp, hpkg]; rfl
  · rw [htp, hpkg]; rfl
  · rw [hquiet h1 h2, hreg]
  · have hpl3 : (s3.reg m.issuer).place = some pl := by rw [hreg]; exact hpl
    have hs := hsticky (State.sentHere_of_place hpl3 hp hr)
    rw [hreg] at hs
    exact hs

/-! ## An owner that is held (R334) -/

/-- While an owner is held at one of a partition's operations, it takes none of the others from an issuer who has only those. -/
theorem State.nextFold_eq_none {s : State} {issuer : Nat} {o : Nat × Nat} {x : FoldMsg} (hx : x ∈ s.pkg.folds) (hheld : x.held = true)
    (hown : x.owner = o) (hall : ∀ m ∈ s.pkg.folds, m.issuer = issuer → m.owner = o → m.part = x.part ∧ m.num ≠ x.num) :
    s.nextFold issuer o = none := by
  refine takeFirst_eq_none _ _ fun m hm => ?_
  rw [← Bool.not_eq_true]
  intro htake
  simp only [Bool.and_eq_true, beq_iff_eq, Bool.not_eq_true'] at htake
  obtain ⟨⟨⟨⟨⟨⟨hissuer, howner⟩, -⟩, -⟩, -⟩, hfree⟩, -⟩ := htake
  obtain ⟨hpart, hnum⟩ := hall m hm hissuer howner
  have hbusy : s.ownerHeld m = true := List.any_eq_true.2 ⟨x, hx, by
    rw [hheld, hown, howner, hpart, beq_self_eq_true, beq_self_eq_true, bne_iff_ne.2 hnum.symm]; rfl⟩
  exact Bool.false_ne_true (hfree.symm.trans hbusy)

/-- R334: an owner at an access that is held. -/
theorem foldHolds : Claims.FoldHolds := by
  intro s issuer owner row hi ho hrow
  refine ⟨fun s1 m rest hnext hdone hread => ?_, fun x hx hheld hown hall => ?_⟩
  · exact ⟨_, (s.exec_foldOperation hi ho hrow).trans (congrArg _ (State.foldOperation_held hnext hdone hread)), rfl, rfl⟩
  · rw [s.exec_foldOperation hi ho hrow, State.foldOperation, State.nextFold_eq_none hx hheld hown hall]

/-! ## A return (R327) -/

/-- R327: FOLD_RETURN. -/
theorem foldReturned : Claims.FoldReturned := by
  intro s r x rest pl hr htake hpl hp hn howed
  set s1 := s.modPkg fun k => { k with returns := rest }
  have hsent : s1.sentHere r x.part x.replay = true := State.sentHere_of_place (s := s1) hpl hp hn
  have hfill : (s1.reg r).seq.fill x.slot x.val = { (s.reg r).seq.setSlot (BitVec.ofNat 4 x.slot) (.full x.val) with wake := true } := by
    rw [Seq.fill]
    exact if_pos howed
  have hexec : exec (.foldReturn r) s = .next (s1.modSeq r fun q => q.fill x.slot x.val) := by
    show execFoldReturn r s = _
    rw [execFoldReturn, if_pos hr, State.foldReturn, htake]
    exact congrArg _ (State.modIssuer_here _ hsent)
  refine ⟨_, hexec, rfl, ?_, fun n => ?_, fun a => ?_, ?_, s1.onlyRegion_modSeq r _⟩ <;> rw [State.seq_modSeq_self, hfill]
  · exact (s.reg r).seq.slot_setSlot _ n _
  · rfl
  · rfl

/-! ## Orphans (R326, R381) -/

theorem State.exec_orphanReturn (s : State) {src dst : Nat} (hs : src < 192) (hd : dst < 192) :
    exec (.orphanReturn src dst) s = .next (s.orphanReturn src dst) := by
  show execOrphanReturn src dst s = _
  rw [execOrphanReturn, if_pos ⟨hs, hd⟩]

/-- R326: a signal to a region that takes none any longer. -/
theorem State.orphanReturn_signal {s : State} {src dst : Nat} {g : Signal} (hdown : s.unreachable dst = true)
    (hfind : s.pkg.signals.find? (fun g => g.src == src && g.dst == dst) = some g) :
    s.orphanReturn src dst = (s.modPkg fun k => { k with signals := k.signals.filter fun x => x.num != g.num }).queueIssuer g.part g.replay src
      { cause := Cause.orphanReturn, finfo := BitVec.ofNat 64 (g.tag + 256 * dst) } := by
  have hany : (s.pkg.signals.any fun g => g.src == src && g.dst == dst) = true :=
    List.any_eq_true.2 ⟨g, List.mem_of_find?_eq_some hfind, List.find?_some (p := fun g : Signal => g.src == src && g.dst == dst) hfind⟩
  rw [State.orphanReturn, hdown, hany, State.takeSignal, hfind]
  rfl

/-- R381: an operation that met a closed link. -/
theorem State.orphanReturn_fold {s : State} {src dst : Nat} {m : FoldMsg} {rest : List FoldMsg}
    (hnone : s.pkg.signals.any (fun g => g.src == src && g.dst == dst) = false)
    (htake : takeFirst (fun m => (m.orphan || s.routerDown dst) && m.issuer == src && m.owner.1 == dst) s.pkg.folds = some (m, rest)) :
    s.orphanReturn src dst = (s.modPkg fun k => { k with folds := rest }).discardFold m
      { cause := Cause.orphanReturn, fva := BitVec.ofNat 64 m.addr, finfo := if m.r then m.info else 0 } := by
  rw [State.orphanReturn, hnone, Bool.and_false, if_neg Bool.false_ne_true, htake]

/-- R326, R381: ORPHAN_RETURN. -/
theorem orphanReturned : Claims.OrphanReturned := by
  refine ⟨?_, ?_⟩
  · intro s src dst g pl hsrc hdst hdown hfind hpl hp hn hroom
    have hunreach : s.unreachable dst = true := by
      rw [State.unreachable, Bool.or_eq_true, Bool.not_eq_true']; exact hdown
    set s1 := s.modPkg fun k => { k with signals := k.signals.filter fun x => x.num != g.num }
    have hsent : s1.sentHere src g.part g.replay = true := State.sentHere_of_place (s := s1) hpl hp hn
    have hback := (State.orphanReturn_signal hunreach hfind).trans (State.queueIssuer_room _ hsent hroom)
    refine ⟨_, (s.exec_orphanReturn hsrc hdst).trans (congrArg _ hback), rfl, ?_, s1.onlyRegion_modSeq src _⟩
    rw [State.seq_modSeq_self]; rfl
  · intro s src dst m rest pl hsrc hdst hnone htake hpl hp hn hroom
    have hmine := takeFirst_holds _ _ _ _ htake
    rw [Bool.and_eq_true, Bool.and_eq_true, beq_iff_eq] at hmine
    obtain ⟨⟨-, rfl⟩, -⟩ := hmine
    set s1 := s.modPkg fun k => { k with folds := rest }
    have hsent : s1.sentHere m.issuer m.part m.replay = true := State.sentHere_of_place (s := s1) hpl hp hn
    have hback := (State.orphanReturn_fold hnone htake).trans (State.discardFold_here _ hsent hroom)
    refine ⟨_, (s.exec_orphanReturn hsrc hdst).trans (congrArg _ hback), rfl, ?_, fun hr howed => ?_, ?_, s1.onlyRegion_modSeq m.issuer _⟩ <;>
      rw [State.seq_modSeq_self]
    · exact Seq.discarded_pending ..
    · exact Seq.slot_discarded_self _ _ _ hr howed
    · exact Seq.discarded_pc ..

/-! ## A fold at issue into a window without an owner (R333, R382) -/

/-- R333, R382: fold. -/
theorem foldWithoutOwner : Claims.FoldWithoutOwner := by
  intro s a b c op r slot off size acq rel scope k p ea v w i z hk hheld hp hv hea hal hfind hown hslot hrel hroom
  have hz : foldBytes size = z := rfl
  have hsum : s.seq.addr20 a off = ea := exactSum_eq_of_sum _ _ _ hea
  have hwindow : findWindow v ea z = some w := hfind
  have hland : (r == 1 && s.seq.slot slot != .empty) = false := by
    rw [← Bool.not_eq_true, Bool.and_eq_true, beq_iff_eq, bne_iff_ne]
    exact fun h => h.2 (hslot h.1)
  have hengine : (rel == 1 && s.engineBusy s.cur) = false := by
    rcases hrel with h | h
    · rw [h]; rfl
    · rw [h, Bool.and_false]
  have hqueue := State.queueCause_room { cause := Cause.foldNoWindow } hp hroom
  have hexec : exec i s = .next ((s.queueCause s.cur { cause := Cause.foldNoWindow }).advance 8) := by
    show execFold a b c op r slot off size acq rel scope k s = _
    rw [execFold, State.guarded_true _ _ _ _ hk]
    simp only [hsum, hz, hheld, aligned, hal, beq_self_eq_true, Bool.not_true, Bool.false_eq_true, if_false, hp, Option.getD_some, hv, Option.bind_some,
      hwindow, hland, hengine, hown]
  rw [hqueue, State.advance, State.mod, State.modSeq_cur, State.modSeq_modSeq] at hexec
  exact ⟨_, hexec, s.mod_seqOnly fun q => (q.queued { cause := Cause.foldNoWindow }).advance 8⟩


/-! ## The first owner that is free (R382) -/

/-- The order of edge units: by region, then by row. -/
def unitLe (x y : Nat × Nat) : Prop := x.1 < y.1 ∨ x.1 = y.1 ∧ x.2 ≤ y.2

theorem unitLe_antisymm {x y : Nat × Nat} (h : unitLe x y) (g : unitLe y x) : x = y := by
  unfold unitLe at h g
  exact Prod.ext (by omega) (by omega)

/-- In an ordered list, the first element that meets a test is the least that does. -/
theorem find?_le_of_pairwise {α : Type} {R : α → α → Prop} (hrefl : ∀ x, R x x) (p : α → Bool) (l : List α) (hl : l.Pairwise R) (x : α)
    (h : l.find? p = some x) : ∀ y ∈ l, p y = true → R x y := by
  induction l with
  | nil => cases h
  | cons a l ih =>
    obtain ⟨ha, hl⟩ := List.pairwise_cons.1 hl
    intro y hy hpy
    cases hpa : p a with
    | true =>
      rw [List.find?_cons_of_pos hpa] at h
      cases h
      rcases List.mem_cons.1 hy with rfl | hy
      · exact hrefl y
      · exact ha y hy
    | false =>
      rw [List.find?_cons_of_neg (by rw [hpa]; exact Bool.false_ne_true)] at h
      rcases List.mem_cons.1 hy with rfl | hy
      · exact absurd (hpa.symm.trans hpy) Bool.false_ne_true
      · exact ih hl h y hy hpy

/-- The edge units of a partition's regions. -/
def Part.edgeUnits (v : Part) : List (Nat × Nat) := (maskRegions v.regions).flatMap fun r => (List.range 16).map fun y => (r, y)

theorem Part.mem_edgeUnits (v : Part) (x : Nat × Nat) : x ∈ v.edgeUnits ↔ x.1 < 192 ∧ v.regions.getLsbD x.1 = true ∧ x.2 < 16 := by
  simp only [Part.edgeUnits, maskRegions, List.mem_flatMap, List.mem_filter, List.mem_range, List.mem_map]
  constructor
  · rintro ⟨r, ⟨hr, hv⟩, y, hy, rfl⟩
    exact ⟨hr, hv, hy⟩
  · rintro ⟨hr, hv, hy⟩
    exact ⟨x.1, ⟨hr, hv⟩, x.2, hy, rfl⟩

theorem Part.edgeUnits_pairwise (v : Part) : v.edgeUnits.Pairwise unitLe := by
  refine List.pairwise_flatMap.2 ⟨fun r _ => ?_, ?_⟩
  · exact List.pairwise_map.2 (List.pairwise_lt_range.imp fun h => .inr ⟨rfl, Nat.le_of_lt h⟩)
  · refine (List.pairwise_lt_range.filter _).imp fun {a b} hab x hx y hy => .inl ?_
    obtain ⟨i, -, rfl⟩ := List.mem_map.1 hx
    obtain ⟨j, -, rfl⟩ := List.mem_map.1 hy
    exact hab

/-- Whether an edge unit may take a window of a partition (R382). -/
def State.mayOwn (s : State) (v : Part) (x : Nat × Nat) : Bool :=
  tileLive ((s.reg x.1).tileState (edgeTile x.2)) && decide ((v.windows.filter fun w => w.owner == some x).length < 4)

/-- The new owner is the least edge unit of the partition's regions that may take the window. -/
theorem State.freeOwner_eq_some_iff (s : State) (v : Part) (x : Nat × Nat) : s.freeOwner v = some x ↔
    (x ∈ v.edgeUnits ∧ s.mayOwn v x = true) ∧ ∀ y, y ∈ v.edgeUnits ∧ s.mayOwn v y = true → unitLe x y := by
  have hfree : s.freeOwner v = v.edgeUnits.find? (s.mayOwn v) := rfl
  have least {z} (hz : v.edgeUnits.find? (s.mayOwn v) = some z) : ∀ y ∈ v.edgeUnits, s.mayOwn v y = true → unitLe z y :=
    find?_le_of_pairwise (fun y => .inr ⟨rfl, Nat.le_refl y.2⟩) _ _ v.edgeUnits_pairwise z hz
  rw [hfree]
  refine ⟨fun h => ⟨⟨List.mem_of_find?_eq_some h, List.find?_some h⟩, fun y hy => least h y hy.1 hy.2⟩, fun ⟨⟨hx, hpx⟩, hle⟩ => ?_⟩
  obtain ⟨z, hz⟩ := Option.isSome_iff_exists.1 (List.find?_isSome.2 ⟨x, hx, hpx⟩)
  have hxz : x = z := unitLe_antisymm (hle z ⟨List.mem_of_find?_eq_some hz, List.find?_some hz⟩) (least hz x hx hpx)
  rw [hz, hxz]

/-! ## A window that is being re-homed (R382) -/

/-- A partition whose window has been given to an owner, or to none. -/
def Part.giveWindow (v : Part) (w : Nat) (win : Window) (o : Option (Nat × Nat)) : Part := { v with windows := v.windows.set w { win with owner := o } }

/-- Whether an operation is held for a window of a partition. -/
def FoldMsg.heldFor (p : Nat) (win : Window) (m : FoldMsg) : Bool :=
  m.part == p && !m.orphan && decide (win.va ≤ m.addr) && decide (m.addr < win.va + 2 ^ win.log2)

/-- The state in which a window has its new owner, or none, and the operations held for it stand as they were. -/
def State.windowGiven (s : State) (p w : Nat) (v : Part) (win : Window) (o : Option (Nat × Nat)) : State :=
  (s.setPart p (v.giveWindow w win o)).modPkg fun k => { k with rehoming := k.rehoming.filter fun x => x != (p, w) }

section

variable {s : State} {p w : Nat} {v : Part} {win : Window} (hv : s.part? p = some v) (hwin : v.windows[w]? = some win)
  (hre : s.pkg.rehoming.contains (p, w) = true)
include hv hwin hre

/-- The operations held for a window follow it to its new owner; without one they are discarded. -/
theorem State.windowRehome_eq : s.windowRehome p w = (s.freeOwner (v.giveWindow w win none)).elim
    ((s.pkg.folds.filter (FoldMsg.heldFor p win)).foldl (fun st m => st.discardFold m { cause := Cause.foldNoWindow })
      ((s.windowGiven p w v win none).modPkg fun k => { k with folds := k.folds.filter fun m => !m.heldFor p win }))
    fun x => (s.windowGiven p w v win (some x)).modPkg fun k =>
      { k with folds := k.folds.map fun m => if m.heldFor p win then { m with owner := x, held := false } else m } := by
  rw [State.windowRehome, hv]
  dsimp only
  rw [hwin]
  dsimp only
  rw [hre, Part.giveWindow]
  cases s.freeOwner { v with windows := v.windows.set w { win with owner := none } } <;> rfl

end

theorem State.part_windowGiven (s : State) (p w : Nat) (v : Part) (win : Window) (o : Option (Nat × Nat)) :
    (s.windowGiven p w v win o).part? p = some (v.giveWindow w win o) := by
  show (s.setPart p (v.giveWindow w win o)).part? p = _
  rw [State.part_setPart, if_pos rfl]

theorem State.exec_windowRehome (s : State) {p w : Nat} (hp : p < 48) : exec (.windowRehome p w) s = .next (s.windowRehome p w) := by
  show execWindowRehome p w s = _
  rw [execWindowRehome, if_pos hp]

/-- What the discards of a list of operations, each with the same cause, leave in a region where a replay is placed: the causes behind those
that were pending, and the slots that its own operations owed empty. -/
theorem State.seq_discards {s : State} {r : Nat} {pl : Placement} (c : Pend) (ms own : List FoldMsg) (hpl : (s.reg r).place = some pl)
    (hown : own = ms.filter fun m => m.sentFrom r pl) (hroom : (s.reg r).seq.pending.length + own.length ≤ 16) :
    ((ms.foldl (fun st m => st.discardFold m c) s).reg r).seq.pending = (s.reg r).seq.pending ++ List.replicate own.length c ∧
      ∀ m ∈ own, m.r = true → (s.reg r).seq.slot (BitVec.ofNat 4 m.slot) = .owed →
        ((ms.foldl (fun st m => st.discardFold m c) s).reg r).seq.slot (BitVec.ofNat 4 m.slot) = .empty := by
  subst hown
  rw [State.seq_foldl_discardFold c ms s hpl hroom]
  exact ⟨Seq.foldl_discarded_pending c _ _, fun m hm hr howed => Seq.slot_foldl_discarded c m hr _ hm _ howed⟩

/-- The operations of a list that meet a test and come from a region's own replay. -/
theorem filter_filter_sentFrom (mine : FoldMsg → Bool) (l : List FoldMsg) (r : Nat) (pl : Placement) :
    l.filter (fun m => mine m && m.issuer == r && m.part == pl.part && m.replay == pl.replay) = (l.filter mine).filter fun m => m.sentFrom r pl := by
  rw [List.filter_filter]
  refine List.filter_congr fun m _ => ?_
  rw [FoldMsg.sentFrom, Bool.and_comm _ (mine m), Bool.and_assoc, Bool.and_assoc, Bool.and_assoc]

/-- R382, R186: WINDOW_REHOME. -/
theorem windowRehomed : Claims.WindowRehomed := by
  intro s p w v win hp hv hwin hre free mine
  have hfree (x : Nat × Nat) : free x ↔ x ∈ (v.giveWindow w win none).edgeUnits ∧ s.mayOwn (v.giveWindow w win none) x = true := by
    rw [Part.mem_edgeUnits, State.mayOwn, Bool.and_eq_true, decide_eq_true_iff, and_assoc, and_assoc]; rfl
  have hleast (x : Nat × Nat) : s.freeOwner (v.giveWindow w win none) = some x ↔ free x ∧ ∀ y, free y → unitLe x y := by
    simp only [hfree, State.freeOwner_eq_some_iff]
  have hexec := s.exec_windowRehome (w := w) hp
  cases ho : s.freeOwner (v.giveWindow w win none) with
  | some x =>
    rw [State.windowRehome_eq hv hwin hre, ho, Option.elim_some] at hexec
    refine ⟨_, v.giveWindow w win (some x), some x, fun y => by rw [← ho]; exact hleast y, hexec, rfl, s.part_windowGiven .., rfl, fun y hy => ?_,
      fun h => absurd h (Option.some_ne_none x), fun _ => rfl⟩
    cases hy; rfl
  | none =>
    rw [State.windowRehome_eq hv hwin hre, ho, Option.elim_none] at hexec
    set s1 := (s.windowGiven p w v win none).modPkg fun k => { k with folds := k.folds.filter fun m => !m.heldFor p win }
    have htold := State.Told.foldl (fun st m => st.discardFold m { cause := Cause.foldNoWindow }) (fun st m => st.discardFold_told m _)
      (s.pkg.folds.filter (FoldMsg.heldFor p win)) s1
    obtain ⟨u, hu, huw⟩ := htold.part_some (s.part_windowGiven p w v win none)
    refine ⟨_, u, none, fun y => by rw [← ho]; exact hleast y, hexec, ?_, hu, huw, fun y hy => absurd hy.symm (Option.some_ne_none y),
      fun _ => ⟨?_, ?_⟩, fun y => ?_⟩
    · rw [htold.pkg]; rfl
    · rw [htold.pkg]; rfl
    · intro r pl hpl own hroom
      exact State.seq_discards (s := s1) { cause := Cause.foldNoWindow } _ own hpl (filter_filter_sentFrom mine _ r pl) hroom
    · rw [htold.mem]; rfl

/-- Settles O43: each turn of an owner is one change of memory and the network with its news to the issuer, or that news alone. -/
theorem foldsAtOwner : Obligations.FoldsAtOwner := ⟨foldApplied, foldHolds, foldWithoutOwner, foldReturned, orphanReturned, windowRehomed⟩

end Sys2Proof.Machine

/-!
The words of chapter 04: the fields of a word, and for each layout the fields that its words hold (R92, R95).
-/
namespace Sys2Proof

/-! ## Fields -/

theorem fieldN_lt {w : Nat} (x : BitVec w) (lo n : Nat) : fieldN x lo n < 2 ^ n := Nat.mod_lt _ (by positivity)

@[simp] theorem toNat_field {w : Nat} (x : BitVec w) (lo n : Nat) : (field x lo n).toNat = fieldN x lo n := BitVec.toNat_ofNat ..

@[simp] theorem ofNat_fieldN {w : Nat} (x : BitVec w) (lo n : Nat) : BitVec.ofNat n (fieldN x lo n) = field x lo n := by
  rw [← toNat_field, BitVec.ofNat_toNat, BitVec.setWidth_eq]

theorem field_of_fieldN {w lo n v : Nat} {x : BitVec w} (h : fieldN x lo n = v) : field x lo n = BitVec.ofNat n v := by
  rw [← h, ofNat_fieldN]

theorem fieldN_of_field {w lo n v : Nat} {x : BitVec w} (h : field x lo n = BitVec.ofNat n v) : fieldN x lo n = v % 2 ^ n := by
  rw [← toNat_field, h, BitVec.toNat_ofNat]

/-- A field is made of the fields of its lower and its upper bits. -/
theorem fieldN_add {w : Nat} (x : BitVec w) (lo m n : Nat) : fieldN x lo (m + n) = fieldN x lo m + 2 ^ m * fieldN x (lo + m) n := by
  simp only [fieldN, pow_add, Nat.mod_mul, Nat.div_div_eq_div_mul]

theorem fieldN_add_eq_zero {w : Nat} (x : BitVec w) (lo m n : Nat) : fieldN x lo (m + n) = 0 ↔ fieldN x lo m = 0 ∧ fieldN x (lo + m) n = 0 := by
  simp [fieldN_add]

theorem fieldN_add_eq {w : Nat} (x : BitVec w) (lo m n v u : Nat) :
    fieldN x lo (m + n) = v % 2 ^ m + 2 ^ m * u ↔ fieldN x lo m = v % 2 ^ m ∧ fieldN x (lo + m) n = u := by
  have hx := fieldN_lt x lo m
  have hv : v % 2 ^ m < 2 ^ m := Nat.mod_lt _ (by positivity)
  rw [fieldN_add]
  refine ⟨fun h => ?_, fun ⟨hlow, hhigh⟩ => by rw [hlow, hhigh]⟩
  have hlow := congrArg (· % 2 ^ m) h
  simp only [Nat.add_mul_mod_self_left, Nat.mod_eq_of_lt hx, Nat.mod_mod] at hlow
  rw [hlow] at h
  exact ⟨hlow, Nat.eq_of_mul_eq_mul_left (by positivity) (Nat.add_left_cancel h)⟩

/-- A field holds a number exactly when its lower and its upper bits hold the parts of the number. -/
theorem field_add_eq_ofNat {w : Nat} (x : BitVec w) (lo m n v : Nat) :
    field x lo (m + n) = BitVec.ofNat (m + n) v ↔ field x lo m = BitVec.ofNat m v ∧ field x (lo + m) n = BitVec.ofNat n (v / 2 ^ m) := by
  simp only [← BitVec.toNat_inj, toNat_field, BitVec.toNat_ofNat, pow_add, Nat.mod_mul, fieldN_add_eq]

/-- A wide field holds a narrow value exactly when its lower bits do and its upper bits are zero. -/
theorem field_eq_setWidth {w : Nat} (x : BitVec w) (lo : Nat) {m : Nat} (n : Nat) (y : BitVec m) :
    field x lo (m + n) = y.setWidth (m + n) ↔ field x lo m = y ∧ field x (lo + m) n = 0#n := by
  rw [← BitVec.ofNat_toNat, field_add_eq_ofNat, BitVec.ofNat_toNat, BitVec.setWidth_eq, Nat.div_eq_of_lt y.isLt]

/-! ## Packed words -/

/-- The fields of a word from bit `lo` up hold the listed numbers. -/
def Holds (w : IWord) : Nat → List (Nat × Nat) → Prop
  | _, [] => True
  | lo, (n, v) :: fs => field w lo n = BitVec.ofNat n v ∧ Holds w (lo + n) fs

theorem holds_iff (w : IWord) (fs : List (Nat × Nat)) (lo : Nat) :
    Holds w lo fs ↔ fieldN w lo (fs.map Prod.fst).sum = packNat fs := by
  induction fs generalizing lo with
  | nil => simp [Holds, packNat, fieldN, Nat.mod_one]
  | cons f fs ih =>
    obtain ⟨n, v⟩ := f
    rw [Holds, ih, List.map_cons, List.sum_cons, packNat, fieldN_add_eq, ← BitVec.toNat_inj, toNat_field, BitVec.toNat_ofNat]

theorem packNat_lt (fs : List (Nat × Nat)) : packNat fs < 2 ^ (fs.map Prod.fst).sum := by
  induction fs with
  | nil => simp [packNat]
  | cons f fs ih =>
    obtain ⟨n, v⟩ := f
    have hv : v % 2 ^ n < 2 ^ n := Nat.mod_lt _ (by positivity)
    rw [packNat, List.map_cons, List.sum_cons, pow_add]
    calc v % 2 ^ n + 2 ^ n * packNat fs < 2 ^ n * (packNat fs + 1) := by rw [Nat.mul_succ]; omega
      _ ≤ 2 ^ n * 2 ^ (fs.map Prod.fst).sum := Nat.mul_le_mul_left _ ih

/-- A word is the one that fields of 32 bits in all make up exactly when it holds them. -/
theorem packWord_eq_iff (fs : List (Nat × Nat)) (w : IWord) (h : (fs.map Prod.fst).sum = 32) : packWord fs = w ↔ Holds w 0 fs := by
  have hlt := packNat_lt fs
  rw [h] at hlt
  rw [holds_iff, h, packWord, ← BitVec.toNat_inj, BitVec.toNat_ofNat, Nat.mod_eq_of_lt hlt, fieldN, pow_zero, Nat.div_one,
    Nat.mod_eq_of_lt w.isLt, eq_comm]

theorem packNat_append_zero (fs : List (Nat × Nat)) (n : Nat) : packNat (fs ++ [(n, 0)]) = packNat fs := by
  induction fs with
  | nil => simp [packNat]
  | cons f fs ih => rw [List.cons_append, packNat, packNat, ih]

/-- The bits above the last field are zero. -/
theorem packWord_append_zero (fs : List (Nat × Nat)) (n : Nat) : packWord fs = packWord (fs ++ [(n, 0)]) := by
  rw [packWord, packWord, packNat_append_zero]

/-! ## The layouts of chapter 04 -/

theorem lead_eq_iff (len major low : Nat) (w : IWord) : lead len major low = w ↔
    field w 0 24 = BitVec.ofNat 24 low ∧ field w 24 6 = BitVec.ofNat 6 major ∧ field w 30 2 = BitVec.ofNat 2 len := by
  simp [lead, packWord_eq_iff, Holds]

theorem r3_eq_iff (major fn d a b k : Nat) (w : IWord) : r3 major fn d a b k = w ↔
    field w 0 3 = BitVec.ofNat 3 k ∧ field w 3 6 = BitVec.ofNat 6 fn ∧ field w 9 5 = BitVec.ofNat 5 b ∧ field w 14 5 = BitVec.ofNat 5 a ∧
      field w 19 5 = BitVec.ofNat 5 d ∧ field w 24 6 = BitVec.ofNat 6 major ∧ field w 30 2 = 0#2 := by
  simp [r3, packWord_eq_iff, Holds]

theorem ri_eq_iff (major d a i : Nat) (w : IWord) : ri major d a i = w ↔
    field w 0 14 = BitVec.ofNat 14 i ∧ field w 14 5 = BitVec.ofNat 5 a ∧ field w 19 5 = BitVec.ofNat 5 d ∧
      field w 24 6 = BitVec.ofNat 6 major ∧ field w 30 2 = 0#2 := by
  simp [ri, packWord_eq_iff, Holds]

theorem memWord_eq_iff (major d a size order scope k : Nat) (w : IWord) : memWord major d a size order scope k = w ↔
    field w 0 3 = BitVec.ofNat 3 k ∧ field w 3 3 = 0#3 ∧ field w 6 3 = BitVec.ofNat 3 scope ∧ field w 9 2 = BitVec.ofNat 2 order ∧
      field w 11 3 = BitVec.ofNat 3 size ∧ field w 14 5 = BitVec.ofNat 5 a ∧ field w 19 5 = BitVec.ofNat 5 d ∧
      field w 24 6 = BitVec.ofNat 6 major ∧ field w 30 2 = 1#2 := by
  simp [memWord, packWord_eq_iff, Holds]

theorem fenceWord_eq_iff (kind scope k : Nat) (w : IWord) : fenceWord kind scope k = w ↔
    field w 0 3 = BitVec.ofNat 3 k ∧ field w 3 3 = 0#3 ∧ field w 6 3 = BitVec.ofNat 3 scope ∧ field w 9 13 = 0#13 ∧
      field w 22 2 = BitVec.ofNat 2 kind ∧ field w 24 6 = 0x1E#6 ∧ field w 30 2 = 0#2 := by
  simp [fenceWord, packWord_eq_iff, Holds]

theorem strmWord_eq_iff (s a b fn nw : Nat) (w : IWord) : strmWord s a b fn nw = w ↔
    field w 0 1 = BitVec.ofNat 1 nw ∧ field w 1 6 = BitVec.ofNat 6 fn ∧ field w 7 5 = BitVec.ofNat 5 b ∧ field w 12 5 = BitVec.ofNat 5 a ∧
      field w 17 7 = BitVec.ofNat 7 s ∧ field w 24 6 = 0x24#6 ∧ field w 30 2 = 1#2 := by
  simp [strmWord, packWord_eq_iff, Holds]

theorem tagLead_eq_iff (t a b fn : Nat) (w : IWord) : tagLead t a b fn = w ↔
    field w 0 2 = 0#2 ∧ field w 2 4 = BitVec.ofNat 4 fn ∧ field w 6 5 = BitVec.ofNat 5 b ∧ field w 11 5 = BitVec.ofNat 5 a ∧
      field w 16 8 = BitVec.ofNat 8 t ∧ field w 24 6 = 0x2C#6 ∧ field w 30 2 = 1#2 := by
  simp [tagLead, packWord_eq_iff, Holds]

theorem tagTail_eq_iff (imm acq rel scope k : Nat) (w : IWord) : tagTail imm acq rel scope k = w ↔
    field w 0 3 = BitVec.ofNat 3 k ∧ field w 3 3 = BitVec.ofNat 3 scope ∧ field w 6 1 = BitVec.ofNat 1 rel ∧
      field w 7 1 = BitVec.ofNat 1 acq ∧ field w 8 8 = 0#8 ∧ field w 16 16 = BitVec.ofNat 16 imm := by
  simp [tagTail, packWord_eq_iff, Holds]

theorem commitWord_eq_iff (fn d n : Nat) (w : IWord) : commitWord fn d n = w ↔
    field w 0 3 = 0#3 ∧ field w 3 6 = BitVec.ofNat 6 fn ∧ field w 9 6 = 0#6 ∧ field w 15 4 = BitVec.ofNat 4 n ∧
      field w 19 5 = BitVec.ofNat 5 d ∧ field w 24 6 = 0x31#6 ∧ field w 30 2 = 0#2 := by
  simp [commitWord, packWord_eq_iff, Holds]

theorem csrWord_eq_iff (op d a c : Nat) (w : IWord) : csrWord op d a c = w ↔
    field w 0 2 = BitVec.ofNat 2 op ∧ field w 2 12 = BitVec.ofNat 12 c ∧ field w 14 5 = BitVec.ofNat 5 a ∧
      field w 19 5 = BitVec.ofNat 5 d ∧ field w 24 6 = 0x3C#6 ∧ field w 30 2 = 0#2 := by
  simp [csrWord, packWord_eq_iff, Holds]

theorem brWord_eq_iff (i n c : Nat) (w : IWord) : packWord [(20, i), (1, n), (3, c), (6, 0x14), (2, 0)] = w ↔
    field w 0 20 = BitVec.ofNat 20 i ∧ field w 20 1 = BitVec.ofNat 1 n ∧ field w 21 3 = BitVec.ofNat 3 c ∧ field w 24 6 = 0x14#6 ∧ field w 30 2 = 0#2 := by
  simp [packWord_eq_iff, Holds]

theorem jalWord_eq_iff (i d : Nat) (w : IWord) : packWord [(19, i), (5, d), (6, 0x16), (2, 0)] = w ↔
    field w 0 19 = BitVec.ofNat 19 i ∧ field w 19 5 = BitVec.ofNat 5 d ∧ field w 24 6 = 0x16#6 ∧ field w 30 2 = 0#2 := by
  simp [packWord_eq_iff, Holds]

theorem copyLead_eq_iff (k scope rel acq n b a major : Nat) (w : IWord) :
    packWord [(3, k), (1, 0), (3, scope), (1, rel), (1, acq), (5, n), (5, b), (5, a), (6, major), (2, 2)] = w ↔
      field w 0 3 = BitVec.ofNat 3 k ∧ field w 3 1 = 0#1 ∧ field w 4 3 = BitVec.ofNat 3 scope ∧ field w 7 1 = BitVec.ofNat 1 rel ∧
        field w 8 1 = BitVec.ofNat 1 acq ∧ field w 9 5 = BitVec.ofNat 5 n ∧ field w 14 5 = BitVec.ofNat 5 b ∧ field w 19 5 = BitVec.ofNat 5 a ∧
        field w 24 6 = BitVec.ofNat 6 major ∧ field w 30 2 = 2#2 := by
  simp [packWord_eq_iff, Holds]

theorem copyTail_eq_iff (region t m : Nat) (w : IWord) : packWord [(11, 0), (8, region), (8, t), (5, m)] = w ↔
    field w 0 11 = 0#11 ∧ field w 11 8 = BitVec.ofNat 8 region ∧ field w 19 8 = BitVec.ofNat 8 t ∧ field w 27 5 = BitVec.ofNat 5 m := by
  simp [packWord_eq_iff, Holds]

theorem foldLead_eq_iff (slot r op c b a : Nat) (w : IWord) :
    packWord [(4, slot), (1, r), (4, op), (5, c), (5, b), (5, a), (6, 0x30), (2, 1)] = w ↔
      field w 0 4 = BitVec.ofNat 4 slot ∧ field w 4 1 = BitVec.ofNat 1 r ∧ field w 5 4 = BitVec.ofNat 4 op ∧ field w 9 5 = BitVec.ofNat 5 c ∧
        field w 14 5 = BitVec.ofNat 5 b ∧ field w 19 5 = BitVec.ofNat 5 a ∧ field w 24 6 = 0x30#6 ∧ field w 30 2 = 1#2 := by
  simp [packWord_eq_iff, Holds]

theorem foldTail_eq_iff (k scope rel acq size off : Nat) (w : IWord) :
    packWord [(3, k), (2, 0), (3, scope), (1, rel), (1, acq), (2, size), (20, off)] = w ↔
      field w 0 3 = BitVec.ofNat 3 k ∧ field w 3 2 = 0#2 ∧ field w 5 3 = BitVec.ofNat 3 scope ∧ field w 8 1 = BitVec.ofNat 1 rel ∧
        field w 9 1 = BitVec.ofNat 1 acq ∧ field w 10 2 = BitVec.ofNat 2 size ∧ field w 12 20 = BitVec.ofNat 20 off := by
  simp [packWord_eq_iff, Holds]

theorem chnLead_eq_iff (k fn b a d : Nat) (w : IWord) : packWord [(3, k), (6, fn), (5, b), (5, a), (5, d), (6, 0x34), (2, 1)] = w ↔
    field w 0 3 = BitVec.ofNat 3 k ∧ field w 3 6 = BitVec.ofNat 6 fn ∧ field w 9 5 = BitVec.ofNat 5 b ∧ field w 14 5 = BitVec.ofNat 5 a ∧
      field w 19 5 = BitVec.ofNat 5 d ∧ field w 24 6 = 0x34#6 ∧ field w 30 2 = 1#2 := by
  simp [packWord_eq_iff, Holds]

theorem launchLead_eq_iff (k nw prio b a d : Nat) (w : IWord) :
    packWord [(3, k), (3, 0), (1, nw), (2, prio), (5, b), (5, a), (5, d), (6, 0x38), (2, 2)] = w ↔
      field w 0 3 = BitVec.ofNat 3 k ∧ field w 3 3 = 0#3 ∧ field w 6 1 = BitVec.ofNat 1 nw ∧ field w 7 2 = BitVec.ofNat 2 prio ∧
        field w 9 5 = BitVec.ofNat 5 b ∧ field w 14 5 = BitVec.ofNat 5 a ∧ field w 19 5 = BitVec.ofNat 5 d ∧ field w 24 6 = 0x38#6 ∧
        field w 30 2 = 2#2 := by
  simp [packWord_eq_iff, Holds]

theorem goTail_eq_iff (acq rel scope : Nat) (w : IWord) : packWord [(1, acq), (1, rel), (3, scope)] = w ↔
    field w 0 1 = BitVec.ofNat 1 acq ∧ field w 1 1 = BitVec.ofNat 1 rel ∧ field w 2 3 = BitVec.ofNat 3 scope ∧ field w 5 27 = 0#27 := by
  rw [packWord_append_zero _ 27]
  simp [packWord_eq_iff, Holds]

theorem bindTail_eq_iff (kind pos idx : Nat) (w : IWord) : packWord [(8, kind), (8, pos), (8, idx)] = w ↔
    field w 0 8 = BitVec.ofNat 8 kind ∧ field w 8 8 = BitVec.ofNat 8 pos ∧ field w 16 8 = BitVec.ofNat 8 idx ∧ field w 24 8 = 0#8 := by
  rw [packWord_append_zero _ 8]
  simp [packWord_eq_iff, Holds]

/-- A word with one field at its bottom. -/
theorem lowWord_eq_iff (n m v : Nat) (w : IWord) (h : n + m = 32) : packWord [(n, v)] = w ↔ field w 0 n = BitVec.ofNat n v ∧ field w n m = 0#m := by
  rw [packWord_append_zero _ m, packWord_eq_iff _ _ (by simpa using h)]
  simp [Holds]

end Sys2Proof

/-!
Decoding what the encoder writes (R92 to R110).
-/
namespace Sys2Proof

/-! ## Lengths -/

theorem lengthCode_eq_none (w : IWord) (h : fieldN w 30 2 = 3) : lengthCode w = none := by
  simp [lengthCode, h]

theorem lengthCode_eq_some (w : IWord) (h : fieldN w 30 2 ≠ 3) : lengthCode w = some (4 * (fieldN w 30 2 + 1)) := by
  have hlt := fieldN_lt w 30 2
  unfold lengthCode
  generalize fieldN w 30 2 = c at h hlt
  interval_cases c <;> trivial

theorem decodeLength_of_none (w : IWord) (h : fieldN w 30 2 ≠ 3) (hm : majorLengths (fieldN w 24 6) = none) :
    decodeLength w = .error .majorIllegal := by
  rw [decodeLength, lengthCode_eq_some w h, hm]

theorem decodeLength_of_some (w : IWord) (ns : List Nat) (h : fieldN w 30 2 ≠ 3) (hm : majorLengths (fieldN w 24 6) = some ns) :
    decodeLength w = if 4 * (fieldN w 30 2 + 1) ∈ ns then .ok (4 * (fieldN w 30 2 + 1)) else .error .lenIllegal := by
  rw [decodeLength, lengthCode_eq_some w h, hm]

/-- The length of a word whose major accepts its length code. -/
theorem decodeLength_accepted {w : IWord} {m c : Nat} (hm : field w 24 6 = BitVec.ofNat 6 m) (hl : field w 30 2 = BitVec.ofNat 2 c)
    (h : c < 3 ∧ 4 * (c + 1) ∈ (majorLengths (m % 64)).getD []) : decodeLength w = .ok (4 * (c + 1)) := by
  obtain ⟨hc, hmem⟩ := h
  have hlen : fieldN w 30 2 = c := (fieldN_of_field hl).trans (Nat.mod_eq_of_lt (by omega))
  cases hns : majorLengths (m % 64) with
  | none => rw [hns] at hmem; cases hmem
  | some ns =>
    rw [hns, Option.getD_some] at hmem
    rw [decodeLength_of_some w ns (by omega) ((congrArg majorLengths (fieldN_of_field hm)).trans hns), hlen, if_pos hmem]

/-! ## Must-be-zero fields -/

theorem mbz_eq_ok (c : Bool) (i j : Instr) : mbz c i = .ok j ↔ c = false ∧ i = j := by
  cases c <;> simp [mbz]

theorem scopeOk_eq_ok (c : Bool) (scope : BitVec 3) (i j : Instr) : scopeOk c scope i = .ok j ↔ c = false ∧ scope ≠ 7#3 ∧ i = j := by
  cases c <;> by_cases h : scope = 7#3 <;> simp [scopeOk, h]

theorem fieldN_eq_zero {w lo n : Nat} {x : BitVec w} : fieldN x lo n = 0 ↔ field x lo n = 0#n := by
  rw [← BitVec.toNat_inj, toNat_field, BitVec.toNat_ofNat, Nat.zero_mod]

/-- Two neighbouring fields are zero when the field of both is. -/
theorem fieldN_add_zero {w : IWord} {lo m n : Nat} (h1 : field w lo m = 0#m) (h2 : field w (lo + m) n = 0#n) : fieldN w lo (m + n) = 0 :=
  (fieldN_add_eq_zero w lo m n).2 ⟨fieldN_eq_zero.2 h1, fieldN_eq_zero.2 h2⟩

/-- The fields under `d` of a word of cmpi and cmpiu: the predicate and the relation (R98). -/
theorem cmpi_fields {w : IWord} (d : BitVec 3) (c : Nat) :
    field w 19 5 = BitVec.ofNat 5 (d.toNat + 8 * c) ↔ field w 19 3 = d ∧ field w 22 2 = BitVec.ofNat 2 c := by
  have hd := d.isLt
  rw [show (8 : Nat) = 2 ^ 3 by rfl]
  refine (field_add_eq_ofNat w 19 3 2 _).trans ?_
  rw [Nat.add_mul_div_left _ _ (by positivity), Nat.div_eq_of_lt hd, zero_add, ← BitVec.toNat_inj, BitVec.toNat_ofNat,
    Nat.add_mul_mod_self_left, Nat.mod_eq_of_lt hd, BitVec.toNat_inj]

/-- The low bits of the lead word of li and addpc in their longer forms (R99). -/
theorem li_fields {w : IWord} (d : BitVec 5) : field w 0 24 = BitVec.ofNat 24 (d.toNat * 2 ^ 19) ↔ field w 0 19 = 0#19 ∧ field w 19 5 = d := by
  refine (field_add_eq_ofNat w 0 19 5 _).trans ?_
  rw [Nat.mul_div_cancel _ (by positivity), BitVec.ofNat_toNat, BitVec.setWidth_eq, ← BitVec.toNat_inj, ← BitVec.toNat_inj (y := 0#19),
    BitVec.toNat_ofNat, Nat.mul_mod_left, BitVec.toNat_ofNat, Nat.zero_mod]

theorem flagScopeLegal_iff (acq rel : BitVec 1) (scope : BitVec 3) :
    flagScopeLegal acq rel scope = true ↔ (acq = 0#1 → rel = 0#1 → scope = 0#3) ∧ scope ≠ 7#3 := by
  unfold flagScopeLegal
  grind

/-- A 64-bit value is made of its two words. -/
theorem append_words_eq_iff (x y : IWord) (i : BitVec 64) : y ++ x = i ↔ i.setWidth 32 = x ∧ (i >>> 32).setWidth 32 = y := by
  constructor
  · rintro rfl
    constructor <;> refine BitVec.eq_of_getLsbD_eq fun j hj => ?_ <;> rw [BitVec.getLsbD_setWidth] <;> grind
  · rintro ⟨rfl, rfl⟩
    refine BitVec.eq_of_getLsbD_eq fun j hj => ?_
    rw [BitVec.getLsbD_append]
    grind

/-- What a word of ld decodes to: its sizes, orders and scopes are those of R101, and its reserved field is zero (R93). -/
theorem decodeMem_ld (w w1 : IWord) (i : Instr) : decodeMem false w w1 = .ok i ↔
    field w 3 3 = 0#3 ∧ (field w 11 3 != 7 && memOrderLegal (field w 9 2) 2 (field w 6 3)) = true ∧
      .ld (field w 19 5) (field w 14 5) (field w 11 3) (field w 9 2) (field w 6 3) (field w 0 3) w1 = i := by
  have hsize : (field w 11 3).toNat = 7 ↔ field w 11 3 = 7#3 := BitVec.toNat_inj (y := 7#3)
  unfold decodeMem memOrderLegal
  grind [fieldN_eq_zero]

/-- What a word of st decodes to: its sizes, orders and scopes are those of R101, and its reserved field is zero (R93). -/
theorem decodeMem_st (w w1 : IWord) (i : Instr) : decodeMem true w w1 = .ok i ↔
    field w 3 3 = 0#3 ∧ (decide ((field w 11 3).toNat < 4) && memOrderLegal (field w 9 2) 1 (field w 6 3)) = true ∧
      .st (field w 19 5) (field w 14 5) (field w 11 3) (field w 9 2) (field w 6 3) (field w 0 3) w1 = i := by
  unfold decodeMem memOrderLegal
  grind [fieldN_eq_zero]

/-- What the words of a fold decode to: the form is one of R110, and its reserved field is zero (R93). -/
theorem decodeFold_eq_ok (w w1 : IWord) (i : Instr) : decodeFold w w1 = .ok i ↔ field w1 3 2 = 0#2 ∧
    (decide ((field w 5 4).toNat < 14) && foldSizeLegal (field w 5 4) (field w1 10 2) && !(field w 5 4 == 13 && field w 14 5 != 0) &&
      !(field w 5 4 != 12 && field w 9 5 != 0) && !(field w 4 1 == 0 && field w 0 4 != 0) &&
      flagScopeLegal (field w1 9 1) (field w1 8 1) (field w1 5 3)) = true ∧
    .fold (field w 19 5) (field w 14 5) (field w 9 5) (field w 5 4) (field w 4 1) (field w 0 4) (field w1 12 20) (field w1 10 2)
      (field w1 9 1) (field w1 8 1) (field w1 5 3) (field w1 0 3) = i := by
  unfold decodeFold flagScopeLegal
  grind [fieldN_eq_zero]

/-! ## The words of an instruction are decoded to it -/

/-- An instruction of one word is read back from it. -/
theorem decode_of_encode_one (i : Instr) (w : IWord) (hwf : WellFormed i = true) (hw : encode i = [w]) (w1 w2 : IWord) :
    decodeLength w = .ok 4 ∧ decodeWords 4 w w1 w2 = .ok i := by
  cases i <;> simp only [encode, copyWords, chnWords, List.cons.injEq, reduceCtorEq, and_false, and_true, lead_eq_iff, r3_eq_iff, ri_eq_iff,
    fenceWord_eq_iff, commitWord_eq_iff, csrWord_eq_iff, brWord_eq_iff, jalWord_eq_iff, BitVec.ofNat_toNat, BitVec.setWidth_eq] at hw
  case nop | brk | seqEnd | yield | eret =>
    obtain ⟨rfl, hfn, hb, ha, hd, hm, hl⟩ := hw
    refine ⟨decodeLength_accepted hm hl (by decide), ?_⟩
    rw [decodeWords, fieldN_of_field hm]; change decodeSys w = _; rw [decodeSys, fieldN_of_field hfn]
    exact (mbz_eq_ok _ _ _).2 ⟨by simp [hd, (fieldN_add_zero hb ha : fieldN w 9 10 = 0)], rfl⟩
  case time | whoami =>
    obtain ⟨rfl, hfn, hb, ha, rfl, hm, hl⟩ := hw
    refine ⟨decodeLength_accepted hm hl (by decide), ?_⟩
    rw [decodeWords, fieldN_of_field hm]; change decodeSys w = _; rw [decodeSys, fieldN_of_field hfn]
    exact (mbz_eq_ok _ _ _).2 ⟨by simp [(fieldN_add_zero hb ha : fieldN w 9 10 = 0)], rfl⟩
  case add | sub | mul | mulh | mulhu | div | divu | rem | remu | and | or | xor | andn | shl | shr | sar | rol | min | max | minu | maxu
      | addsat | subsat | sel =>
    obtain ⟨rfl, hfn, rfl, rfl, rfl, hm, hl⟩ := hw
    refine ⟨decodeLength_accepted hm hl (by decide), ?_⟩
    rw [decodeWords, fieldN_of_field hm]; change decodeInt w = _; rw [decodeInt, fieldN_of_field hfn]; rfl
  case clz | ctz | popc | bswap | sextB | sextH | sextW =>
    obtain ⟨rfl, hfn, hb, rfl, rfl, hm, hl⟩ := hw
    refine ⟨decodeLength_accepted hm hl (by decide), ?_⟩
    rw [decodeWords, fieldN_of_field hm]; change decodeInt w = _; rw [decodeInt, fieldN_of_field hfn]
    exact (mbz_eq_ok _ _ _).2 ⟨by simp [hb], rfl⟩
  case addi | andi | ori | xori | jalr =>
    obtain ⟨rfl, rfl, rfl, hm, hl⟩ := hw
    refine ⟨decodeLength_accepted hm hl (by decide), ?_⟩
    rw [decodeWords, fieldN_of_field hm]; rfl
  case shli | shri | sari =>
    obtain ⟨hi, rfl, rfl, hm, hl⟩ := hw
    obtain ⟨rfl, hhi⟩ := (field_eq_setWidth w 0 8 _).1 hi
    refine ⟨decodeLength_accepted hm hl (by decide), ?_⟩
    rw [decodeWords, fieldN_of_field hm]
    exact (mbz_eq_ok _ _ _).2 ⟨by simpa using fieldN_eq_zero.2 hhi, rfl⟩
  case addpc4 =>
    obtain ⟨rfl, ha, rfl, hm, hl⟩ := hw
    refine ⟨decodeLength_accepted hm hl (by decide), ?_⟩
    rw [decodeWords, fieldN_of_field hm]
    exact (mbz_eq_ok _ _ _).2 ⟨by simpa using fieldN_eq_zero.2 ha, rfl⟩
  case cmpEq | cmpNe | cmpLt | cmpLtu | cmpGe | cmpGeu | cmpBit =>
    obtain ⟨rfl, hfn, rfl, rfl, hd, hm, hl⟩ := hw
    obtain ⟨rfl, h22⟩ : _ ∧ field w 22 2 = 0#2 := (field_eq_setWidth w 19 2 _).1 hd
    refine ⟨decodeLength_accepted hm hl (by decide), ?_⟩
    rw [decodeWords, fieldN_of_field hm]; change decodeCmp w = _; rw [decodeCmp, fieldN_of_field hfn]
    exact (mbz_eq_ok _ _ _).2 ⟨by simpa using fieldN_eq_zero.2 h22, rfl⟩
  case cmpiEq | cmpiuLt =>
    obtain ⟨rfl, rfl, hd, hm, hl⟩ := hw
    obtain ⟨rfl, hc⟩ := (field_eq_setWidth w 19 2 _).1 hd
    refine ⟨decodeLength_accepted hm hl (by decide), ?_⟩
    rw [decodeWords, fieldN_of_field hm]
    simp only [decodeCmpi, fieldN_of_field hc]; rfl
  case cmpiNe | cmpiuGe =>
    obtain ⟨rfl, rfl, hd, hm, hl⟩ := hw
    obtain ⟨rfl, hc⟩ := (cmpi_fields _ 1).1 hd
    refine ⟨decodeLength_accepted hm hl (by decide), ?_⟩
    rw [decodeWords, fieldN_of_field hm]
    simp only [decodeCmpi, fieldN_of_field hc]; rfl
  case cmpiLt =>
    obtain ⟨rfl, rfl, hd, hm, hl⟩ := hw
    obtain ⟨rfl, hc⟩ := (cmpi_fields _ 2).1 hd
    refine ⟨decodeLength_accepted hm hl (by decide), ?_⟩
    rw [decodeWords, fieldN_of_field hm]
    simp only [decodeCmpi, fieldN_of_field hc]; rfl
  case cmpiGe =>
    obtain ⟨rfl, rfl, hd, hm, hl⟩ := hw
    obtain ⟨rfl, hc⟩ := (cmpi_fields _ 3).1 hd
    refine ⟨decodeLength_accepted hm hl (by decide), ?_⟩
    rw [decodeWords, fieldN_of_field hm]
    simp only [decodeCmpi, fieldN_of_field hc]; rfl
  case pand | por | pxor | pandn =>
    obtain ⟨rfl, hfn, hb, ha, hd, hm, hl⟩ := hw
    obtain ⟨rfl, h12⟩ : _ ∧ field w 12 2 = 0#2 := (field_eq_setWidth w 9 2 _).1 hb
    obtain ⟨rfl, h17⟩ : _ ∧ field w 17 2 = 0#2 := (field_eq_setWidth w 14 2 _).1 ha
    obtain ⟨rfl, h22⟩ : _ ∧ field w 22 2 = 0#2 := (field_eq_setWidth w 19 2 _).1 hd
    refine ⟨decodeLength_accepted hm hl (by decide), ?_⟩
    rw [decodeWords, fieldN_of_field hm]; change decodePred w = _; rw [decodePred, fieldN_of_field hfn]
    exact (mbz_eq_ok _ _ _).2 ⟨by simp [fieldN_eq_zero, h12, h17, h22], rfl⟩
  case pnot | kmov =>
    obtain ⟨rfl, hfn, hb, ha, hd, hm, hl⟩ := hw
    obtain ⟨rfl, h17⟩ : _ ∧ field w 17 2 = 0#2 := (field_eq_setWidth w 14 2 _).1 ha
    obtain ⟨rfl, h22⟩ : _ ∧ field w 22 2 = 0#2 := (field_eq_setWidth w 19 2 _).1 hd
    refine ⟨decodeLength_accepted hm hl (by decide), ?_⟩
    rw [decodeWords, fieldN_of_field hm]; change decodePred w = _; rw [decodePred, fieldN_of_field hfn]
    exact (mbz_eq_ok _ _ _).2 ⟨by simp [fieldN_eq_zero, hb, h17, h22], rfl⟩
  case kset =>
    obtain ⟨rfl, hfn, hb, rfl, hd, hm, hl⟩ := hw
    obtain ⟨rfl, h22⟩ : _ ∧ field w 22 2 = 0#2 := (field_eq_setWidth w 19 2 _).1 hd
    refine ⟨decodeLength_accepted hm hl (by decide), ?_⟩
    rw [decodeWords, fieldN_of_field hm]; change decodePred w = _; rw [decodePred, fieldN_of_field hfn]
    exact (mbz_eq_ok _ _ _).2 ⟨by simp [fieldN_eq_zero, hb, h22], rfl⟩
  case br =>
    obtain ⟨rfl, rfl, rfl, hm, hl⟩ := hw
    refine ⟨decodeLength_accepted hm hl (by decide), ?_⟩
    rw [decodeWords, fieldN_of_field hm]; rfl
  case jmp =>
    obtain ⟨rfl, hm, hl⟩ := hw
    refine ⟨decodeLength_accepted hm hl (by decide), ?_⟩
    rw [decodeWords, fieldN_of_field hm]; rfl
  case jal =>
    obtain ⟨rfl, rfl, hm, hl⟩ := hw
    refine ⟨decodeLength_accepted hm hl (by decide), ?_⟩
    rw [decodeWords, fieldN_of_field hm]; rfl
  case dbnz =>
    obtain ⟨rfl, rfl, hd, hm, hl⟩ := hw
    refine ⟨decodeLength_accepted hm hl (by decide), ?_⟩
    rw [decodeWords, fieldN_of_field hm]
    exact (mbz_eq_ok _ _ _).2 ⟨by simpa using fieldN_eq_zero.2 hd, rfl⟩
  case fence | fenceAcq | fenceRel | fenceStrm =>
    obtain ⟨rfl, h3, rfl, h9, hkind, hm, hl⟩ := hw
    refine ⟨decodeLength_accepted hm hl (by decide), ?_⟩
    rw [decodeWords, fieldN_of_field hm]; change decodeFence w = _; rw [decodeFence, fieldN_of_field hkind]
    exact (scopeOk_eq_ok _ _ _ _).2 ⟨by simp [fieldN_eq_zero, h3, h9], bne_iff_ne.1 hwf, rfl⟩
  case cfgLoad | cfgUnbind =>
    obtain ⟨rfl, hfn, hb, rfl, hd, hm, hl⟩ := hw
    refine ⟨decodeLength_accepted hm hl (by decide), ?_⟩
    rw [decodeWords, fieldN_of_field hm]; change decodeCfg w = _; rw [decodeCfg, fieldN_of_field hfn]
    exact (mbz_eq_ok _ _ _).2 ⟨by simp [hb, hd], rfl⟩
  case cfgRun | cfgDrain | cfgAbort =>
    obtain ⟨rfl, hfn, hb, ha, hd, hm, hl⟩ := hw
    refine ⟨decodeLength_accepted hm hl (by decide), ?_⟩
    rw [decodeWords, fieldN_of_field hm]; change decodeCfg w = _; rw [decodeCfg, fieldN_of_field hfn]
    exact (mbz_eq_ok _ _ _).2 ⟨by simp [hb, ha, hd], rfl⟩
  case cfgParam =>
    obtain ⟨rfl, hfn, rfl, rfl, hd, hm, hl⟩ := hw
    refine ⟨decodeLength_accepted hm hl (by decide), ?_⟩
    rw [decodeWords, fieldN_of_field hm]; change decodeCfg w = _; rw [decodeCfg, fieldN_of_field hfn]
    exact (mbz_eq_ok _ _ _).2 ⟨by simp [hd], rfl⟩
  case cfgQuery =>
    obtain ⟨rfl, hfn, hb, rfl, rfl, hm, hl⟩ := hw
    refine ⟨decodeLength_accepted hm hl (by decide), ?_⟩
    rw [decodeWords, fieldN_of_field hm]; change decodeCfg w = _; rw [decodeCfg, fieldN_of_field hfn]
    exact (mbz_eq_ok _ _ _).2 ⟨by simp [hb], rfl⟩
  case commit =>
    obtain ⟨h0, hfn, h9, rfl, rfl, hm, hl⟩ := hw
    refine ⟨decodeLength_accepted hm hl (by decide), ?_⟩
    rw [decodeWords, fieldN_of_field hm]; change decodeCommit w = _; rw [decodeCommit, fieldN_of_field hfn]
    exact (mbz_eq_ok _ _ _).2 ⟨by simp [fieldN_eq_zero, h0, h9], rfl⟩
  case landTest =>
    obtain ⟨h0, hfn, h9, rfl, hd, hm, hl⟩ := hw
    obtain ⟨rfl, h22⟩ : _ ∧ field w 22 2 = 0#2 := (field_eq_setWidth w 19 2 _).1 hd
    refine ⟨decodeLength_accepted hm hl (by decide), ?_⟩
    rw [decodeWords, fieldN_of_field hm]; change decodeCommit w = _; rw [decodeCommit, fieldN_of_field hfn]
    exact (mbz_eq_ok _ _ _).2 ⟨by simp [fieldN_eq_zero, h0, h9, h22], rfl⟩
  case csrr =>
    obtain ⟨hop, rfl, ha, rfl, hm, hl⟩ := hw
    refine ⟨decodeLength_accepted hm hl (by decide), ?_⟩
    rw [decodeWords, fieldN_of_field hm]; change decodeCsr w = _; rw [decodeCsr, fieldN_of_field hop]
    exact (mbz_eq_ok _ _ _).2 ⟨by simp [ha], rfl⟩
  case csrw | csrs | csrc =>
    obtain ⟨hop, rfl, rfl, rfl, hm, hl⟩ := hw
    refine ⟨decodeLength_accepted hm hl (by decide), ?_⟩
    rw [decodeWords, fieldN_of_field hm]; change decodeCsr w = _; rw [decodeCsr, fieldN_of_field hop]; rfl
  case trap =>
    obtain ⟨hi, hm, hl⟩ := hw
    obtain ⟨rfl, hhi⟩ := (field_eq_setWidth w 0 10 _).1 hi
    refine ⟨decodeLength_accepted hm hl (by decide), ?_⟩
    rw [decodeWords, fieldN_of_field hm]
    exact (mbz_eq_ok _ _ _).2 ⟨by simpa using fieldN_eq_zero.2 hhi, rfl⟩

/-- An instruction of two words is read back from them. -/
theorem decode_of_encode_two (i : Instr) (w x : IWord) (hwf : WellFormed i = true) (hw : encode i = [w, x]) (w2 : IWord) :
    decodeLength w = .ok 8 ∧ decodeWords 8 w x w2 = .ok i := by
  cases i <;> simp only [encode, copyWords, chnWords, List.cons.injEq, reduceCtorEq, and_false, and_true, lead_eq_iff, memWord_eq_iff,
    strmWord_eq_iff, goTail_eq_iff, bindTail_eq_iff, tagLead_eq_iff, tagTail_eq_iff, foldLead_eq_iff, foldTail_eq_iff, chnLead_eq_iff,
    lowWord_eq_iff 8 24 _ _ rfl, lowWord_eq_iff 12 20 _ _ rfl, BitVec.ofNat_toNat, BitVec.setWidth_eq] at hw
  case li8 | addpc8 =>
    obtain ⟨⟨hd, hm, hl⟩, rfl⟩ := hw
    obtain ⟨h0, rfl⟩ := (li_fields _).1 hd
    refine ⟨decodeLength_accepted hm hl (by decide), ?_⟩
    rw [decodeWords, fieldN_of_field hm]
    exact (mbz_eq_ok _ _ _).2 ⟨by simpa using fieldN_eq_zero.2 h0, rfl⟩
  case ld =>
    obtain ⟨⟨rfl, h3, rfl, rfl, rfl, rfl, rfl, hm, hl⟩, rfl⟩ := hw
    refine ⟨decodeLength_accepted hm hl (by decide), ?_⟩
    rw [decodeWords, fieldN_of_field hm]
    exact (decodeMem_ld w _ _).2 ⟨h3, hwf, rfl⟩
  case st =>
    obtain ⟨⟨rfl, h3, rfl, rfl, rfl, rfl, rfl, hm, hl⟩, rfl⟩ := hw
    refine ⟨decodeLength_accepted hm hl (by decide), ?_⟩
    rw [decodeWords, fieldN_of_field hm]
    exact (decodeMem_st w _ _).2 ⟨h3, hwf, rfl⟩
  case strmOpen =>
    obtain ⟨⟨rfl, hfn, hb, rfl, rfl, hm, hl⟩, rfl⟩ := hw
    refine ⟨decodeLength_accepted hm hl (by decide), ?_⟩
    rw [decodeWords, fieldN_of_field hm]; change decodeStrm w _ = _; rw [decodeStrm, fieldN_of_field hfn]
    exact (mbz_eq_ok _ _ _).2 ⟨by simp [hb], rfl⟩
  case strmSeek =>
    obtain ⟨⟨rfl, hfn, hb, rfl, rfl, hm, hl⟩, rfl⟩ := hw
    refine ⟨decodeLength_accepted hm hl (by decide), ?_⟩
    rw [decodeWords, fieldN_of_field hm]; change decodeStrm w _ = _; rw [decodeStrm, fieldN_of_field hfn]
    exact (mbz_eq_ok _ _ _).2 ⟨by simp [hb], rfl⟩
  case strmGo =>
    obtain ⟨⟨rfl, hfn, hb, ha, rfl, hm, hl⟩, rfl, rfl, rfl, h5⟩ := hw
    refine ⟨decodeLength_accepted hm hl (by decide), ?_⟩
    rw [decodeWords, fieldN_of_field hm]; change decodeStrm w _ = _; rw [decodeStrm, fieldN_of_field hfn]
    exact (scopeOk_eq_ok _ _ _ _).2 ⟨by simp [fieldN_eq_zero, ha, hb, h5], bne_iff_ne.1 hwf, rfl⟩
  case strmBar =>
    obtain ⟨⟨rfl, hfn, rfl, rfl, rfl, hm, hl⟩, rfl⟩ := hw
    refine ⟨decodeLength_accepted hm hl (by decide), ?_⟩
    rw [decodeWords, fieldN_of_field hm]; change decodeStrm w _ = _; rw [decodeStrm, fieldN_of_field hfn]
    exact (mbz_eq_ok _ _ _).2 ⟨by simp, rfl⟩
  case strmClose =>
    obtain ⟨⟨rfl, hfn, hb, ha, rfl, hm, hl⟩, rfl⟩ := hw
    refine ⟨decodeLength_accepted hm hl (by decide), ?_⟩
    rw [decodeWords, fieldN_of_field hm]; change decodeStrm w _ = _; rw [decodeStrm, fieldN_of_field hfn]
    exact (mbz_eq_ok _ _ _).2 ⟨by simp [ha, hb], rfl⟩
  case strmPos | strmStat =>
    obtain ⟨⟨hnw, hfn, hb, rfl, rfl, hm, hl⟩, rfl⟩ := hw
    refine ⟨decodeLength_accepted hm hl (by decide), ?_⟩
    rw [decodeWords, fieldN_of_field hm]; change decodeStrm w _ = _; rw [decodeStrm, fieldN_of_field hfn]
    exact (mbz_eq_ok _ _ _).2 ⟨by simp [hb, hnw], rfl⟩
  case strmBind =>
    obtain ⟨⟨rfl, hfn, hb, ha, rfl, hm, hl⟩, rfl, rfl, rfl, hhi⟩ := hw
    refine ⟨decodeLength_accepted hm hl (by decide), ?_⟩
    rw [decodeWords, fieldN_of_field hm]; change decodeStrm w _ = _; rw [decodeStrm, fieldN_of_field hfn]
    exact (mbz_eq_ok _ _ _).2 ⟨by simp [fieldN_eq_zero, ha, hb, hhi], rfl⟩
  case strmFilt =>
    obtain ⟨⟨rfl, hfn, hb, ha, rfl, hm, hl⟩, rfl, hhi⟩ := hw
    refine ⟨decodeLength_accepted hm hl (by decide), ?_⟩
    rw [decodeWords, fieldN_of_field hm]; change decodeStrm w _ = _; rw [decodeStrm, fieldN_of_field hfn]
    exact (mbz_eq_ok _ _ _).2 ⟨by simp [fieldN_eq_zero, ha, hb, hhi], rfl⟩
  case tagBlk | tagUbk | tagWait | tagClr =>
    obtain ⟨⟨h0, hfn, hb, ha, rfl, hm, hl⟩, rfl, hscope, hrel, hacq, h8, himm⟩ := hw
    refine ⟨decodeLength_accepted hm hl (by decide), ?_⟩
    rw [decodeWords, fieldN_of_field hm]; change decodeTag w x = _; rw [decodeTag, fieldN_of_field hfn]
    exact (mbz_eq_ok _ _ _).2 ⟨by simp [fieldN_eq_zero, h0, h8, hscope, hrel, hacq, ha, hb, himm], rfl⟩
  case tagTest =>
    obtain ⟨⟨h0, hfn, hb, ha, rfl, hm, hl⟩, rfl, hscope, hrel, hacq, h8, himm⟩ := hw
    obtain ⟨rfl, h9⟩ : _ ∧ field w 9 2 = 0#2 := (field_eq_setWidth w 6 2 _).1 hb
    refine ⟨decodeLength_accepted hm hl (by decide), ?_⟩
    rw [decodeWords, fieldN_of_field hm]; change decodeTag w x = _; rw [decodeTag, fieldN_of_field hfn]
    exact (mbz_eq_ok _ _ _).2 ⟨by simp [fieldN_eq_zero, h0, h8, hscope, hrel, hacq, ha, h9, himm], rfl⟩
  case tagCnt =>
    obtain ⟨⟨h0, hfn, hb, ha, rfl, hm, hl⟩, rfl, hscope, hrel, hacq, h8, rfl⟩ := hw
    refine ⟨decodeLength_accepted hm hl (by decide), ?_⟩
    rw [decodeWords, fieldN_of_field hm]; change decodeTag w x = _; rw [decodeTag, fieldN_of_field hfn]
    exact (mbz_eq_ok _ _ _).2 ⟨by simp [fieldN_eq_zero, h0, h8, hscope, hrel, hacq, ha, hb], rfl⟩
  case tagBind =>
    obtain ⟨⟨h0, hfn, hb, ha, rfl, hm, hl⟩, rfl, hscope, hrel, hacq, h8, himm⟩ := hw
    obtain ⟨rfl, h20⟩ : _ ∧ field x 20 12 = 0#12 := (field_eq_setWidth x 16 12 _).1 himm
    refine ⟨decodeLength_accepted hm hl (by decide), ?_⟩
    rw [decodeWords, fieldN_of_field hm]; change decodeTag w x = _; rw [decodeTag, fieldN_of_field hfn]
    exact (mbz_eq_ok _ _ _).2 ⟨by simp [fieldN_eq_zero, h0, h8, hscope, hrel, hacq, ha, hb, h20], rfl⟩
  case tagArm =>
    obtain ⟨⟨h0, hfn, rfl, rfl, rfl, hm, hl⟩, rfl, hscope, hrel, hacq, h8, himm⟩ := hw
    refine ⟨decodeLength_accepted hm hl (by decide), ?_⟩
    rw [decodeWords, fieldN_of_field hm]; change decodeTag w x = _; rw [decodeTag, fieldN_of_field hfn]
    exact (mbz_eq_ok _ _ _).2 ⟨by simp [fieldN_eq_zero, h0, h8, hscope, hrel, hacq, himm], rfl⟩
  case tagSig =>
    obtain ⟨⟨h0, hfn, hb, rfl, rfl, hm, hl⟩, rfl, rfl, rfl, rfl, h8, himm⟩ := hw
    obtain ⟨rfl, h17⟩ : _ ∧ field x 17 15 = 0#15 := (field_eq_setWidth x 16 15 _).1 himm
    refine ⟨decodeLength_accepted hm hl (by decide), ?_⟩
    rw [decodeWords, fieldN_of_field hm]; change decodeTag w x = _; rw [decodeTag, fieldN_of_field hfn]
    exact (scopeOk_eq_ok _ _ _ _).2 ⟨by simp [fieldN_eq_zero, h0, h8, hb, h17], bne_iff_ne.1 hwf, rfl⟩
  case fold =>
    obtain ⟨⟨rfl, rfl, rfl, rfl, rfl, rfl, hm, hl⟩, rfl, h3, rfl, rfl, rfl, rfl, rfl⟩ := hw
    refine ⟨decodeLength_accepted hm hl (by decide), ?_⟩
    rw [decodeWords, fieldN_of_field hm]
    exact (decodeFold_eq_ok w x _).2 ⟨h3, hwf, rfl⟩
  case chnOpen | chnClose =>
    obtain ⟨⟨rfl, hfn, hb, ha, hd, hm, hl⟩, rfl, hhi⟩ := hw
    refine ⟨decodeLength_accepted hm hl (by decide), ?_⟩
    rw [decodeWords, fieldN_of_field hm]; change decodeChn w x = _; rw [decodeChn, fieldN_of_field hfn]
    exact (mbz_eq_ok _ _ _).2 ⟨by simp [fieldN_eq_zero, ha, hb, hd, hhi], rfl⟩
  case chnSend =>
    obtain ⟨⟨rfl, hfn, rfl, rfl, hd, hm, hl⟩, rfl, hhi⟩ := hw
    refine ⟨decodeLength_accepted hm hl (by decide), ?_⟩
    rw [decodeWords, fieldN_of_field hm]; change decodeChn w x = _; rw [decodeChn, fieldN_of_field hfn]
    exact (mbz_eq_ok _ _ _).2 ⟨by simp [fieldN_eq_zero, hd, hhi], rfl⟩
  case chnRecv =>
    obtain ⟨⟨rfl, hfn, rfl, rfl, rfl, hm, hl⟩, rfl, hhi⟩ := hw
    refine ⟨decodeLength_accepted hm hl (by decide), ?_⟩
    rw [decodeWords, fieldN_of_field hm]; change decodeChn w x = _; rw [decodeChn, fieldN_of_field hfn]
    exact (mbz_eq_ok _ _ _).2 ⟨by simp [fieldN_eq_zero, hhi], rfl⟩
  case chnStat =>
    obtain ⟨⟨rfl, hfn, hb, ha, rfl, hm, hl⟩, rfl, hhi⟩ := hw
    refine ⟨decodeLength_accepted hm hl (by decide), ?_⟩
    rw [decodeWords, fieldN_of_field hm]; change decodeChn w x = _; rw [decodeChn, fieldN_of_field hfn]
    exact (mbz_eq_ok _ _ _).2 ⟨by simp [fieldN_eq_zero, ha, hb, hhi], rfl⟩

/-- An instruction of three words is read back from them. -/
theorem decode_of_encode_three (i : Instr) (w x y : IWord) (hwf : WellFormed i = true) (hw : encode i = [w, x, y]) :
    decodeLength w = .ok 12 ∧ decodeWords 12 w x y = .ok i := by
  cases i <;> simp only [encode, copyWords, chnWords, List.cons.injEq, reduceCtorEq, and_false, and_true, lead_eq_iff, copyLead_eq_iff,
    copyTail_eq_iff, launchLead_eq_iff, BitVec.ofNat_toNat, BitVec.setWidth_eq] at hw
  case li12 =>
    obtain ⟨⟨hd, hm, hl⟩, rfl, rfl⟩ := hw
    obtain ⟨h0, rfl⟩ := (li_fields _).1 hd
    refine ⟨decodeLength_accepted hm hl (by decide), ?_⟩
    rw [decodeWords, fieldN_of_field hm]
    exact (mbz_eq_ok _ _ _).2 ⟨by simpa using fieldN_eq_zero.2 h0, by rw [(append_words_eq_iff _ _ _).2 ⟨rfl, rfl⟩]⟩
  case push | pull =>
    obtain ⟨⟨rfl, h3, rfl, rfl, rfl, rfl, rfl, rfl, hm, hl⟩, rfl, h0, hregion, rfl, rfl⟩ := hw
    obtain ⟨hflags, h7⟩ := (flagScopeLegal_iff _ _ _).1 hwf
    refine ⟨decodeLength_accepted hm hl (by decide), ?_⟩
    rw [decodeWords, fieldN_of_field hm]
    exact (scopeOk_eq_ok _ _ _ _).2 ⟨by simpa [fieldN_eq_zero, h3, h0, hregion] using hflags, h7, rfl⟩
  case pushn =>
    obtain ⟨⟨rfl, h3, rfl, rfl, rfl, rfl, rfl, rfl, hm, hl⟩, rfl, h0, rfl, rfl, rfl⟩ := hw
    obtain ⟨hflags, h7⟩ := (flagScopeLegal_iff _ _ _).1 hwf
    refine ⟨decodeLength_accepted hm hl (by decide), ?_⟩
    rw [decodeWords, fieldN_of_field hm]
    exact (scopeOk_eq_ok _ _ _ _).2 ⟨by simpa [fieldN_eq_zero, h3, h0] using hflags, h7, rfl⟩
  case launch =>
    obtain ⟨⟨rfl, h3, rfl, rfl, rfl, rfl, rfl, hm, hl⟩, rfl, rfl⟩ := hw
    refine ⟨decodeLength_accepted hm hl (by decide), ?_⟩
    rw [decodeWords, fieldN_of_field hm]
    exact (mbz_eq_ok _ _ _).2 ⟨by simpa using fieldN_eq_zero.2 h3, rfl⟩

/-! ## Words in bytes -/

@[simp] theorem wordBytes_length (ws : List IWord) : (wordBytes ws).length = 4 * ws.length := by
  induction ws with
  | nil => rfl
  | cons w ws ih => rw [wordBytes, List.length_append, toBytes_length, ih, List.length_cons]; omega

theorem wordAt_zero (w : IWord) (bs : List Byte) : wordAt (toBytes 4 w.toNat ++ bs) 0 = some w := by
  have htake : (toBytes 4 w.toNat ++ bs).take 4 = toBytes 4 w.toNat := List.take_left' (toBytes_length 4 _)
  rw [wordAt, Nat.mul_zero, List.drop_zero, htake, toBytes_length, if_pos rfl, ofBytes_toBytes, Nat.mod_eq_of_lt (show w.toNat < 256 ^ 4 from w.isLt),
    BitVec.ofNat_toNat, BitVec.setWidth_eq]

theorem wordAt_succ (bs bs' : List Byte) (k : Nat) (h : bs.length = 4) : wordAt (bs ++ bs') (k + 1) = wordAt bs' k := by
  rw [wordAt, wordAt, Nat.mul_succ, Nat.add_comm, ← List.drop_drop, List.drop_left' h]

/-- The bytes of words hold these words. -/
theorem wordAt_wordBytes (ws : List IWord) (bs : List Byte) (k : Nat) (h : k < ws.length) : wordAt (wordBytes ws ++ bs) k = some ws[k] := by
  induction ws generalizing k with
  | nil => cases h
  | cons w ws ih =>
    rw [wordBytes, List.append_assoc]
    cases k with
    | zero => exact wordAt_zero w _
    | succ k => rw [wordAt_succ _ _ _ (toBytes_length 4 _), ih k (Nat.lt_of_succ_lt_succ h)]; rfl

theorem encode_length_le (i : Instr) : (encode i).length ≤ 3 := by
  cases i <;> exact Nat.le_of_ble_eq_true rfl

/-- A word past those that the bytes begin with may be any. -/
theorem exists_getD_wordAt (ws : List IWord) (bs : List Byte) (k : Nat) : ∃ v, (wordAt (wordBytes ws ++ bs) k).getD 0 = ws.getD k v := by
  by_cases h : k < ws.length
  · exact ⟨0, by rw [wordAt_wordBytes ws bs k h, Option.getD_some, List.getD_eq_getElem _ _ h]⟩
  · exact ⟨_, by rw [List.getD_eq_default _ _ (Nat.le_of_not_lt h)]⟩

/-- The decoder takes the words whose number the lead word names, and leaves the bytes after them (R92, R93). -/
theorem decode_wordBytes {w : IWord} {ws : List IWord} {i : Instr} (hn : decodeLength w = .ok (4 * (ws.length + 1)))
    (hi : ∀ w1 w2, decodeWords (4 * (ws.length + 1)) w (ws.getD 0 w1) (ws.getD 1 w2) = .ok i) (bs : List Byte) :
    decode (wordBytes (w :: ws) ++ bs) = .ok (i, bs) := by
  have hw := wordAt_wordBytes (w :: ws) bs 0 (Nat.zero_lt_succ _)
  obtain ⟨w1, h1⟩ := exists_getD_wordAt (w :: ws) bs 1
  obtain ⟨w2, h2⟩ := exists_getD_wordAt (w :: ws) bs 2
  have hlen : (wordBytes (w :: ws)).length = 4 * (ws.length + 1) := wordBytes_length _
  have hle : ¬(wordBytes (w :: ws) ++ bs).length < 4 * (ws.length + 1) := by rw [List.length_append, hlen]; omega
  simp only [decode, hw, List.getElem_cons_zero, hn, hle, if_false, h1, h2, List.getD_cons_succ, hi, List.drop_left' hlen]

theorem decode_of_encode_words (i : Instr) (w : IWord) (ws : List IWord) (hwf : WellFormed i = true) (hw : encode i = w :: ws) (w1 w2 : IWord) :
    decodeLength w = .ok (4 * (ws.length + 1)) ∧ decodeWords (4 * (ws.length + 1)) w (ws.getD 0 w1) (ws.getD 1 w2) = .ok i := by
  have hle := encode_length_le i
  match ws with
  | [] => exact decode_of_encode_one i w hwf hw w1 w2
  | [x] => exact decode_of_encode_two i w x hwf hw w2
  | [x, y] => exact decode_of_encode_three i w x y hwf hw
  | _ :: _ :: _ :: _ => rw [hw] at hle; simp only [List.length_cons] at hle; omega

/-- Settles O1: the fields of each layout give back the operands that were packed into it. -/
theorem decodeOfEncode : Obligations.DecodeOfEncode := by
  intro i rest hwf hne
  obtain ⟨w, ws, hw⟩ := List.exists_cons_of_ne_nil hne
  have h := decode_of_encode_words i w ws hwf hw
  rw [encodeBytes, hw]
  exact decode_wordBytes (h 0 0).1 (fun w1 w2 => (h w1 w2).2) rest

end Sys2Proof

/-!
The example words of the spec, the order of the first decode checks (R93, R96), and the guard of an instruction (R94).
-/
namespace Sys2Proof

theorem specExampleWords : Claims.SpecExampleWords := by
  unfold Claims.SpecExampleWords
  decide

/-- The opcode map of the statements is that of the decoder. -/
theorem majorLengths_of_mem_opcodeMap : ∀ e ∈ Claims.opcodeMap, ∀ m ∈ e.1, majorLengths m = some e.2 := by decide

theorem decodeCheckOrder : Claims.DecodeCheckOrder := by
  intro w
  have hnone : ∀ m ∈ [0x0B, 0x0C, 0x0D, 0x0E, 0x0F, 0x19, 0x1A, 0x1B, 0x1F, 0x21, 0x22, 0x23, 0x25, 0x26, 0x27, 0x2B, 0x2D, 0x2E, 0x2F,
      0x32, 0x33, 0x35, 0x36, 0x37, 0x39, 0x3A, 0x3B, 0x3D, 0x3E], majorLengths m = none := by decide
  refine ⟨fun h => ?_, fun h hm => decodeLength_of_none w h (hnone _ hm), fun e he hm h => ?_⟩
  · rw [decodeLength, lengthCode_eq_none w h]
  · exact decodeLength_of_some w e.2 h (majorLengths_of_mem_opcodeMap e he _ hm)

/-- Settles O3: the words are evaluated, and the checks of R93 are the branches of `decodeLength`. -/
theorem wordsDecode : Obligations.WordsDecode := ⟨specExampleWords, decodeCheckOrder⟩

end Sys2Proof

namespace Sys2Proof.Machine

/-- An instruction whose guard is false only moves past itself (R94). -/
theorem exec_of_guard_false (i : Instr) (s : State) (k : BitVec 3) (n : Nat) (hi : Claims.guardOf i = some (k, n)) (hk : ¬s.seq.kr k = true) :
    exec i s = .next (s.advance n) := by
  cases i <;> cases hi <;> exact if_neg hk

/-- Settles O13: every guarded form begins with the test of its guard. -/
theorem falseGuard : Obligations.FalseGuard := by
  intro i s k n hi hk
  exact ⟨_, exec_of_guard_false i s k n hi (by simp [hk]), State.mod_seqOnly s _⟩

end Sys2Proof.Machine

/-!
What the decoder accepts is what the encoder writes (R92 to R110).
-/
namespace Sys2Proof

/-! ## Accepted words -/

/-- A field whose upper bits are zero holds its lower bits. -/
theorem field_of_upper_zero {w : Nat} (x : BitVec w) (lo m n : Nat) (h : field x (lo + m) n = 0#n) :
    field x lo (m + n) = BitVec.ofNat (m + n) (fieldN x lo m) := by
  rw [← toNat_field, BitVec.ofNat_toNat]
  exact (field_eq_setWidth x lo n _).2 ⟨rfl, h⟩

theorem encode_of_decodeSys {w : IWord} {i : Instr} (hm : field w 24 6 = 0x00#6) (hl : field w 30 2 = 0#2)
    (h : decodeSys w = .ok i) : WellFormed i = true ∧ encode i = [w] := by
  have hab := fieldN_add_eq_zero w 9 5 5
  unfold decodeSys at h
  split at h <;> rename_i hfn <;> simp only [mbz_eq_ok, reduceCtorEq, Bool.or_eq_false_iff, bne_eq_false_iff_eq] at h
  all_goals
    obtain ⟨hz, rfl⟩ := h
    refine ⟨rfl, congrArg (fun x => [x]) ((r3_eq_iff ..).2 ?_)⟩
    simp_all [fieldN_eq_zero, field_of_fieldN hfn]

theorem encode_of_decodeInt {w : IWord} {i : Instr} (hm : field w 24 6 = 0x01#6) (hl : field w 30 2 = 0#2)
    (h : decodeInt w = .ok i) : WellFormed i = true ∧ encode i = [w] := by
  unfold decodeInt at h
  split at h <;> rename_i hfn
  case h_22 | h_23 | h_24 | h_25 | h_26 | h_27 | h_28 =>
    obtain ⟨hb, rfl⟩ := (mbz_eq_ok _ _ _).1 h
    refine ⟨rfl, congrArg (fun x => [x]) ((r3_eq_iff ..).2 ?_)⟩
    simp_all [field_of_fieldN hfn]
  case h_32 => cases h
  all_goals
    cases h
    refine ⟨rfl, congrArg (fun x => [x]) ((r3_eq_iff ..).2 ?_)⟩
    simp [hm, hl, field_of_fieldN hfn]

theorem encode_of_decodeImm {w : IWord} {i : Instr} {m : Nat} (hm : fieldN w 24 6 = m) (hmem : 2 ≤ m ∧ m ≤ 8) (hl : field w 30 2 = 0#2)
    (h : decodeImm m w = .ok i) : WellFormed i = true ∧ encode i = [w] := by
  have hi : field w 6 8 = 0#8 → field w 0 14 = BitVec.ofNat 14 (fieldN w 0 6) := field_of_upper_zero w 0 6 8
  unfold decodeImm at h
  split at h
  case h_5 | h_6 =>
    obtain ⟨hz, rfl⟩ := (mbz_eq_ok _ _ _).1 h
    refine ⟨rfl, congrArg (fun x => [x]) ((ri_eq_iff ..).2 ?_)⟩
    simp_all [fieldN_eq_zero, field_of_fieldN hm]
  case h_7 =>
    obtain ⟨hz, rfl⟩ := (mbz_eq_ok _ _ _).1 h
    obtain rfl : m = 8 := by grind
    refine ⟨rfl, congrArg (fun x => [x]) ((ri_eq_iff ..).2 ?_)⟩
    simp_all [fieldN_eq_zero, field_of_fieldN hm]
  all_goals
    cases h
    refine ⟨rfl, congrArg (fun x => [x]) ((ri_eq_iff ..).2 ?_)⟩
    simp [hl, field_of_fieldN hm]

theorem encode_of_decodeLi {w x y : IWord} {i : Instr} {c : Nat} (hm : field w 24 6 = 0x09#6) (hl : field w 30 2 = BitVec.ofNat 2 c)
    (hc : c = 1 ∨ c = 2) (h : decodeLi (4 * (c + 1)) w x y = .ok i) : WellFormed i = true ∧ encode i = [w, x, y].take (c + 1) := by
  have hd := (li_fields (w := w) (field w 19 5)).2
  obtain rfl | rfl := hc
  · obtain ⟨hz, rfl⟩ := (mbz_eq_ok _ _ _).1 h
    refine ⟨rfl, congrArg (fun v => [v, x]) ((lead_eq_iff ..).2 ?_)⟩
    simp_all [fieldN_eq_zero]
  · obtain ⟨hz, rfl⟩ := (mbz_eq_ok _ _ _).1 h
    obtain ⟨hx, hy⟩ := (append_words_eq_iff x y _).1 rfl
    have hlead := (lead_eq_iff 2 9 ((field w 19 5).toNat * 2 ^ 19) w).2 (by simp_all [fieldN_eq_zero])
    refine ⟨rfl, ?_⟩
    change [lead 2 9 _, BitVec.setWidth 32 _, BitVec.setWidth 32 _] = [w, x, y]
    rw [hx, hy, hlead]

theorem encode_of_decodeAddpc {w x : IWord} {i : Instr} {c : Nat} (hm : field w 24 6 = 0x0A#6) (hl : field w 30 2 = BitVec.ofNat 2 c)
    (hc : c = 0 ∨ c = 1) (h : decodeAddpc (4 * (c + 1)) w x = .ok i) : WellFormed i = true ∧ encode i = [w, x].take (c + 1) := by
  have hd := (li_fields (w := w) (field w 19 5)).2
  obtain rfl | rfl := hc
  · obtain ⟨hz, rfl⟩ := (mbz_eq_ok _ _ _).1 h
    refine ⟨rfl, congrArg (fun v => [v]) ((ri_eq_iff ..).2 ?_)⟩
    simp_all [fieldN_eq_zero]
  · obtain ⟨hz, rfl⟩ := (mbz_eq_ok _ _ _).1 h
    refine ⟨rfl, congrArg (fun v => [v, x]) ((lead_eq_iff ..).2 ?_)⟩
    simp_all [fieldN_eq_zero]

theorem encode_of_decodeCmp {w : IWord} {i : Instr} (hm : field w 24 6 = 0x10#6) (hl : field w 30 2 = 0#2)
    (h : decodeCmp w = .ok i) : WellFormed i = true ∧ encode i = [w] := by
  have hd : field w 22 2 = 0#2 → field w 19 5 = BitVec.ofNat 5 (fieldN w 19 3) := field_of_upper_zero w 19 3 2
  unfold decodeCmp at h
  split at h <;> rename_i hfn <;> simp only [mbz_eq_ok, reduceCtorEq, bne_eq_false_iff_eq] at h
  all_goals
    obtain ⟨hz, rfl⟩ := h
    refine ⟨rfl, congrArg (fun x => [x]) ((r3_eq_iff ..).2 ?_)⟩
    simp_all [fieldN_eq_zero, field_of_fieldN hfn]

theorem encode_of_decodeCmpi {w : IWord} {i : Instr} (u : Bool) (hm : field w 24 6 = if u then 0x12#6 else 0x11#6) (hl : field w 30 2 = 0#2)
    (h : decodeCmpi u w = .ok i) : WellFormed i = true ∧ encode i = [w] := by
  have hd : ∀ c, field w 22 2 = BitVec.ofNat 2 c → field w 19 5 = BitVec.ofNat 5 ((field w 19 3).toNat + 8 * c) := fun c hc =>
    (cmpi_fields _ c).2 ⟨rfl, hc⟩
  have hc : fieldN w 22 2 = 0 ∨ fieldN w 22 2 = 1 ∨ fieldN w 22 2 = 2 ∨ fieldN w 22 2 = 3 := by have := fieldN_lt w 22 2; omega
  rcases hc with hc | hc | hc | hc <;> cases u <;> simp only [decodeCmpi, hc, Except.ok.injEq, reduceCtorEq] at h
  all_goals
    subst h
    refine ⟨rfl, congrArg (fun x => [x]) ((ri_eq_iff ..).2 ?_)⟩
    have hd := hd _ (field_of_fieldN hc)
    simp_all

theorem encode_of_decodePred {w : IWord} {i : Instr} (hm : field w 24 6 = 0x13#6) (hl : field w 30 2 = 0#2)
    (h : decodePred w = .ok i) : WellFormed i = true ∧ encode i = [w] := by
  have hd : field w 22 2 = 0#2 → field w 19 5 = BitVec.ofNat 5 (fieldN w 19 3) := field_of_upper_zero w 19 3 2
  have ha : field w 17 2 = 0#2 → field w 14 5 = BitVec.ofNat 5 (fieldN w 14 3) := field_of_upper_zero w 14 3 2
  have hb : field w 12 2 = 0#2 → field w 9 5 = BitVec.ofNat 5 (fieldN w 9 3) := field_of_upper_zero w 9 3 2
  unfold decodePred at h
  split at h <;> rename_i hfn <;> simp only [mbz_eq_ok, reduceCtorEq, Bool.or_eq_false_iff, bne_eq_false_iff_eq] at h
  all_goals
    obtain ⟨hz, rfl⟩ := h
    refine ⟨rfl, congrArg (fun x => [x]) ((r3_eq_iff ..).2 ?_)⟩
    simp_all [fieldN_eq_zero, field_of_fieldN hfn]

theorem encode_of_decodeFence {w : IWord} {i : Instr} (hm : field w 24 6 = 0x1E#6) (hl : field w 30 2 = 0#2)
    (h : decodeFence w = .ok i) : WellFormed i = true ∧ encode i = [w] := by
  have hk : fieldN w 22 2 = 0 ∨ fieldN w 22 2 = 1 ∨ fieldN w 22 2 = 2 ∨ fieldN w 22 2 = 3 := by have := fieldN_lt w 22 2; omega
  rcases hk with hk | hk | hk | hk <;> simp only [decodeFence, hk, scopeOk_eq_ok, Bool.or_eq_false_iff, bne_eq_false_iff_eq] at h
  all_goals
    obtain ⟨hz, h7, rfl⟩ := h
    refine ⟨bne_iff_ne.2 h7, congrArg (fun x => [x]) ((fenceWord_eq_iff ..).2 ?_)⟩
    simp_all [fieldN_eq_zero, field_of_fieldN hk]

theorem encode_of_decodeCfg {w : IWord} {i : Instr} (hm : field w 24 6 = 0x20#6) (hl : field w 30 2 = 0#2)
    (h : decodeCfg w = .ok i) : WellFormed i = true ∧ encode i = [w] := by
  unfold decodeCfg at h
  split at h <;> rename_i hfn <;> simp only [mbz_eq_ok, reduceCtorEq, Bool.or_eq_false_iff, bne_eq_false_iff_eq] at h
  all_goals
    obtain ⟨hz, rfl⟩ := h
    refine ⟨rfl, congrArg (fun x => [x]) ((r3_eq_iff ..).2 ?_)⟩
    simp_all [fieldN_eq_zero, field_of_fieldN hfn]

theorem encode_of_decodeCommit {w : IWord} {i : Instr} (hm : field w 24 6 = 0x31#6) (hl : field w 30 2 = 0#2)
    (h : decodeCommit w = .ok i) : WellFormed i = true ∧ encode i = [w] := by
  have hd : field w 22 2 = 0#2 → field w 19 5 = BitVec.ofNat 5 (fieldN w 19 3) := field_of_upper_zero w 19 3 2
  unfold decodeCommit at h
  split at h <;> rename_i hfn <;> simp only [mbz_eq_ok, reduceCtorEq, Bool.or_eq_false_iff, bne_eq_false_iff_eq] at h
  all_goals
    obtain ⟨hz, rfl⟩ := h
    refine ⟨rfl, congrArg (fun x => [x]) ((commitWord_eq_iff ..).2 ?_)⟩
    simp_all [fieldN_eq_zero, field_of_fieldN hfn]

theorem encode_of_decodeCsr {w : IWord} {i : Instr} (hm : field w 24 6 = 0x3C#6) (hl : field w 30 2 = 0#2)
    (h : decodeCsr w = .ok i) : WellFormed i = true ∧ encode i = [w] := by
  have hop : fieldN w 0 2 = 0 ∨ fieldN w 0 2 = 1 ∨ fieldN w 0 2 = 2 ∨ fieldN w 0 2 = 3 := by have := fieldN_lt w 0 2; omega
  rcases hop with hop | hop | hop | hop <;> simp only [decodeCsr, hop, mbz_eq_ok, bne_eq_false_iff_eq, Except.ok.injEq] at h
  · obtain ⟨hz, rfl⟩ := h
    refine ⟨rfl, congrArg (fun x => [x]) ((csrWord_eq_iff ..).2 ?_)⟩
    simp_all [field_of_fieldN hop]
  all_goals
    subst h
    refine ⟨rfl, congrArg (fun x => [x]) ((csrWord_eq_iff ..).2 ?_)⟩
    simp_all [field_of_fieldN hop]

theorem encode_of_decodeTag {w x : IWord} {i : Instr} (hm : field w 24 6 = 0x2C#6) (hl : field w 30 2 = 1#2)
    (h : decodeTag w x = .ok i) : WellFormed i = true ∧ encode i = [w, x] := by
  have hd : field w 9 2 = 0#2 → field w 6 5 = BitVec.ofNat 5 (fieldN w 6 3) := field_of_upper_zero w 6 3 2
  have hisl : field x 20 12 = 0#12 → field x 16 16 = BitVec.ofNat 16 (fieldN x 16 4) := field_of_upper_zero x 16 4 12
  have hmode : field x 17 15 = 0#15 → field x 16 16 = BitVec.ofNat 16 (fieldN x 16 1) := field_of_upper_zero x 16 1 15
  unfold decodeTag at h
  split at h <;> rename_i hfn <;> simp only [mbz_eq_ok, scopeOk_eq_ok, reduceCtorEq, Bool.or_eq_false_iff, bne_eq_false_iff_eq] at h
  case h_8 =>
    obtain ⟨hz, h7, rfl⟩ := h
    refine ⟨bne_iff_ne.2 h7, congrArg₂ (fun v u => [v, u]) ((tagLead_eq_iff ..).2 ?_) ((tagTail_eq_iff ..).2 ?_)⟩ <;>
      simp_all [fieldN_eq_zero, field_of_fieldN hfn]
  all_goals
    obtain ⟨hz, rfl⟩ := h
    refine ⟨rfl, congrArg₂ (fun v u => [v, u]) ((tagLead_eq_iff ..).2 ?_) ((tagTail_eq_iff ..).2 ?_)⟩ <;>
      simp_all [fieldN_eq_zero, field_of_fieldN hfn]

theorem encode_of_decodeChn {w x : IWord} {i : Instr} (hm : field w 24 6 = 0x34#6) (hl : field w 30 2 = 1#2)
    (h : decodeChn w x = .ok i) : WellFormed i = true ∧ encode i = [w, x] := by
  unfold decodeChn at h
  split at h <;> rename_i hfn <;> simp only [mbz_eq_ok, reduceCtorEq, Bool.or_eq_false_iff, bne_eq_false_iff_eq] at h
  all_goals
    obtain ⟨hz, rfl⟩ := h
    refine ⟨rfl, congrArg₂ (fun v u => [v, u]) ((chnLead_eq_iff ..).2 ?_) ((lowWord_eq_iff 12 20 _ _ rfl).2 ?_)⟩ <;>
      simp_all [fieldN_eq_zero, field_of_fieldN hfn]

theorem encode_of_decodeStrm {w x : IWord} {i : Instr} (hm : field w 24 6 = 0x24#6) (hl : field w 30 2 = 1#2)
    (h : decodeStrm w x = .ok i) : WellFormed i = true ∧ encode i = [w, x] := by
  unfold decodeStrm at h
  split at h <;> rename_i hfn <;> simp only [mbz_eq_ok, scopeOk_eq_ok, reduceCtorEq, Bool.or_eq_false_iff, bne_eq_false_iff_eq] at h
  case h_2 =>
    obtain ⟨hz, h7, rfl⟩ := h
    refine ⟨bne_iff_ne.2 h7, congrArg₂ (fun v u => [v, u]) ((strmWord_eq_iff ..).2 ?_) ((goTail_eq_iff ..).2 ?_)⟩ <;>
      simp_all [fieldN_eq_zero, field_of_fieldN hfn]
  case h_7 =>
    obtain ⟨hz, rfl⟩ := h
    refine ⟨rfl, congrArg₂ (fun v u => [v, u]) ((strmWord_eq_iff ..).2 ?_) ((bindTail_eq_iff ..).2 ?_)⟩ <;>
      simp_all [fieldN_eq_zero, field_of_fieldN hfn]
  case h_8 =>
    obtain ⟨hz, rfl⟩ := h
    refine ⟨rfl, congrArg₂ (fun v u => [v, u]) ((strmWord_eq_iff ..).2 ?_) ((lowWord_eq_iff 8 24 _ _ rfl).2 ?_)⟩ <;>
      simp_all [fieldN_eq_zero, field_of_fieldN hfn]
  case h_1 | h_6 =>
    obtain ⟨hz, rfl⟩ := h
    refine ⟨rfl, congrArg (fun v => [v, x]) ((strmWord_eq_iff ..).2 ?_)⟩
    simp_all [field_of_fieldN hfn]
  all_goals
    obtain ⟨⟨hz, rfl⟩, rfl⟩ := h
    refine ⟨rfl, congrArg (fun v => [v, 0]) ((strmWord_eq_iff ..).2 ?_)⟩
    simp_all [field_of_fieldN hfn]

theorem encode_of_decodeLaunch {w x y : IWord} {i : Instr} (hm : field w 24 6 = 0x38#6) (hl : field w 30 2 = 2#2)
    (h : decodeLaunch w x y = .ok i) : WellFormed i = true ∧ encode i = [w, x, y] := by
  obtain ⟨hz, rfl⟩ := (mbz_eq_ok _ _ _).1 h
  refine ⟨rfl, congrArg (fun v => [v, x, y]) ((launchLead_eq_iff ..).2 ?_)⟩
  simp_all [fieldN_eq_zero]

theorem encode_of_decodeMem {w x : IWord} {i : Instr} (isSt : Bool) (hm : field w 24 6 = if isSt then 0x1D#6 else 0x1C#6)
    (hl : field w 30 2 = 1#2) (h : decodeMem isSt w x = .ok i) : WellFormed i = true ∧ encode i = [w, x] := by
  cases isSt
  · obtain ⟨hz, hwf, rfl⟩ := (decodeMem_ld w x i).1 h
    exact ⟨hwf, congrArg (fun v => [v, x]) ((memWord_eq_iff ..).2 (by simp_all))⟩
  · obtain ⟨hz, hwf, rfl⟩ := (decodeMem_st w x i).1 h
    exact ⟨hwf, congrArg (fun v => [v, x]) ((memWord_eq_iff ..).2 (by simp_all))⟩

theorem encode_of_decodeFold {w x : IWord} {i : Instr} (hm : field w 24 6 = 0x30#6) (hl : field w 30 2 = 1#2)
    (h : decodeFold w x = .ok i) : WellFormed i = true ∧ encode i = [w, x] := by
  obtain ⟨hz, hwf, rfl⟩ := (decodeFold_eq_ok w x i).1 h
  exact ⟨hwf, congrArg₂ (fun v u => [v, u]) ((foldLead_eq_iff ..).2 (by simp_all)) ((foldTail_eq_iff ..).2 (by simp_all))⟩

theorem encode_of_decodeCopy {w x y : IWord} {i : Instr} (m : Nat) (hmem : m = 0x28 ∨ m = 0x29 ∨ m = 0x2A)
    (hm : field w 24 6 = BitVec.ofNat 6 m) (hl : field w 30 2 = 2#2) (h : decodeCopy m w x y = .ok i) :
    WellFormed i = true ∧ encode i = [w, x, y] := by
  rcases hmem with rfl | rfl | rfl
  all_goals
    obtain ⟨hz, h7, rfl⟩ := (scopeOk_eq_ok _ _ _ _).1 h
    simp only [Bool.or_eq_false_iff, bne_eq_false_iff_eq, fieldN_eq_zero] at hz
    refine ⟨(flagScopeLegal_iff _ _ _).2 ⟨by simp_all, h7⟩,
      congrArg₂ (fun v u => [v, x, u]) ((copyLead_eq_iff ..).2 (by simp_all)) ((copyTail_eq_iff ..).2 (by simp_all))⟩

/-- A length that passed the checks is that of the word's length code, and its major accepts it (R93). -/
theorem decodeLength_eq_ok {w : IWord} {n : Nat} (h : decodeLength w = .ok n) :
    fieldN w 30 2 < 3 ∧ n = 4 * (fieldN w 30 2 + 1) ∧ n ∈ (majorLengths (fieldN w 24 6)).getD [] := by
  have hlt := fieldN_lt w 30 2
  by_cases h3 : fieldN w 30 2 = 3
  · rw [decodeLength, lengthCode_eq_none w h3] at h; cases h
  cases hm : majorLengths (fieldN w 24 6) with
  | none => rw [decodeLength_of_none w h3 hm] at h; cases h
  | some ns =>
    rw [decodeLength_of_some w ns h3 hm] at h
    split at h
    case isTrue hmem => cases h; exact ⟨by omega, rfl, hmem⟩
    case isFalse => cases h

/-- The majors beside those of the other groups are those of the immediate forms (R96). -/
theorem majors_of_imm : ∀ m < 64, m ∉ [0x00, 0x01, 0x09, 0x0A, 0x10, 0x11, 0x12, 0x13, 0x14, 0x15, 0x16, 0x17, 0x18, 0x1C, 0x1D, 0x1E, 0x20,
    0x24, 0x28, 0x29, 0x2A, 0x2C, 0x30, 0x31, 0x34, 0x38, 0x3C, 0x3F] → majorLengths m = none ∨ majorLengths m = some [4] ∧ 2 ≤ m ∧ m ≤ 8 := by
  decide

/-- Words that decode are those of the instruction that they decode to. -/
theorem encode_of_decodeWords {w x y : IWord} {i : Instr} {n : Nat} (hn : decodeLength w = .ok n) (h : decodeWords n w x y = .ok i) :
    WellFormed i = true ∧ encode i = [w, x, y].take (n / 4) := by
  obtain ⟨hc, rfl, hmem⟩ := decodeLength_eq_ok hn
  rw [Nat.mul_div_cancel_left _ (by decide)]
  have of_length (c : Nat) (hlen : (majorLengths (fieldN w 24 6)).getD [] = [4 * (c + 1)])
      (henc : field w 30 2 = BitVec.ofNat 2 c → WellFormed i = true ∧ encode i = [w, x, y].take (c + 1)) :
      WellFormed i = true ∧ encode i = [w, x, y].take (fieldN w 30 2 + 1) := by
    obtain rfl : fieldN w 30 2 = c := by rw [hlen, List.mem_singleton] at hmem; omega
    exact henc (field_of_fieldN rfl)
  unfold decodeWords at h
  split at h <;> rename_i hm
  case h_1 => exact of_length 0 (by rw [hm]; rfl) fun hl => encode_of_decodeSys (field_of_fieldN hm) hl h
  case h_2 => exact of_length 0 (by rw [hm]; rfl) fun hl => encode_of_decodeInt (field_of_fieldN hm) hl h
  case h_3 =>
    have hlen : 4 * (fieldN w 30 2 + 1) = 8 ∨ 4 * (fieldN w 30 2 + 1) = 12 := by simpa [hm, majorLengths] using hmem
    have hc : fieldN w 30 2 = 1 ∨ fieldN w 30 2 = 2 := by omega
    exact encode_of_decodeLi (field_of_fieldN hm) (field_of_fieldN rfl) hc h
  case h_4 =>
    have hlen : 4 * (fieldN w 30 2 + 1) = 4 ∨ 4 * (fieldN w 30 2 + 1) = 8 := by simpa [hm, majorLengths] using hmem
    have hc : fieldN w 30 2 = 0 ∨ fieldN w 30 2 = 1 := by omega
    obtain ⟨hwf, henc⟩ := encode_of_decodeAddpc (field_of_fieldN hm) (field_of_fieldN rfl) hc h
    exact ⟨hwf, by rw [henc]; rcases hc with hc | hc <;> rw [hc] <;> rfl⟩
  case h_5 => exact of_length 0 (by rw [hm]; rfl) fun hl => encode_of_decodeCmp (field_of_fieldN hm) hl h
  case h_6 => exact of_length 0 (by rw [hm]; rfl) fun hl => encode_of_decodeCmpi false (field_of_fieldN hm) hl h
  case h_7 => exact of_length 0 (by rw [hm]; rfl) fun hl => encode_of_decodeCmpi true (field_of_fieldN hm) hl h
  case h_8 => exact of_length 0 (by rw [hm]; rfl) fun hl => encode_of_decodePred (field_of_fieldN hm) hl h
  case h_9 =>
    cases h
    refine of_length 0 (by rw [hm]; rfl) fun hl => ⟨rfl, congrArg (fun v => [v]) ((brWord_eq_iff ..).2 ?_)⟩
    simp [hl, field_of_fieldN hm]
  case h_10 =>
    cases h
    refine of_length 0 (by rw [hm]; rfl) fun hl => ⟨rfl, congrArg (fun v => [v]) ((lead_eq_iff ..).2 ?_)⟩
    simp [hl, field_of_fieldN hm]
  case h_11 =>
    cases h
    refine of_length 0 (by rw [hm]; rfl) fun hl => ⟨rfl, congrArg (fun v => [v]) ((jalWord_eq_iff ..).2 ?_)⟩
    simp [hl, field_of_fieldN hm]
  case h_12 =>
    cases h
    refine of_length 0 (by rw [hm]; rfl) fun hl => ⟨rfl, congrArg (fun v => [v]) ((ri_eq_iff ..).2 ?_)⟩
    simp [hl, field_of_fieldN hm]
  case h_13 =>
    obtain ⟨hz, rfl⟩ := (mbz_eq_ok _ _ _).1 h
    rw [bne_eq_false_iff_eq, fieldN_eq_zero] at hz
    refine of_length 0 (by rw [hm]; rfl) fun hl => ⟨rfl, congrArg (fun v => [v]) ((ri_eq_iff ..).2 ?_)⟩
    simp [hl, hz, field_of_fieldN hm]
  case h_14 => exact of_length 1 (by rw [hm]; rfl) fun hl => encode_of_decodeMem false (field_of_fieldN hm) hl h
  case h_15 => exact of_length 1 (by rw [hm]; rfl) fun hl => encode_of_decodeMem true (field_of_fieldN hm) hl h
  case h_16 => exact of_length 0 (by rw [hm]; rfl) fun hl => encode_of_decodeFence (field_of_fieldN hm) hl h
  case h_17 => exact of_length 0 (by rw [hm]; rfl) fun hl => encode_of_decodeCfg (field_of_fieldN hm) hl h
  case h_18 => exact of_length 1 (by rw [hm]; rfl) fun hl => encode_of_decodeStrm (field_of_fieldN hm) hl h
  case h_19 => exact of_length 2 (by rw [hm]; rfl) fun hl => encode_of_decodeCopy 0x28 (by decide) (field_of_fieldN hm) hl h
  case h_20 => exact of_length 2 (by rw [hm]; rfl) fun hl => encode_of_decodeCopy 0x29 (by decide) (field_of_fieldN hm) hl h
  case h_21 => exact of_length 2 (by rw [hm]; rfl) fun hl => encode_of_decodeCopy 0x2A (by decide) (field_of_fieldN hm) hl h
  case h_22 => exact of_length 1 (by rw [hm]; rfl) fun hl => encode_of_decodeTag (field_of_fieldN hm) hl h
  case h_23 => exact of_length 1 (by rw [hm]; rfl) fun hl => encode_of_decodeFold (field_of_fieldN hm) hl h
  case h_24 => exact of_length 0 (by rw [hm]; rfl) fun hl => encode_of_decodeCommit (field_of_fieldN hm) hl h
  case h_25 => exact of_length 1 (by rw [hm]; rfl) fun hl => encode_of_decodeChn (field_of_fieldN hm) hl h
  case h_26 => exact of_length 2 (by rw [hm]; rfl) fun hl => encode_of_decodeLaunch (field_of_fieldN hm) hl h
  case h_27 => exact of_length 0 (by rw [hm]; rfl) fun hl => encode_of_decodeCsr (field_of_fieldN hm) hl h
  case h_28 =>
    obtain ⟨hz, rfl⟩ := (mbz_eq_ok _ _ _).1 h
    rw [bne_eq_false_iff_eq, fieldN_eq_zero] at hz
    have hi : field w 0 24 = BitVec.ofNat 24 (fieldN w 0 14) := field_of_upper_zero w 0 14 10 hz
    refine of_length 0 (by rw [hm]; rfl) fun hl => ⟨rfl, congrArg (fun v => [v]) ((lead_eq_iff ..).2 ?_)⟩
    simp [hl, hi, field_of_fieldN hm]
  case h_29 =>
    have himm := majors_of_imm (fieldN w 24 6) (fieldN_lt w 24 6) (by simp only [List.mem_cons, List.not_mem_nil]; grind)
    obtain hnone | ⟨hfour, hrange⟩ := himm
    · rw [hnone] at hmem; cases hmem
    · exact of_length 0 (by rw [hfour]; rfl) fun hl => encode_of_decodeImm rfl hrange hl h

/-! ## Accepted bytes -/

/-- Bytes are those of the number that they hold (R5). -/
theorem toBytes_ofBytes (bs : List Byte) : toBytes bs.length (ofBytes bs) = bs := by
  induction bs with
  | nil => rfl
  | cons b bs ih =>
    have hb : b.toNat < 256 := b.isLt
    rw [ofBytes, List.length_cons, toBytes, Nat.add_mul_div_left _ _ (by decide), Nat.div_eq_of_lt hb, zero_add, ih]
    congr 1
    exact BitVec.eq_of_toNat_eq (by simp [Nat.mod_eq_of_lt hb])

/-- Where four bytes stand there is a word, and they are its bytes. -/
theorem exists_wordAt (bs : List Byte) (k : Nat) (h : 4 * (k + 1) ≤ bs.length) :
    ∃ w, wordAt bs k = some w ∧ bs.drop (4 * k) = toBytes 4 w.toNat ++ bs.drop (4 * (k + 1)) := by
  have hlen : ((bs.drop (4 * k)).take 4).length = 4 := by rw [List.length_take, List.length_drop]; omega
  have hlt := ofBytes_lt ((bs.drop (4 * k)).take 4)
  have hbytes := toBytes_ofBytes ((bs.drop (4 * k)).take 4)
  rw [hlen] at hlt hbytes
  refine ⟨_, if_pos hlen, ?_⟩
  rw [BitVec.toNat_ofNat, Nat.mod_eq_of_lt (b := 2 ^ 32) hlt, hbytes, Nat.mul_succ, ← List.drop_drop, List.take_append_drop]

/-- Bytes begin with the bytes of the words that they hold. -/
theorem drop_eq_wordBytes_append (ws : List IWord) (bs : List Byte) (j : Nat) (hlen : 4 * (j + ws.length) ≤ bs.length)
    (h : ∀ k (hk : k < ws.length), wordAt bs (j + k) = some ws[k]) :
    bs.drop (4 * j) = wordBytes ws ++ bs.drop (4 * (j + ws.length)) := by
  induction ws generalizing j with
  | nil => rfl
  | cons v ws ih =>
    rw [List.length_cons] at hlen
    obtain ⟨u, hu, hdrop⟩ := exists_wordAt bs j (by omega)
    obtain rfl : u = v := Option.some.inj (hu.symm.trans (h 0 (Nat.zero_lt_succ _)))
    have htail := ih (j + 1) (by omega) fun k hk => by
      rw [Nat.add_assoc, Nat.add_comm 1 k]; exact h (k + 1) (Nat.succ_lt_succ hk)
    rw [hdrop, htail, wordBytes, List.append_assoc, List.length_cons, Nat.add_assoc, Nat.add_comm 1]

/-- The words that the decoder reads are at their places. -/
theorem wordAt_eq_getElem_take {bs : List Byte} {w : IWord} (hw : wordAt bs 0 = some w) {c : Nat} (hc : c < 3) (hlen : 4 * (c + 1) ≤ bs.length) (k : Nat)
    (hk : k < ([w, (wordAt bs 1).getD 0, (wordAt bs 2).getD 0].take (c + 1)).length) :
    wordAt bs k = some ([w, (wordAt bs 1).getD 0, (wordAt bs 2).getD 0].take (c + 1))[k] := by
  rw [List.length_take] at hk
  obtain ⟨u, hu, -⟩ := exists_wordAt bs k (by omega)
  rw [List.getElem_take]
  match k with
  | 0 => exact hw
  | 1 => simp [hu]
  | 2 => simp [hu]
  | k + 3 => simp only [List.length_cons, List.length_nil] at hk; omega

/-- What the decoder does on success: it takes the words that the lead word counts (R92, R93). -/
theorem decode_eq_ok {bs rest : List Byte} {i : Instr} (h : decode bs = .ok (i, rest)) : ∃ w n, wordAt bs 0 = some w ∧ decodeLength w = .ok n ∧
    n ≤ bs.length ∧ decodeWords n w ((wordAt bs 1).getD 0) ((wordAt bs 2).getD 0) = .ok i ∧ rest = bs.drop n := by
  unfold decode at h
  grind

/-- Settles O2: every check that the decoder makes puts one field of the words where the encoder has it. -/
theorem encodeOfDecode : Obligations.EncodeOfDecode := by
  intro bs rest i h
  obtain ⟨w, n, hw, hn, hle, hwords, rfl⟩ := decode_eq_ok h
  obtain ⟨hwf, henc⟩ := encode_of_decodeWords hn hwords
  obtain ⟨hc, rfl, -⟩ := decodeLength_eq_ok hn
  rw [Nat.mul_div_cancel_left _ (by decide)] at henc
  have hlength : (encode i).length = fieldN w 30 2 + 1 := by rw [henc, List.length_take]; simp only [List.length_cons, List.length_nil]; omega
  have hbytes := drop_eq_wordBytes_append (encode i) bs 0 (by omega) fun k hk => by
    simp only [henc, Nat.zero_add] at hk ⊢
    exact wordAt_eq_getElem_take hw hc hle k hk
  refine ⟨hwf, fun h0 => ?_, ?_⟩
  · rw [h0] at hlength; cases hlength
  · rwa [Nat.zero_add, hlength] at hbytes

end Sys2Proof

/-!
O44, the decode fault, the delivery of a queued cause and the end of a yield (R93, R186, R188, R193, R198).
-/
namespace Sys2Proof.Machine

/-! ## What an answered access leaves of memory -/

/-- An access that is answered, with a value or with a fault, has written no memory; only a held one may have, its fault record (R168). -/
def State.AnswersUnwritten {α : Type} (s : State) (y : State × Got α) : Prop := y.2 ≠ .held → y.1.mem = s.mem

namespace State.AnswersUnwritten

theorem of_mem {α : Type} {s : State} {y : State × Got α} (h : y.1.mem = s.mem) : s.AnswersUnwritten y := fun _ => h

theorem of_held {α : Type} {s : State} {y : State × Got α} (h : y.2 = .held) : s.AnswersUnwritten y := fun hne => absurd h hne

theorem ite {α : Type} {s : State} {c : Prop} [Decidable c] {y z : State × Got α} (hy : s.AnswersUnwritten y) (hz : s.AnswersUnwritten z) :
    s.AnswersUnwritten (if c then y else z) := by
  split <;> assumption

/-- The outcome of a step that is passed on. -/
theorem up {s : State} {y : State × Got Nat} (h : s.AnswersUnwritten y) :
    s.AnswersUnwritten (match y with
      | (s1, .fault c a) => ((s1, .fault c a) : State × Got Xlate)
      | (s1, _) => (s1, .held)) := by
  split
  · exact of_mem (h nofun)
  · exact of_held rfl

end State.AnswersUnwritten

theorem State.awaitAnswer_mem (s : State) (w : Who) (f : FaultRec) : (s.awaitAnswer w f).1.mem = s.mem := by
  unfold State.awaitAnswer
  split
  · exact State.modPart_mem ..
  · rfl

theorem State.holdFault_held (s : State) (w : Who) (c : BitVec 9) (l a va gpa : Nat) : (s.holdFault w c l a va gpa).2 = .held := by
  unfold State.holdFault
  split
  · rfl
  · split <;> rfl

theorem State.useXlate_answersUnwritten (s : State) (w : Who) (x : Xlate) (va : Nat) (k : AKind) : s.AnswersUnwritten (s.useXlate w x va k) := by
  have h0 (g : Got Nat) : s.AnswersUnwritten (s, g) := .of_mem rfl
  unfold State.useXlate
  dsimp only
  split
  · exact .of_mem (s.awaitAnswer_mem w _)
  · refine .ite (h0 _) (.ite (h0 _) (.ite (.of_held (s.holdFault_held ..)) (.ite (.of_held rfl) ?_)))
    split
    · exact h0 _
    · refine .ite (.of_held rfl) ?_
      split <;> exact h0 _

theorem State.useCache_mem (s : State) (w : Who) (x : Xlate) : (s.useCache w x).mem = s.mem := by
  rcases s.useCache_cases w x with h | ⟨r, -, h⟩ <;> rw [h]
  rfl

theorem State.xlateFor_answersUnwritten (s : State) (w : Who) (va : Nat) (k : AKind) : s.AnswersUnwritten (s.xlateFor w va k) := by
  unfold State.xlateFor
  split
  · exact .of_mem rfl
  · dsimp only
    split
    · exact .up (.of_mem (s.awaitAnswer_mem w _))
    · exact .of_mem (s.useCache_mem w _)
    · split
      · exact .of_mem rfl
      · exact .up (.of_held (s.holdFault_held ..))
      · exact .ite (.up (.of_held (s.holdFault_held ..))) (.of_held rfl)
      · exact .of_mem (s.useCache_mem w _)

theorem State.reach_answersUnwritten (s : State) (w : Who) (va : Nat) (k : AKind) : s.AnswersUnwritten (s.reach w va k) := by
  unfold State.reach
  split
  · exact .of_mem rfl
  · split
    · refine .ite (.of_mem rfl) ?_
      split <;> exact .of_mem rfl
    · exact .ite (.of_mem rfl) (.of_mem rfl)
    · exact .of_mem rfl
    · exact .of_mem rfl
    · have hx := s.xlateFor_answersUnwritten w va k
      split <;> rename_i s1 _ h <;> rw [h] at hx
      · intro hne
        rw [State.useXlate_answersUnwritten s1 w _ va k hne]
        exact hx nofun
      · exact .of_mem (hx nofun)
      · exact .of_held rfl

/-! ## What a fetch leaves -/

/-- What a fetch of region `r` that is not held leaves: memory, and of the regions all but the caches of `r` (R191, R193). -/
structure State.Fetches (r : Nat) (s t : State) : Prop where
  mem : t.mem = s.mem
  cur : t.cur = s.cur
  seq : (t.reg r).seq = (s.reg r).seq
  other : ∀ x, x ≠ r → t.reg x = s.reg x

namespace State.Fetches

theorem rfl {r : Nat} {s : State} : State.Fetches r s s := ⟨Eq.refl _, Eq.refl _, Eq.refl _, fun _ _ => Eq.refl _⟩

theorem trans {r : Nat} {s t u : State} (h : State.Fetches r s t) (g : State.Fetches r t u) : State.Fetches r s u :=
  ⟨g.mem.trans h.mem, g.cur.trans h.cur, g.seq.trans h.seq, fun x hx => (g.other x hx).trans (h.other x hx)⟩

/-- An access of the sequencer that writes no memory. -/
theorem of_worked {r : Nat} {w : Who} {s t : State} (hw : w.region = some r) (h : State.Worked w s t) (hm : t.mem = s.mem) : State.Fetches r s t :=
  ⟨hm, h.cur, by rw [h.reg], fun x hx => h.other x (by rw [hw]; exact fun e => hx (Option.some.inj e).symm)⟩

theorem modReg {r : Nat} (s : State) (f : Region → Region) (hf : ∀ g, (f g).seq = g.seq) : State.Fetches r s (s.modReg r f) :=
  ⟨Eq.refl _, Eq.refl _, by rw [State.reg_modReg, if_pos (Eq.refl r), hf], fun x hx => by rw [State.reg_modReg, if_neg hx]⟩

end State.Fetches

theorem State.fetches_reach {s s1 : State} {r va : Nat} {g : Got Nat} (h : s.reach (s.seqWho r) va .fetch = (s1, g)) (hne : g ≠ .held) :
    State.Fetches r s s1 :=
  .of_worked (w := s.seqWho r) (by rfl) (by simpa only [h] using s.reach_worked (s.seqWho r) va .fetch)
    (by simpa only [h] using s.reach_answersUnwritten (s.seqWho r) va .fetch (by rw [h]; exact hne))

theorem State.fetches_countBytes (s : State) (r p pa n : Nat) : State.Fetches r s (s.countBytes p pa n) :=
  have h := s.countBytes_readOnly { part := p, region := some r, unit := 255 } p pa n
  .of_worked (w := { part := p, region := some r, unit := 255 }) (by rfl) h.worked h.mem

theorem State.fetches_fetchLine {s s1 : State} {r va : Nat} {g : Got (List Byte)} (h : s.fetchLine r va = (s1, g)) (hne : g ≠ .held) :
    State.Fetches r s s1 := by
  unfold State.fetchLine at h
  split at h
  · cases h; exact .rfl
  · split at h
    next hr => cases h; exact State.fetches_reach hr nofun
    next => cases h; exact absurd rfl hne
    next s2 pa hr =>
      have hreach := State.fetches_reach hr nofun
      split at h
      · cases h; exact hreach
      · cases h
        refine hreach.trans (State.Fetches.trans ?_ (State.fetches_countBytes ..))
        exact .modReg s2 _ fun _ => rfl

theorem State.fetches_fetchWord {s s1 : State} {r : Nat} {va : Word} {g : Got IWord} (h : s.fetchWord r va = (s1, g)) (hne : g ≠ .held) :
    State.Fetches r s s1 := by
  unfold State.fetchWord at h
  dsimp only at h
  split at h
  next hl => cases h; exact State.fetches_fetchLine hl nofun
  next hl => cases h; exact State.fetches_fetchLine hl nofun
  next => cases h; exact absurd rfl hne

theorem State.fetches_fetchWords {r n : Nat} {s s1 : State} {va : Word} {g : Got (List IWord)} (h : s.fetchWords r n va = (s1, g)) (hne : g ≠ .held) :
    State.Fetches r s s1 := by
  induction n generalizing s s1 va g with
  | zero => cases h; exact .rfl
  | succ n ih =>
    unfold State.fetchWords at h
    split at h
    next hw =>
      have hword := State.fetches_fetchWord hw nofun
      split at h
      next hws => cases h; exact hword.trans (ih hws nofun)
      next => exact hword.trans (ih h hne)
    next hw => cases h; exact State.fetches_fetchWord hw nofun
    next => cases h; exact absurd rfl hne

/-- A fetch that is not held. -/
theorem State.fetches_fetch {s s1 : State} {r : Nat} {f : Fetched} (h : s.fetch r = (s1, f)) (hne : f ≠ .held) : State.Fetches r s s1 := by
  unfold State.fetch at h
  dsimp only at h
  split at h
  next hw => cases h; exact State.fetches_fetchWord hw nofun
  next => cases h; exact absurd rfl hne
  next hw =>
    have hword := State.fetches_fetchWord hw nofun
    split at h
    · cases h; exact hword
    · split at h
      next hws => cases h; exact hword.trans (State.fetches_fetchWords hws nofun)
      next => cases h; exact absurd rfl hne
      next hws =>
        have hwords := hword.trans (State.fetches_fetchWords hws nofun)
        split at h <;> cases h <;> exact hwords

/-! ## The obligation -/

theorem rejectCause_eq_rejectCode (e : Reject) : rejectCause e = Claims.rejectCode e := by cases e <;> rfl

/-- A cause that a fetch of the current sequencer meets is delivered as a trap at the instruction (R186). -/
theorem State.Fetches.deliver_traps {s s1 : State} (h : State.Fetches s.cur s s1) (ht : Claims.canTrap s.seq) (c : BitVec 9) (fva finfo : Word) :
    let t := s1.deliver s1.cur c s.seq.pc s.seq.pc fva finfo
    t.seq = Claims.entered s.seq c s.seq.pc s.seq.pc fva finfo ∧ (∀ x, x ≠ s.cur → t.reg x = s.reg x) ∧ (∀ x, t.mem.read x = s.mem.read x) := by
  have hseq : (s1.reg s1.cur).seq = s.seq := by rw [h.cur]; exact h.seq
  intro t
  have heq : t = s1.modSeq s1.cur fun q => q.deliver c s.seq.pc s.seq.pc fva finfo :=
    s1.deliver_entered _ _ _ _ _ _ (by rw [hseq]; exact ht.1) (by rw [hseq]; exact ht.2)
  rw [heq]
  refine ⟨?_, fun x hx => ?_, fun x => by rw [← h.mem]; rfl⟩
  · rw [State.seq]
    refine (s1.seq_modSeq_self s1.cur _).trans ?_
    rw [hseq]; rfl
  · exact ((s1.onlyRegion_modSeq s1.cur _).1 x (by rwa [h.cur])).trans (h.other x hx)

theorem State.exec_decodeFault {s : State} (h : s.cur < 192) : exec .decodeFault s = .next s.decodeFault := if_pos h

theorem decodeFaultTraps : Claims.DecodeFaultTraps := by
  intro s s1 hcur ht
  refine ⟨fun e w h => ?_, fun c a info h => ?_⟩
  · refine ⟨_, (State.exec_decodeFault hcur).trans ?_, (State.fetches_fetch h nofun).deliver_traps ht _ _ _⟩
    rw [State.decodeFault, h, ← rejectCause_eq_rejectCode]
  · refine ⟨_, (State.exec_decodeFault hcur).trans ?_, (State.fetches_fetch h nofun).deliver_traps ht _ _ _⟩
    rw [State.decodeFault, h]

/-- A cause is delivered in normal mode only (R188). -/
theorem State.handler_of_ready_cause {s : State} {r : Nat} (h : s.ready r = .cause) : (s.reg r).seq.handler = false := by
  unfold State.ready at h
  grind

theorem causeDelivered : Claims.CauseDelivered := by
  intro s r c cs hr hready hpend ht
  have hexec : exec (.causeDelivery r) s = .next (s.causeDelivery r) := if_pos hr
  have hhandler := State.handler_of_ready_cause hready
  obtain ⟨g, hdel⟩ : ∃ g : Region, s.causeDelivery r = (s.modReg r fun _ => { g with seq := { (s.reg r).seq with pending := cs } }).deliver r
      c.cause (s.reg r).seq.pc (s.reg r).seq.pc c.fva c.finfo := by
    simp only [State.causeDelivery, hpend, hready, if_true]
    exact ⟨_, rfl⟩
  have hseq (u : Region) : ((s.modReg r fun _ => u).reg r).seq = u.seq := by rw [State.reg_modReg, if_pos rfl]
  rw [State.deliver_entered _ _ _ _ _ _ _ (by rw [hseq]; exact hhandler) (by rw [hseq]; exact ht), State.modSeq, State.modReg_modReg] at hdel
  refine ⟨_, hexec.trans (congrArg _ hdel), ?_, s.onlyRegion_modReg r _⟩
  rw [State.reg_modReg, if_pos rfl]; rfl

theorem yieldTimesOut : Claims.YieldTimesOut := by
  intro s s1 r t0 k hr hrun hwait hcycles hready hfetch
  have hexec : exec (.yieldTimeout r) s = .next (s.yieldTimeout r) := if_pos hr
  have hf := State.fetches_fetch hfetch nofun
  have htimeout : s.yieldTimeout r = s1.modSeq r fun q => { q.advance 4 with wake := false } := by
    simp [State.yieldTimeout, hrun, hwait, yieldCyclesPassed, hcycles, hready, hfetch]
  refine ⟨_, hexec.trans (congrArg _ htimeout), ?_, fun x hx => ?_, fun x => by rw [← hf.mem]; rfl⟩
  · rw [State.seq_modSeq_self, hf.seq]; rfl
  · exact ((s1.onlyRegion_modSeq r _).1 x hx).trans (hf.other x hx)

/-- Settles O44: a fetch that is answered leaves the sequencer and memory alone, so each of the three is one change of the sequencer. -/
theorem faultsDelivered : Obligations.FaultsDelivered := ⟨decodeFaultTraps, causeDelivered, yieldTimesOut⟩

end Sys2Proof.Machine

/-!
O23, strm.open (R171, R297, R299, R313).
-/
namespace Sys2Proof.Machine

/-! ## A command that changes its region and completes -/

/-- What a command leaves that changes its region and moves past itself. -/
structure Commanded (s t : State) (u : Region) (n : Nat) : Prop where
  seq : t.seq = Claims.standsAt s.seq (s.seq.pc + BitVec.ofNat 64 n)
  region : t.reg s.cur = { u with seq := t.seq }
  other : ∀ x, x ≠ s.cur → t.reg x = s.reg x
  mem : t.mem = s.mem
  parts : t.parts = s.parts

theorem State.commanded_advance {s t : State} (n : Nat) (hcur : t.cur = s.cur) (hseq : t.seq = s.seq) (hother : ∀ x, x ≠ s.cur → t.reg x = s.reg x)
    (hmem : t.mem = s.mem) (hparts : t.parts = s.parts) : Commanded s (t.advance n) (t.reg s.cur) n := by
  have hadv : (t.advance n).seq = s.seq.advance n := by rw [State.advance, State.seq_mod, hseq]
  refine ⟨hadv, ?_, fun x hx => (t.reg_mod_other _ x (by rwa [hcur])).trans (hother x hx), hmem, hparts⟩
  rw [hadv, ← hseq, ← hcur]
  exact State.reg_mod_cur _ _

theorem State.commanded_modReg (s : State) (f : Region → Region) (n : Nat) (hf : (f (s.reg s.cur)).seq = s.seq) :
    Commanded s ((s.modReg s.cur f).advance n) (f (s.reg s.cur)) n := by
  have hreg : (s.modReg s.cur f).reg s.cur = f (s.reg s.cur) := by rw [State.reg_modReg, if_pos rfl]
  rw [← hreg]
  exact State.commanded_advance n rfl ((congrArg Region.seq hreg).trans hf) (fun x hx => by rw [State.reg_modReg, if_neg hx]) rfl rfl

/-- A command that has first read. -/
theorem State.ReadOnly.commanded {w : Who} {s s1 t : State} {u : Region} {n : Nat} (h : State.ReadOnly w s s1) (hw : w.region = some s.cur)
    (hc : Commanded s1 t u n) :
    t.seq = Claims.standsAt s.seq (s.seq.pc + BitVec.ofNat 64 n) ∧ t.reg s.cur = { u with seq := t.seq } ∧ (∀ x, x ≠ s.cur → t.reg x = s.reg x) ∧
      t.mem = s.mem := by
  obtain ⟨hseq, hregion, hother, hmem, -⟩ := hc
  rw [h.seq] at hseq
  rw [h.cur] at hregion hother
  exact ⟨hseq, hregion, fun x hx => (hother x hx).trans (h.other x (by rw [hw]; exact fun e => hx (Option.some.inj e).symm)), hmem.trans h.mem⟩

/-! ## The streams of a region -/

theorem spFind_mapKey {α β : Type} (l : Sparse α) (f : Nat → α → β) (n : Nat) :
    spFind (l.map fun e => (e.1, f e.1 e.2)) n = (spFind l n).map (f n) := by
  induction l with
  | nil => rfl
  | cons e l ih =>
    obtain ⟨k, v⟩ := e
    rw [List.map_cons, spFind, spFind, ih]
    split
    · next h => rw [h]; rfl
    · rfl

theorem Region.barred_iff (g : Region) (n : Nat) : g.barred n = true ↔ Claims.heldByBar g n := by
  simp only [Region.barred, Claims.heldByBar, List.any_eq_true, List.mem_range, Bool.and_eq_true, Bool.not_eq_true', Bool.or_eq_false_iff,
    beq_eq_false_iff_ne, and_assoc]

theorem Region.stream_endBars (g : Region) (n : Nat) : g.endBars.stream n = if g.barred n then g.stream n else { g.stream n with bars := [] } := by
  have hmap : g.endBars.streams = g.streams.map fun e => (e.1, if g.barred e.1 then e.2 else { e.2 with bars := [] }) := by
    refine List.map_congr_left fun e _ => ?_
    split <;> rfl
  rw [Region.stream, Region.stream, spGet, spGet, hmap, spFind_mapKey g.streams (fun k v => if g.barred k then v else { v with bars := [] })]
  cases spFind g.streams n <;> simp

/-- What the end of the satisfied holds leaves of a stream (R299). -/
theorem Region.settled_endBars (g : Region) (n : Nat) : Claims.Settled g n (g.endBars.stream n) := by
  rw [Claims.Settled, ← Region.barred_iff, g.stream_endBars]
  exact ⟨fun h => if_pos h, fun h => if_neg h⟩

theorem Region.settled_congr {g g' : Region} (h : g.streams = g'.streams) {n : Nat} {v : Stream} (hv : Claims.Settled g n v) : Claims.Settled g' n v := by
  simpa only [Claims.Settled, Claims.heldByBar, Region.stream, h] using hv

theorem Region.stream_setStream (g : Region) (n m : Nat) (v : Stream) : (g.setStream n v).stream m = if m = n then v else g.stream m := by
  simp only [Region.stream, Region.setStream, spGet, spFind_spInsert]
  split <;> rfl

/-- A stream that is idle is not busy (R283). -/
theorem Region.busy_of_idle {g : Region} {n : Nat} (h : Claims.idleStream g n) : g.busy n = false := by
  obtain ⟨hbind, hstate, huses⟩ := h
  simp only [Region.busy, hbind, Option.isSome_none, Bool.false_or, Bool.or_eq_false_iff, beq_eq_false_iff_ne, List.any_eq_false, Bool.and_eq_true,
    beq_iff_eq, not_and]
  exact ⟨hstate, huses⟩

/-! ## Channel ends -/

/-- The end of a channel is given to a stream, or taken from it (R313). -/
def Region.giveEnd (g : Region) (c : Nat) (x : Option Nat) : Region :=
  { g with chans := g.chans.map fun e => if e.num = c then { e with stream := x } else e }

theorem Region.chan?_giveEnd (g : Region) (c m : Nat) (x : Option Nat) :
    (g.giveEnd c x).chan? m = (g.chan? m).map fun e => if e.num = c then { e with stream := x } else e := by
  rw [Region.chan?, Region.chan?, Region.giveEnd, List.find?_map]
  congr 2
  funext e
  simp only [Function.comp_apply]
  split <;> rfl

/-- The end that has been given to a stream. -/
theorem Region.chan?_giveEnd_self {g : Region} {c : Nat} {e : ChanEnd} (x : Option Nat) (h : g.chan? c = some e) :
    (g.giveEnd c x).chan? c = some { e with stream := x } := by
  have hnum : e.num = c := by simpa using List.find?_some h
  rw [Region.chan?_giveEnd, h, Option.map_some, if_pos hnum]

/-- A closed stream has left the table, and its end, if it had one, is free (R300, R313). -/
theorem Region.closeStream_cases (g : Region) (n : Nat) :
    g.closeStream n = { g with streams := spErase g.streams n } ∨
      ∃ c, g.closeStream n = { g with streams := spErase g.streams n }.giveEnd c none := by
  unfold Region.closeStream
  dsimp only
  split
  · exact .inl rfl
  · exact .inr ⟨_, rfl⟩

theorem Region.closeStream_seq (g : Region) (n : Nat) : (g.closeStream n).seq = g.seq := by
  rcases g.closeStream_cases n with h | ⟨c, h⟩
  · rw [h]
  · rw [h]; rfl

theorem Region.closeStream_bank (g : Region) (n : Nat) (b : Bool) : (g.closeStream n).bank b = g.bank b := by
  rcases g.closeStream_cases n with h | ⟨c, h⟩
  · rw [h]; rfl
  · rw [h]; rfl

theorem Region.closeStream_streams (g : Region) (n : Nat) : (g.closeStream n).streams = spErase g.streams n := by
  rcases g.closeStream_cases n with h | ⟨c, h⟩
  · rw [h]
  · rw [h]; rfl

/-- The ends of a region keep what they hold but for the stream when a stream is closed. -/
theorem Region.chan?_closeStream {g : Region} {m : Nat} {e : ChanEnd} (n : Nat) (h : g.chan? m = some e) :
    ∃ x, (g.closeStream n).chan? m = some { e with stream := x } := by
  rcases g.closeStream_cases n with hc | ⟨c, hc⟩ <;> rw [hc]
  · exact ⟨_, h⟩
  · have hopen : { g with streams := spErase g.streams n }.chan? m = some e := h
    rw [Region.chan?_giveEnd, hopen, Option.map_some]
    split <;> exact ⟨_, rfl⟩

/-! ## The stream that strm.open latches -/

/-- The channel word of the cursor at strm.open: in a channel mode the end's next slot, otherwise 0 (R297, R313). -/
def OpensAt (g : Region) (d : Desc) (own : Nat) : Prop :=
  (d.mode ≠ 6 ∧ d.mode ≠ 7 ∧ own = 0) ∨ ((d.mode = 6 ∨ d.mode = 7) ∧ ∃ e, g.chan? (d.base % 2 ^ 12) = some e ∧ e.own = own)

/-- What strm.open makes of its region. -/
structure Opened (g u : Region) (n : Nat) (d : Desc) (own : Nat) : Prop where
  state : (u.stream n).state = 1
  desc : (u.stream n).desc = d
  cursor : (u.stream n).cur = { pos := 0, lfsr := d.seed, chan := own }
  other : ∀ m, m ≠ n → u.stream m = (g.closeStream n).endBars.stream m
  chan : d.mode = 6 ∨ d.mode = 7 → ∃ e, u.chan? (d.base % 2 ^ 12) = some e ∧ e.stream = some n
  bank : ∀ b, u.bank b = g.bank b
  seq : u.seq = g.seq

theorem opened_setStream {g x : Region} {n own : Nat} {d : Desc} {v : Stream} (hx : ∀ m, x.stream m = (g.closeStream n).endBars.stream m)
    (hstate : v.state = 1) (hdesc : v.desc = d) (hcur : v.cur = { pos := 0, lfsr := d.seed, chan := own })
    (hchan : d.mode = 6 ∨ d.mode = 7 → ∃ e, x.chan? (d.base % 2 ^ 12) = some e ∧ e.stream = some n)
    (hbank : ∀ b, x.bank b = (g.closeStream n).bank b) (hseq : x.seq = (g.closeStream n).seq) : Opened g (x.setStream n v) n d own where
  state := by rw [Region.stream_setStream, if_pos rfl, hstate]
  desc := by rw [Region.stream_setStream, if_pos rfl, hdesc]
  cursor := by rw [Region.stream_setStream, if_pos rfl, hcur]
  other m hm := by rw [Region.stream_setStream, if_neg hm, hx]
  chan := hchan
  bank b := (hbank b).trans (g.closeStream_bank n b)
  seq := hseq.trans (g.closeStream_seq n)

theorem State.openStream_opened (s : State) (n : Nat) (d : Desc) (own : Nat) (h : OpensAt (s.reg s.cur) d own) :
    Opened (s.reg s.cur) ((s.openStream n d).reg s.cur) n d own := by
  rw [State.openStream, State.reg_modReg, if_pos rfl]
  obtain ⟨h6, h7, rfl⟩ | ⟨hmode, e, he, rfl⟩ := h
  · have hmode : ¬(d.mode = 6 ∨ d.mode = 7) := not_or.2 ⟨h6, h7⟩
    simp only [hmode, if_false]
    exact opened_setStream (fun _ => rfl) rfl rfl rfl (fun h => absurd h hmode) (fun _ => rfl) rfl
  · obtain ⟨x, hx⟩ := Region.chan?_closeStream n he
    have hgive := Region.chan?_giveEnd_self (g := ((s.reg s.cur).closeStream n).endBars) (some n) hx
    simp only [hmode, if_true]
    refine opened_setStream (x := Region.giveEnd _ _ _) (fun _ => rfl) rfl rfl ?_ (fun _ => ⟨_, hgive, rfl⟩) (fun _ => rfl) rfl
    rw [Region.giveEnd] at hgive
    simp only [Option.bind_some, hgive]

/-! ## The obligation -/

theorem State.ReadOnly.replayOf {w : Who} {s t : State} (h : State.ReadOnly w s t) (r : Nat) : t.replayOf r = s.replayOf r := by
  have hplace : (t.reg r).place = (s.reg r).place := by rw [h.reg]
  rw [State.replayOf, State.replayOf, hplace]
  split
  · rfl
  · next p _ =>
    obtain ⟨m, hm⟩ := h.part p.part
    rw [hm]
    cases s.part? p.part <;> rfl

/-- The channel modes pass their checks with the right end of the channel open (R313). -/
theorem State.chanModeFault_eq_none {s : State} {d : Desc}
    (h : d.mode = 6 ∨ d.mode = 7 → ∃ y e, d.base < 4096 ∧ s.replayOf s.cur = some y ∧ d.base < y.chcount ∧ (s.reg s.cur).chan? d.base = some e ∧
      e.producer = (d.mode == 7)) : s.chanModeFault d = none := by
  unfold State.chanModeFault
  split
  case isFalse => rfl
  case isTrue hmode =>
    obtain ⟨y, e, hbase, hy, hcount, he, hprod⟩ := h hmode
    simp [hy, he, hprod, Nat.mod_eq_of_lt hbase, Nat.div_eq_of_lt hbase, hcount]

/-- What strm.open does with a legal descriptor (R297). -/
theorem State.exec_strmOpen {s s1 : State} {n : BitVec 7} {a : BitVec 5} {nw : BitVec 1} {off : BitVec 32} {va : Nat} {bs : List Byte}
    (hidle : Claims.idleStream (s.reg s.cur) n.toNat) (hva : Claims.Sum (s.seq.gr a) off.toInt va) (hal : va % 64 = 0)
    (hread : s.readVA { s.seqWho s.cur with unit := 0xFB } va 64 = (s1, .ok bs)) (hdesc : descIllegal bs (parseDesc va bs) = false)
    (htrip : ∀ x ∈ (parseDesc va bs).trip, x ≠ 0) (hmode : descModeIllegal (parseDesc va bs) = false)
    (hchan : s1.chanModeFault (parseDesc va bs) = none) :
    exec (.strmOpen n a nw off) s = .next ((s1.openStream n.toNat (parseDesc va bs)).advance 8) := by
  have haddr : s.seq.addr32 a off = va := exactSum_eq_of_sum _ _ _ hva
  have htrip0 : (parseDesc va bs).trip.any (fun t => t == 0) = false := by simpa using htrip
  change execStrmOpen n a nw off s = _
  simp [execStrmOpen, State.strmBusy, Region.busy_of_idle hidle, haddr, aligned, hal, hread, hdesc, htrip0, hmode, hchan]

/-- Settles O23: the stream is latched in a region that the read of the descriptor has left as it was but for its translations. -/
theorem strmOpenCompletes : Obligations.StrmOpenCompletes := by
  intro s s1 n a nw off va bs r d opens hidle hva hal hread hdesc htrip hmode
  have hro := s.readVA_readOnly _ _ _ _ _ hread
  have hreg : s1.reg s1.cur = { r with tlb := (s1.reg s1.cur).tlb } := by rw [hro.cur]; exact hro.reg s.cur
  have completes (own : Nat) (hown : OpensAt r d own) (hchan : s1.chanModeFault d = none) (hbase : d.mode = 6 ∨ d.mode = 7 → d.base < 4096) :
      opens own := by
    have hopen := s1.openStream_opened n.toNat d own (by rw [hreg]; exact hown)
    have hcommand : Commanded s1 ((s1.openStream n.toNat d).advance 8) ((s1.openStream n.toNat d).reg s1.cur) 8 := by
      have hf := hopen.seq
      rw [State.openStream, State.reg_modReg, if_pos rfl] at hf ⊢
      exact s1.commanded_modReg _ 8 hf
    obtain ⟨hseq, hregion, hother, hmem⟩ := hro.commanded rfl hcommand
    rw [hreg] at hopen
    refine ⟨_, State.exec_strmOpen hidle hva hal hread hdesc htrip hmode hchan, hseq, ?_⟩
    rw [hregion]
    refine ⟨⟨hopen.state, hopen.desc, hopen.cursor⟩, fun m hm => ?_, fun h => ?_, hopen.bank, fun x => by rw [hmem], hother⟩
    · have hsettled := Region.settled_endBars (Region.closeStream { r with tlb := (s1.reg s1.cur).tlb } n.toNat) m
      rw [← hopen.other m hm] at hsettled
      exact Region.settled_congr (by simp only [Region.closeStream_streams]) hsettled
    · obtain ⟨e, he⟩ := hopen.chan h
      rw [Nat.mod_eq_of_lt (b := 2 ^ 12) (hbase h)] at he
      exact ⟨e, he⟩
  refine ⟨fun h6 h7 => completes 0 (.inl ⟨h6, h7, rfl⟩) ?_ fun h => absurd h (not_or.2 ⟨h6, h7⟩), fun y e hch hbase hy hcount he hprod => ?_⟩
  · exact State.chanModeFault_eq_none fun h => absurd h (not_or.2 ⟨h6, h7⟩)
  · refine completes e.own (.inr ⟨hch, e, ?_, rfl⟩) (State.chanModeFault_eq_none fun _ => ⟨y, e, hbase, ?_, hcount, ?_, hprod⟩) fun _ => hbase
    · rwa [Nat.mod_eq_of_lt (b := 2 ^ 12) hbase]
    · rwa [hro.replayOf, hro.cur]
    · rw [hreg]; exact he

end Sys2Proof.Machine

/-!
O22, cfg.load and cfg.run (R118, R271, R272).
-/
namespace Sys2Proof.Machine

/-! ## Banks and streams of a region -/

@[simp] theorem Region.setBank_cur (g : Region) (b : Bool) (v : Bank) : (g.setBank b v).cur = g.cur := by cases b <;> rfl
@[simp] theorem Region.setBank_seq (g : Region) (b : Bool) (v : Bank) : (g.setBank b v).seq = g.seq := by cases b <;> rfl
@[simp] theorem Region.setBank_streams (g : Region) (b : Bool) (v : Bank) : (g.setBank b v).streams = g.streams := by cases b <;> rfl
@[simp] theorem Region.setBank_cells (g : Region) (b : Bool) (v : Bank) : (g.setBank b v).cells = g.cells := by cases b <;> rfl
@[simp] theorem Region.setBank_edges (g : Region) (b : Bool) (v : Bank) : (g.setBank b v).edges = g.edges := by cases b <;> rfl
@[simp] theorem Region.setBank_tags (g : Region) (b : Bool) (v : Bank) : (g.setBank b v).tags = g.tags := by cases b <;> rfl

theorem Region.bank_setBank (g : Region) (b c : Bool) (v : Bank) : (g.setBank b v).bank c = if c = b then v else g.bank c := by
  cases b <;> cases c <;> rfl

/-- Of a region its streams alone have changed. -/
def Region.StreamsOnly (g u : Region) : Prop := u = { g with streams := u.streams }

namespace Region.StreamsOnly

theorem refl (g : Region) : g.StreamsOnly g := rfl

theorem trans {g u v : Region} (h : g.StreamsOnly u) (k : u.StreamsOnly v) : g.StreamsOnly v := by
  rw [Region.StreamsOnly] at *
  rw [k, h]

theorem setStream (g : Region) (n : Nat) (v : Stream) : g.StreamsOnly (g.setStream n v) := rfl

theorem foldl {α : Type} (f : Region → α → Region) (hf : ∀ (g : Region) a, g.StreamsOnly (f g a)) (l : List α) (g : Region) : g.StreamsOnly (l.foldl f g) :=
  List.foldlRecOn l f (refl g) fun u hu a _ => hu.trans (hf u a)

theorem seq {g u : Region} (h : g.StreamsOnly u) : u.seq = g.seq := by rw [h]

theorem bank {g u : Region} (h : g.StreamsOnly u) (b : Bool) : u.bank b = g.bank b := by rw [h]; rfl

end Region.StreamsOnly

/-! ## cfg.load -/

/-- What the patch of extents leaves of a state (R171). -/
structure State.Patched (r : Nat) (s t : State) : Prop where
  cur : t.cur = s.cur
  mem : t.mem = s.mem
  parts : t.parts = s.parts
  other : ∀ x, x ≠ r → t.reg x = s.reg x
  region : (s.reg r).StreamsOnly (t.reg r)

namespace State.Patched

theorem refl (r : Nat) (s : State) : State.Patched r s s := ⟨rfl, rfl, rfl, fun _ _ => rfl, .refl _⟩

theorem trans {r : Nat} {s t u : State} (h : State.Patched r s t) (k : State.Patched r t u) : State.Patched r s u :=
  ⟨k.cur.trans h.cur, k.mem.trans h.mem, k.parts.trans h.parts, fun x hx => (k.other x hx).trans (h.other x hx), h.region.trans k.region⟩

theorem setStream (s : State) (r n : Nat) (v : Stream) : State.Patched r s (s.modReg r fun g => g.setStream n v) :=
  ⟨rfl, rfl, rfl, fun x hx => by rw [State.reg_modReg, if_neg hx], by rw [State.reg_modReg, if_pos rfl]; exact .setStream ..⟩

end State.Patched

theorem State.patchBound_patched (s : State) (r : Nat) (binds : List Machine.Bind) : State.Patched r s (s.patchBound r binds) := by
  refine List.foldlRecOn binds _ (.refl r s) fun t ht e _ => ht.trans ?_
  dsimp only
  split
  · exact .refl r t
  · exact .setStream t r _ _

/-- What the checks of an image ensure of the bank that it goes to: it is the pinned bank, or else the one beside cur, and it is not
cur (R118). -/
theorem Region.checkImage_bank {g : Region} {va : Nat} {bs : List Byte} {b : Block} {t : Bool} (h : g.checkImage va bs = .ok (b, t)) :
    t = b.pinned.getD (!g.cur) ∧ t ≠ g.cur := by
  unfold Region.checkImage at h
  simp only [bind, Except.bind, need] at h
  grind

theorem State.ReadOnly.loaderWho {w : Who} {s t : State} (h : State.ReadOnly w s t) (r : Nat) : t.loaderWho r = s.loaderWho r := by
  rw [State.loaderWho, State.loaderWho, State.seqWho, State.seqWho, h.owner]

/-- An address whose low six bits are zero is aligned to 64. -/
theorem and_63_eq_zero {x : Word} (h : x.extractLsb' 0 6 = 0) : x &&& 63 = 0 := by
  refine BitVec.eq_of_toNat_eq ?_
  have hmod : x.toNat % 2 ^ 6 = 0 := by simpa [BitVec.extractLsb'_toNat] using congrArg BitVec.toNat h
  rw [BitVec.toNat_and]
  exact (Nat.and_two_pow_sub_one_eq_mod x.toNat 6).trans hmod

theorem State.exec_cfgLoad {s s1 s2 : State} {a : BitVec 5} {k : BitVec 3} {header rest : List Byte} {b : Block} {t : Bool}
    (hk : s.seq.kr k = true) (hal : (s.seq.gr a).extractLsb' 0 6 = 0)
    (hheader : s.readVA (s.loaderWho s.cur) (s.seq.gr a).toNat 64 = (s1, .ok header))
    (hmagic : numAt header 0 4 = 0x4B434C42) (hcheck : checkHeader header = .ok ())
    (hrest : s1.readMany (s1.loaderWho s1.cur) 8 ((numAt header 12 4 - 64) / 8) ((s.seq.gr a).toNat + 64) = (s2, .ok rest))
    (himage : (s2.reg s2.cur).checkImage (s.seq.gr a).toNat (header ++ rest) = .ok (b, t)) :
    exec (.cfgLoad a k) s =
      .next (((s2.modReg s2.cur fun g => g.setBank t { state := 1, img := some b }).patchBound s2.cur b.binds).advance 4) := by
  have hal63 : (s.seq.gr a &&& 63 != 0) = false := bne_eq_false_iff_eq.2 (and_63_eq_zero hal)
  have hload : s1.loadImage (s.seq.gr a).toNat (numAt header 12 4) header (leadOf (.cfgLoad a k)) =
      ((s2.modReg s2.cur fun g => g.setBank t { state := 1, img := some b }).patchBound s2.cur b.binds).advance 4 := by
    rw [State.loadImage, hrest]
    simp only [himage]
  change execCfgLoad a k s = _
  rw [execCfgLoad, s.guarded_true k 4 _ hk]
  simp only [hal63, hheader, hmagic, hcheck, hload, Bool.false_eq_true, if_false, ne_eq, not_true]

/-! ## cfg.run -/

/-- A stream stands in the same state as before, or it stood in state 1 or 4 and runs now (R298). -/
def Region.Starts (g u : Region) : Prop :=
  ∀ m, (u.stream m).state = (g.stream m).state ∨ ((g.stream m).state = 1 ∨ (g.stream m).state = 4) ∧ (u.stream m).state = 2

namespace Region.Starts

theorem refl (g : Region) : g.Starts g := fun _ => .inl rfl

theorem trans {g u v : Region} (h : g.Starts u) (k : u.Starts v) : g.Starts v := by
  intro m
  have hm := h m
  have km := k m
  omega

theorem setStream {g : Region} {n : Nat} {v : Stream} (h : v.state = (g.stream n).state ∨
    ((g.stream n).state = 1 ∨ (g.stream n).state = 4) ∧ v.state = 2) : g.Starts (g.setStream n v) := by
  intro m
  rw [Region.stream_setStream]
  split
  · next hm => rw [hm]; exact h
  · exact .inl rfl

theorem foldl {α : Type} (f : Region → α → Region) (hf : ∀ (g : Region) a, g.Starts (f g a)) (l : List α) (g : Region) : g.Starts (l.foldl f g) :=
  List.foldlRecOn l f (refl g) fun u hu a _ => hu.trans (hf u a)

/-- A stream that does not wait to be started stays so. -/
theorem not_waiting {g u : Region} (h : g.Starts u) {n : Nat} (hn : (g.stream n).state ≠ 1 ∧ (g.stream n).state ≠ 4) :
    (u.stream n).state ≠ 1 ∧ (u.stream n).state ≠ 4 := by
  have := h n
  omega

end Region.Starts

theorem Region.endBars_starts (g : Region) : g.Starts g.endBars := by
  intro m
  rw [Region.stream_endBars]
  split <;> exact .inl rfl

/-- One stream is started, if it stands in state 1 or 4 (R298). -/
def Region.goStream (acq rel : Bool) (scope : Nat) (g : Region) (m : Nat) : Region :=
  if (g.stream m).state = 1 ∨ (g.stream m).state = 4 then
    g.setStream m { g.stream m with state := 2, acq := acq, rel := rel, scope := scope, paused := false, need := none, ended := false }
  else g

/-- A start of a stream starts its sources, then the stream (R289, R298). -/
theorem Region.startStream_eq (g : Region) (n : Nat) (acq rel : Bool) (scope : Nat) : g.startStream n acq rel scope =
    if (g.stream n).state = 1 ∨ (g.stream n).state = 4 then
      Region.goStream acq rel scope ((g.srcsOf 128 n).foldl (fun u e => Region.goStream acq rel scope u e.1) g.endBars) n
    else g := rfl

theorem Region.goStream_streamsOnly (acq rel : Bool) (scope : Nat) (g : Region) (m : Nat) : g.StreamsOnly (Region.goStream acq rel scope g m) := by
  unfold Region.goStream
  split
  · exact .setStream ..
  · exact .refl g

theorem Region.goStream_starts (acq rel : Bool) (scope : Nat) (g : Region) (m : Nat) : g.Starts (Region.goStream acq rel scope g m) := by
  unfold Region.goStream
  split
  · next h => exact .setStream (.inr ⟨h, rfl⟩)
  · exact .refl g

theorem Region.goStream_not_waiting (acq rel : Bool) (scope : Nat) (g : Region) (m : Nat) :
    ((Region.goStream acq rel scope g m).stream m).state ≠ 1 ∧ ((Region.goStream acq rel scope g m).stream m).state ≠ 4 := by
  unfold Region.goStream
  split
  · rw [Region.stream_setStream, if_pos rfl]; exact ⟨nofun, nofun⟩
  · next h => exact not_or.1 h

theorem Region.startStream_streamsOnly (g : Region) (n : Nat) (acq rel : Bool) (scope : Nat) : g.StreamsOnly (g.startStream n acq rel scope) := by
  rw [Region.startStream_eq]
  split
  · have hbars : g.StreamsOnly g.endBars := rfl
    exact (hbars.trans (.foldl _ (fun u _ => u.goStream_streamsOnly acq rel scope _) _ _)).trans (Region.goStream_streamsOnly acq rel scope _ n)
  · exact .refl g

theorem Region.startStream_starts (g : Region) (n : Nat) (acq rel : Bool) (scope : Nat) : g.Starts (g.startStream n acq rel scope) := by
  rw [Region.startStream_eq]
  split
  · exact (g.endBars_starts.trans (.foldl _ (fun u _ => u.goStream_starts acq rel scope _) _ _)).trans (Region.goStream_starts acq rel scope _ n)
  · exact .refl g

theorem Region.startStream_not_waiting (g : Region) (n : Nat) (acq rel : Bool) (scope : Nat) :
    ((g.startStream n acq rel scope).stream n).state ≠ 1 ∧ ((g.startStream n acq rel scope).stream n).state ≠ 4 := by
  rw [Region.startStream_eq]
  split
  · exact Region.goStream_not_waiting ..
  · next h => exact not_or.1 h

/-- The streams that a block binds have left the states from which one is started (R272). -/
theorem Region.startBound_not_waiting (l : List Machine.Bind) (g : Region) {e : Machine.Bind} (he : e ∈ l) :
    ((l.foldl Region.startBound g).stream e.stream).state ≠ 1 ∧ ((l.foldl Region.startBound g).stream e.stream).state ≠ 4 := by
  induction l generalizing g with
  | nil => cases he
  | cons x l ih =>
    rcases List.mem_cons.1 he with rfl | he
    · have hrest : (g.startBound e).Starts (l.foldl Region.startBound (g.startBound e)) := .foldl _ (fun u a => u.startStream_starts _ _ _ _) l _
      exact hrest.not_waiting (g.startStream_not_waiting ..)
    · exact ih _ he

/-- The marks of a stream are forgotten where a block starts (R349). -/
def Region.dropMarks (g : Region) (e : Machine.Bind) : Region := g.setStream e.stream { g.stream e.stream with marks := [] }

/-- The streams of a region in which a block has been started. -/
def Region.started (g : Region) (l : List Machine.Bind) : Region := l.foldl Region.dropMarks (l.foldl Region.startBound g.keepMissed)

theorem Region.started_streamsOnly (g : Region) (l : List Machine.Bind) : g.keepMissed.StreamsOnly (g.started l) :=
  (Region.StreamsOnly.foldl Region.startBound (fun u e => u.startStream_streamsOnly e.stream _ _ _) l _).trans
    (.foldl Region.dropMarks (fun _ _ => .setStream ..) l _)

theorem Region.dropMarks_starts (g : Region) (e : Machine.Bind) : g.Starts (g.dropMarks e) := .setStream (.inl rfl)

theorem Region.started_starts (g : Region) (l : List Machine.Bind) : g.Starts (g.started l) :=
  have hbound : g.keepMissed.Starts (l.foldl Region.startBound g.keepMissed) := .foldl _ (fun u e => u.startStream_starts e.stream _ _ _) l _
  hbound.trans (.foldl _ Region.dropMarks_starts l _)

theorem Region.started_not_waiting (g : Region) (l : List Machine.Bind) {e : Machine.Bind} (he : e ∈ l) :
    ((g.started l).stream e.stream).state ≠ 1 ∧ ((g.started l).stream e.stream).state ≠ 4 :=
  (Region.Starts.foldl _ Region.dropMarks_starts l _).not_waiting (Region.startBound_not_waiting l _ he)

/-- The bank of a block that has been started (R272). -/
structure Bank.Begun (b : Bank) (blk : Block) (params : List Word) : Prop where
  state : b.state = 2
  img : b.img = some blk
  bound : b.bound = blk.binds
  consts : b.consts = params
  islands : b.islands = blk.islands.map fun _ => {}

/-- A started block runs in the bank that is then cur, beside the other (R272). -/
theorem Region.runBank_spec (g : Region) (b : Bank) (img : Block) (himg : b.img = some img) :
    (g.runBank b img).cur = (!g.cur) ∧ ((g.runBank b img).bank !g.cur).Begun img ((List.range 32).map fun i => spGet 0 g.params i) ∧
      (g.runBank b img).bank g.cur = g.bank g.cur ∧ (g.runBank b img).streams = (g.started img.binds).streams ∧ (g.runBank b img).seq = g.seq := by
  have hrun : ∃ v : Bank, g.runBank b img = ({ g.started img.binds with cur := !g.cur } : Region).setBank (!g.cur) v ∧
      v.Begun img ((List.range 32).map fun i => spGet 0 g.params i) := ⟨_, rfl, rfl, himg, rfl, rfl, rfl⟩
  obtain ⟨v, hv, hbegun⟩ := hrun
  have hstarted := g.started_streamsOnly img.binds
  have hseq : (g.started img.binds).seq = g.seq := hstarted.seq
  rw [hv]
  refine ⟨Region.setBank_cur .., ?_, ?_, Region.setBank_streams .., (Region.setBank_seq ..).trans hseq⟩
  · rwa [Region.bank_setBank, if_pos rfl]
  · rw [Region.bank_setBank, if_neg (Bool.not_ne_self g.cur).symm]
    exact hstarted.bank g.cur

/-- A bind entry is refused when one of the streams that it takes is bound already, or its stream is the source of one that runs (R272). -/
theorem Region.bindTaken_eq_false {g : Region} {e : Machine.Bind}
    (hfree : ∀ n, n = e.stream ∨ n ∈ (g.srcsOf 128 e.stream).map Prod.fst → ¬Claims.boundBy g n)
    (huses : ∀ x ∈ g.streams, x.2.usesSource e.stream = true → x.2.state ≠ 2) : g.bindTaken e = false := by
  have htaken (n : Nat) : g.taken.contains n = true ↔ Claims.boundBy g n := by
    simp only [Region.taken, Claims.boundBy, List.contains_iff_mem, List.mem_flatMap, List.mem_cons]
  simp only [Region.bindTaken, Bool.or_eq_false_iff, List.any_eq_false, List.mem_cons, htaken, Bool.and_eq_true, beq_iff_eq, not_and]
  exact ⟨hfree, huses⟩

/-- A block whose streams are open in the right direction is not refused (R272). -/
theorem Region.runFault_eq_none {g : Region} {l : List Machine.Bind} (h : ∀ e ∈ l, (g.stream e.stream).state ≠ 0 ∧
    kindIn e.kind = ((g.stream e.stream).desc.dir == 0) ∧ (g.stream e.stream).desc.dir < 2) : g.runFault l = none := by
  induction l with
  | nil => rfl
  | cons e l ih =>
    obtain ⟨⟨hopen, hkind, hdir⟩, hrest⟩ := List.forall_mem_cons.1 h
    have hne : (kindIn e.kind == ((g.stream e.stream).desc.dir == 1)) = false := by
      rw [hkind]
      obtain hd | hd : (g.stream e.stream).desc.dir = 0 ∨ (g.stream e.stream).desc.dir = 1 := by omega
      · rw [hd]; rfl
      · rw [hd]; rfl
    simp only [Region.runFault, hopen, hne, Bool.false_eq_true, if_false, ih hrest]

theorem State.exec_cfgRun {s : State} {k : BitVec 3} {img : Block} (hk : s.seq.kr k = true) (hstate : (s.reg s.cur).other.state = 1)
    (himg : (s.reg s.cur).other.img = some img) (htaken : ∀ e ∈ img.binds, (s.reg s.cur).bindTaken e = false)
    (hfault : (s.reg s.cur).runFault img.binds = none) :
    exec (.cfgRun k) s = .next ((s.modReg s.cur fun g => g.runBank g.other img).advance 4) := by
  have hany : img.binds.any (s.reg s.cur).bindTaken = false := by simpa using htaken
  change execCfgRun k s = _
  rw [execCfgRun, s.guarded_true k 4 _ hk]
  simp only [hstate, himg, hany, hfault, Bool.false_eq_true, if_false]

/-! ## The obligation -/

theorem cfgLoadCompletes : Claims.CfgLoadCompletes := by
  intro s s1 s2 a k header rest b t hk hal hheader hmagic hcheck hrest himage
  have hro1 := s.readVA_readOnly s1 _ _ _ _ hheader
  have hwho : s1.loaderWho s1.cur = s.loaderWho s.cur := by rw [hro1.cur, hro1.loaderWho]
  have hro2 := State.readMany_readOnly _ _ _ _ _ _ _ hrest
  change State.ReadOnly (s1.loaderWho s1.cur) s1 s2 at hro2
  rw [hwho] at hro2
  have hro := hro1.trans hro2
  have hreg : s2.reg s2.cur = { s.reg s.cur with tlb := (s2.reg s2.cur).tlb } := by rw [hro.cur]; exact hro.reg s.cur
  obtain ⟨hpinned, hcur⟩ := Region.checkImage_bank himage
  set loaded := s2.modReg s2.cur fun g => g.setBank t { state := 1, img := some b } with hloaded
  have hpatch := loaded.patchBound_patched s2.cur b.binds
  have hloadedreg : loaded.reg s2.cur = ((s2.reg s2.cur).setBank t { state := 1, img := some b }) := by rw [hloaded, State.reg_modReg, if_pos rfl]
  have hcommand : Commanded s2 ((loaded.patchBound s2.cur b.binds).advance 4) ((loaded.patchBound s2.cur b.binds).reg s2.cur) 4 := by
    refine State.commanded_advance 4 hpatch.cur ?_ (fun x hx => (hpatch.other x hx).trans ?_) hpatch.mem hpatch.parts
    · rw [State.seq, hpatch.cur]
      exact hpatch.region.seq.trans (by rw [hloadedreg, Region.setBank_seq]; rfl)
    · rw [hloaded, State.reg_modReg, if_neg hx]
  obtain ⟨hseq, hregion, hother, hmem⟩ := hro.commanded rfl hcommand
  refine ⟨_, State.exec_cfgLoad hk hal hheader hmagic hcheck hrest himage, hseq, ?_⟩
  rw [hregion]
  have hbank (c : Bool) : ((loaded.patchBound s2.cur b.binds).reg s2.cur).bank c =
      if c = t then { state := 1, img := some b } else (s.reg s.cur).bank c := by
    rw [hpatch.region.bank, hloadedreg, Region.bank_setBank, hreg]; rfl
  have hu := hpatch.region
  rw [Region.StreamsOnly, hloadedreg, hreg] at hu
  rw [hreg] at hpinned hcur
  refine ⟨(hbank t).trans (if_pos rfl), (hbank !t).trans (if_neg (Bool.not_ne_self t)), hpinned, hcur, ?_, ?_, ?_, ?_, fun x => by rw [hmem], hother⟩
  · rw [hu]; exact Region.setBank_cur ..
  · rw [hu]; exact Region.setBank_cells ..
  · rw [hu]; exact Region.setBank_edges ..
  · rw [hu]; exact Region.setBank_tags ..

theorem cfgRunStartsBlock : Claims.CfgRunStartsBlock := by
  intro s k img hk r hstate himg hbinds
  have hexec := State.exec_cfgRun hk hstate himg (fun e he => Region.bindTaken_eq_false (hbinds e he).1 (hbinds e he).2.1)
    (Region.runFault_eq_none fun e he => (hbinds e he).2.2)
  obtain ⟨hcur, hbegun, hother, hstreams, hrunseq⟩ := r.runBank_spec r.other img himg
  obtain ⟨hseq, hregion, hregs, hmem, hparts⟩ := s.commanded_modReg (fun g => g.runBank g.other img) 4 hrunseq
  have hstream (m : Nat) : (r.runBank r.other img).stream m = (r.started img.binds).stream m := by rw [Region.stream, hstreams, ← Region.stream]
  refine ⟨_, hexec, hseq, ?_⟩
  rw [hregion]
  rw [← hcur] at hbegun
  refine ⟨hcur, hbegun.state, hbegun.img, hbegun.bound, hbegun.consts, ?_, fun i hi => ?_, hother, fun e he => ?_, fun a => by rw [hmem], hregs, hparts⟩
  · exact (congrArg List.length hbegun.islands).trans (List.length_map ..)
  · obtain ⟨x, -, rfl⟩ := List.mem_map.1 (hbegun.islands ▸ hi)
    exact ⟨rfl, rfl⟩
  · have hwaits := r.started_not_waiting img.binds he
    have hstarts := r.started_starts img.binds e.stream
    rw [← hstream] at hwaits hstarts
    have hends : ((r.stream e.stream).state = 1 ∨ (r.stream e.stream).state = 2 ∨ (r.stream e.stream).state = 4 →
        ((r.runBank r.other img).stream e.stream).state = 2) ∧
        ((r.stream e.stream).state = 3 → ((r.runBank r.other img).stream e.stream).state = 3) := by omega
    exact ⟨hwaits.1, hwaits.2, hends⟩

/-- Settles O22: the checks pass, and what remains is one change of the region, to a bank and to its streams. -/
theorem cfgLoadRun : Obligations.CfgLoadRun := ⟨cfgLoadCompletes, cfgRunStartsBlock⟩

end Sys2Proof.Machine

/-!
O38, the gates of a host queue (R133).
-/
namespace Sys2Proof.Machine

/-! ## Reads of any length, and writes to a header -/

/-- A completed read of any length is a read. -/
theorem State.readLong_readOnly (w : Who) (f : Nat) : ∀ (s s1 : State) (va n : Nat) (bs : List Byte),
    s.readLong w f va n = (s1, .ok bs) → State.ReadOnly w s s1 := by
  induction f with
  | zero => intro s s1 va n bs h; cases h; exact .rfl w s
  | succ f ih =>
    intro s s1 va n bs h
    unfold State.readLong at h
    dsimp only at h
    split at h
    · cases h; exact .rfl w s
    · split at h
      · next e =>
        have hread := State.readVA_readOnly _ _ _ _ _ _ e
        split at h
        · next e2 => cases h; exact hread.trans (ih _ _ _ _ _ e2)
        · exact hread.trans (ih _ _ _ _ _ h)
      · exact State.readVA_readOnly _ _ _ _ _ _ h

/-- A read leaves a queue's header where it lies. -/
theorem State.ReadOnly.headerLies {w : Who} {s t : State} (hr : State.ReadOnly w s t) {p base : Nat} {h : HQueue} (hl : Claims.HeaderLies s p h base) :
    Claims.HeaderLies t p h base := by
  have hwork : State.QueueWork p s { t with regs := s.regs } :=
    { regs := Eq.refl _
      pkg := congrArg (fun k : Pkg => { k with out := t.pkg.out }) hr.pkg
      part := fun v hv => by
        obtain ⟨m, hm⟩ := hr.part p
        exact ⟨{ v with meter := m }, by rw [hv] at hm; exact hm, Eq.refl _, Eq.refl _⟩ }
  exact hwork.headerLies h h base (Eq.refl _) (Eq.refl _) hl

/-- A header that lies in memory takes the writes that are put to it. -/
theorem State.queuePut_headerLies {s : State} {p q base : Nat} {h : HQueue} (hq : s.queue? p q = some h) (ho : h.owed = [])
    (hl : Claims.HeaderLies s p h base) (l : List (Nat × Nat × Nat)) (hlen : l.length < 16) (hw : ∀ w ∈ l, 0 < w.2.1 ∧ w.1 + w.2.1 ≤ 64) :
    State.QueueWork p s (s.queuePut p q l) ∧ (s.queuePut p q l).queue? p q = some h ∧ (s.queuePut p q l).mem = s.mem.writeFields base l := by
  have hput := s.modQueue_queueWork p q fun g => { g with owed := g.owed ++ l }
  have hq1 : (s.modQueue p q fun g => { g with owed := g.owed ++ l }).queue? p q = some { h with owed := l } := by
    rw [State.queue_modQueue, hq, Option.map_some, ho, List.nil_append]
  obtain ⟨hwork, hqueue, hmem⟩ := State.flushQueue_headerLies p q base l _ { h with owed := l } 16 hlen hw hq1 rfl
    (hput.headerLies h { h with owed := l } base rfl rfl hl)
  refine ⟨hput.trans hwork, ?_, ?_⟩
  · rw [State.queuePut, hqueue, ← ho]
  · rw [State.queuePut, hmem, State.modQueue_mem]

/-! ## GATE -/

/-- A number within a slice of a list of bytes. -/
theorem numAt_slice (bs : List Byte) (a n o k : Nat) (h : o + k ≤ n) : numAt ((bs.drop a).take n) o k = numAt bs (a + o) k := by
  rw [numAt, numAt, List.drop_take, List.take_take, List.drop_drop, Nat.min_eq_left (by omega)]

/-- R133: a gate makes its queue wait with the table as it was read. -/
theorem gateWaits : Claims.GateWaits := by
  intro s s1 s2 p q base v h bs tb hat hty n hread hentries
  have hr : State.ReadOnly (xdWho p) s1 s2 := State.readLong_readOnly _ _ _ _ _ _ _ hread
  have hn : numAt bs 0x10 1 = n := numAt_one bs 0x10
  have hall : ((List.range n).map fun i => (tb.drop (24 * i)).take 24).all gateEntryOk = true := by
    simpa only [List.all_map, List.all_eq_true, List.mem_range, Function.comp_apply] using hentries
  have hgate : s1.gatePacket p q h bs = s2.modQueue p q fun g =>
      { g with wait := .gate h.cons (((List.range n).map fun i => (tb.drop (24 * i)).take 24).map fun e => (numAt e 0 8, numAt e 8 8, numAt e 0x10 1)) (numAt bs 0x14 4) s2.tick } := by
    have hread' : s1.readLong (xdWho p) 16 (numAt bs 8 8) (24 * n) = (s2, .ok tb) := hread
    rw [State.gatePacket, hn, hread']
    exact if_pos hall
  have hexec : exec (.gate p q) s = .next (s1.gatePacket p q h bs) := by
    show execGate p q s = _
    rw [execGate, if_pos (unit_of_atPacket hat), packet_of_atPacket hat 2 _ (congrArg BitVec.toNat hty)]
  have htick : s2.tick = s.tick := hr.tick.trans (worked_of_atPacket hat).tick
  refine ⟨_, _, hexec, ?_, rfl, fun x => ?_⟩
  · rw [hgate, State.queue_modQueue, hr.worked.queue, queue_of_atPacket hat, Option.map_some, List.map_map, htick]
    have hentry : (fun e => (numAt e 0 8, numAt e 8 8, numAt e 0x10 1)) ∘ (fun i => (tb.drop (24 * i)).take 24) =
        fun i => (ofBytes ((tb.drop (24 * i)).take 8), ofBytes ((tb.drop (24 * i + 8)).take 8), (tb.getD (24 * i + 0x10) 0).toNat) := by
      funext i
      rw [Function.comp_apply, numAt_slice tb _ 24 0 8 (by decide), numAt_slice tb _ 24 8 8 (by decide), numAt_slice tb _ 24 0x10 1 (by decide), numAt_one]
      rfl
    rw [hentry]
    rfl
  · rw [hgate, State.modQueue_mem, hr.mem, mem_of_atPacket hat]

/-! ## The evaluation and the timeout of a gate -/

theorem State.gateTrue_readOnly (p : Nat) (es : List (Nat × Nat × Nat)) : ∀ (s s1 : State) (b : Bool),
    s.gateTrue p es = (s1, .ok b) → State.ReadOnly (xdWho p) s s1 := by
  induction es with
  | nil => intro s s1 b h; cases h; exact .rfl _ s
  | cons e es ih =>
    intro s s1 b h
    obtain ⟨va, val, cond⟩ := e
    unfold State.gateTrue at h
    split at h
    · next e =>
      have hread := State.readNum_readOnly _ _ _ _ _ _ e
      split at h
      · next e2 => cases h; exact hread.trans (ih _ _ _ e2)
      · exact hread.trans (ih _ _ _ h)
    · cases h
    · cases h

theorem State.readNum_worked (s : State) (w : Who) (va n : Nat) : State.Worked w s (s.readNum w va n).1 := by
  have hread := s.readVA_worked w va n
  unfold State.readNum
  split <;> next e => rw [e] at hread; exact hread

theorem State.gateTrue_worked (p : Nat) (es : List (Nat × Nat × Nat)) : ∀ s : State, State.Worked (xdWho p) s (s.gateTrue p es).1 := by
  induction es with
  | nil => exact fun s => .rfl _ s
  | cons e es ih =>
    intro s
    obtain ⟨va, val, cond⟩ := e
    have hread := s.readNum_worked (xdWho p) va 8
    unfold State.gateTrue
    split
    · next s1 x e =>
      rw [e] at hread
      have htail := ih s1
      split
      · next e2 => rw [e2] at htail; exact hread.trans htail
      · exact hread.trans htail
    · next e => rw [e] at hread; exact hread
    · next e => rw [e] at hread; exact hread

theorem gateElapsed_iff (now timeout since : Nat) : gateElapsed now timeout since = true ↔ timeout ≠ 0 ∧ 1000 * timeout ≤ now - since := by
  rw [gateElapsed, Bool.and_eq_true, bne_iff_ne, decide_eq_true_eq]

/-- The state in which a gate has passed: gatedone is set and written, and the packet parsed (R133). -/
def State.gatePassed (s : State) (p q idx : Nat) : State :=
  ((s.modQueue p q fun g => { g with gatedone := idx + 1 }).queuePut p q [(0x20, 8, idx + 1)]).gateOver p q

section

variable {s : State} {p q base idx : Nat} {h : HQueue}

/-- A gate whose queue's header lies in memory passes. -/
theorem State.gatePassed_headerLies (hq : s.queue? p q = some h) (hs : h.stopped = false) (ho : h.owed = [])
    (hl : Claims.HeaderLies s p h base) :
    (∀ r, (s.gatePassed p q idx).reg r = s.reg r) ∧
      Claims.Parsed (s.mem.writeN (base + 0x20) (toBytes 8 (idx + 1))) (s.gatePassed p q idx) p q { h with gatedone := idx + 1, wait := .none } base := by
  let g : HQueue := { h with gatedone := idx + 1 }
  have hmod := s.modQueue_queueWork p q fun g => { g with gatedone := idx + 1 }
  have hq1 : (s.modQueue p q fun g => { g with gatedone := idx + 1 }).queue? p q = some g := by rw [State.queue_modQueue, hq]; rfl
  obtain ⟨hput, hq2, hmem⟩ := State.queuePut_headerLies hq1 ho (hmod.headerLies h g base rfl rfl hl) [(0x20, 8, idx + 1)] (Nat.lt_add_of_pos_left (by decide))
    (by simp)
  have hl2 := (hmod.trans hput).headerLies h g base rfl rfl hl
  have hover : s.gatePassed p q idx = ((s.modQueue p q fun g => { g with gatedone := idx + 1 }).queuePut p q [(0x20, 8, idx + 1)]).parsed p q := by
    rw [State.gatePassed, State.gateOver, hq2]
    exact if_pos (List.isEmpty_iff.2 ho)
  have hparsed := State.parsed_parsed hq2 hs ho hl2
  rw [hmem, State.modQueue_mem] at hparsed
  rw [hover]
  exact ⟨fun r => (State.reg_parsed hq2 hs ho hl2 r).trans ((hmod.trans hput).reg r), hparsed⟩

/-- The number that a parsed gate has left at 0x20 of its header, and at 8. -/
theorem bytes_of_gatePassed {t : State} {g : HQueue} {m : Memory} (hcons : g.cons = idx)
    (hp : Claims.Parsed (m.writeN (base + 0x20) (toBytes 8 (idx + 1))) t p q g base) :
    (∀ i, i < 8 → t.mem.read (base + 0x20 + i) = BitVec.ofNat 8 ((idx + 1) / 256 ^ i) ∧
      t.mem.read (base + 8 + i) = BitVec.ofNat 8 ((idx + 1) / 256 ^ i)) ∧
    (∀ x, ¬(base + 8 ≤ x ∧ x < base + 16) → ¬(base + 0x20 ≤ x ∧ x < base + 0x28) → t.mem.read x = m.read x) := by
  obtain ⟨-, hin, hout⟩ := hp
  refine ⟨fun i hi => ⟨?_, hcons ▸ hin i hi⟩, fun x h1 h2 => ?_⟩
  · rw [hout _ (by omega), Memory.read_writeN_in _ _ _ _ _ hi]
  · rw [hout x h1, Memory.read_writeN_out _ _ _ _ _ (by omega)]

end

/-- What the statements suppose of a waiting gate, for the two units that act on it. -/
theorem State.gate_eqs {s : State} {p q idx timeout since : Nat} {es : List (Nat × Nat × Nat)} {v : Part} {h : HQueue} (hv : s.part? p = some v)
    (hq : spFind v.queues q = some h) (hstate : v.state = .ready) (hsus : v.suspending = none) (ho : h.owed = [])
    (hw : h.wait = .gate idx es timeout since) (hg : h.gatedone ≠ idx + 1) :
    (s.gateEvaluation p q = if gateElapsed s.tick timeout since then s.queueStop p q Cause.gateTimeout idx
      else State.packetGot (s.gateTrue p es) p q idx fun s1 ok => if ok then s1.gatePassed p q idx else s1) ∧
    (s.gateTimeout p q = if gateElapsed s.tick timeout since then s.queueStop p q Cause.gateTimeout idx else s) := by
  have hqueue : s.queue? p q = some h := by rw [State.queue?, hv]; exact hq
  have hruns : v.runs = true := by rw [Part.runs, hstate, hsus]; rfl
  constructor
  · simp only [State.gateEvaluation, hv, hqueue, hw, hruns, ho, hg, State.gatePassed, Bool.not_true, Bool.false_eq_true, if_false, List.isEmpty_nil]
  · simp only [State.gateTimeout, hv, hqueue, hw, hruns, hg, ne_eq, not_false_eq_true, true_and]

/-- R133: a waiting gate passes, waits on, or stops its queue. -/
theorem gateEnds : Claims.GateEnds := by
  intro s p q base idx timeout since es v h hp hqn hv hq hstate hsus ho hs hw hcons hg hl elapsed
  obtain ⟨heval, htime⟩ := State.gate_eqs hv hq hstate hsus ho hw hg
  have hqueue : s.queue? p q = some h := by rw [State.queue?, hv]; exact hq
  have hexec : exec (.gateEvaluation p q) s = .next (s.gateEvaluation p q) := if_pos ⟨hp, hqn⟩
  refine ⟨fun s1 ok hel htrue => ?_, fun s1 c a hel hfault hl1 => ?_, fun hel => ?_⟩
  · rw [if_neg ((gateElapsed_iff ..).not.2 hel), State.packetGot_ok htrue] at heval
    have hr := State.gateTrue_readOnly p es s s1 ok htrue
    have hreg (r : Nat) : s1.reg r = s.reg r := hr.other r (Option.some_ne_none r ∘ Eq.symm)
    have hq1 : s1.queue? p q = some h := by rw [hr.worked.queue, hqueue]
    cases ok with
    | true =>
      obtain ⟨hregs, hparsed⟩ := State.gatePassed_headerLies (idx := idx) hq1 hs ho (hr.headerLies hl)
      obtain ⟨hin, hout⟩ := bytes_of_gatePassed (g := { h with gatedone := idx + 1, wait := .none }) hcons hparsed
      rw [hr.mem] at hout
      refine ⟨_, hexec.trans (congrArg _ heval), fun r => (hregs r).trans (hreg r), fun _ => ⟨?_, hin, hout⟩, fun hf => absurd hf (by decide)⟩
      rw [if_pos rfl, hparsed.1, ← hcons]
    | false => exact ⟨_, hexec.trans (congrArg _ heval), hreg, fun hf => absurd hf (by decide), fun _ => ⟨hq1, fun x => congrArg (·.read x) hr.mem⟩⟩
  · rw [if_neg ((gateElapsed_iff ..).not.2 hel), hfault] at heval
    have hq1 : s1.queue? p q = some h := by rw [((State.gateTrue_worked p es s).of_eq hfault).queue, hqueue]
    exact ⟨_, hexec.trans (congrArg _ heval), (State.queueStop_headerLies s1 p q base idx h c hq1 hs hl1).2⟩
  · rw [if_pos ((gateElapsed_iff ..).2 hel)] at heval htime
    obtain ⟨hwork, hstop⟩ := State.queueStop_headerLies s p q base idx h Cause.gateTimeout hqueue hs hl
    have hexec' : exec (.gateTimeout p q) s = .next (s.gateTimeout p q) := if_pos ⟨hp, hqn⟩
    rintro i hi
    simp only [List.mem_cons, List.not_mem_nil, or_false] at hi
    obtain rfl | rfl := hi
    · exact ⟨_, hexec.trans (congrArg _ heval), hstop, hwork.reg⟩
    · exact ⟨_, hexec'.trans (congrArg _ htime), hstop, hwork.reg⟩

/-- Settles O38: a gate waits with its table as read, and an evaluation is a read after which the gate passes, waits or stops its queue. -/
theorem gates : Obligations.Gates := ⟨gateWaits, gateEnds⟩

end Sys2Proof.Machine

/-!
Completed writes: what they leave besides memory (R212).
-/
namespace Sys2Proof.Machine

/-- `t` differs at most in memory from what a completed read leaves of `s`: what a completed write leaves. -/
def State.Written (w : Who) (s t : State) : Prop := State.ReadOnly w s { t with mem := s.mem }

/-- A completed read is one whatever memory holds. -/
theorem State.readOnly_withMem {w : Who} {s t : State} (h : State.ReadOnly w s t) (m : Memory) :
    State.ReadOnly w { s with mem := m } { t with mem := m } := { h with mem := rfl }

theorem State.written_modMem {w : Who} {s t : State} (h : State.ReadOnly w s t) (f : Memory → Memory) : State.Written w s (t.modMem f) :=
  State.readOnly_withMem h s.mem

theorem State.written_of_readOnly {w : Who} {s t : State} (h : State.ReadOnly w s t) : State.Written w s t := State.readOnly_withMem h s.mem

theorem State.written_trans {w : Who} {s t u : State} (h : State.Written w s t) (g : State.Written w t u) : State.Written w s u :=
  h.trans (State.readOnly_withMem g s.mem)

theorem State.writePage_written {s t : State} {w : Who} {va : Nat} {bs : List Byte} (h : s.writePage w va bs = (t, .ok ())) : State.Written w s t := by
  obtain ⟨s1, pa, hreach, -, rfl⟩ := (State.writePage_ok ..).1 h
  exact State.written_modMem ((State.reach_readOnly _ _ _ _ _ _ hreach).trans (State.countBytes_readOnly ..)) _

/-- A completed write is one in one page, or in two. -/
theorem State.writeVA_written {s t : State} {w : Who} {va : Nat} {bs : List Byte} (h : s.writeVA w va bs = (t, .ok ())) : State.Written w s t := by
  unfold State.writeVA at h
  dsimp only at h
  split_ifs at h
  · cases h
  · exact State.writePage_written h
  · split at h
    · next hreach =>
      split at h
      · cases h
      · split at h
        · next hfirst =>
          exact State.written_trans (State.written_of_readOnly (State.reach_readOnly _ _ _ _ _ _ hreach))
            (State.written_trans (State.writePage_written hfirst) (State.writePage_written h))
        · next hne => exact absurd h (hne t)
    · cases h
    · cases h

end Sys2Proof.Machine

/-!
O39, SIGNAL and HCOPY (R134).
-/
namespace Sys2Proof.Machine

/-! ## The counter of a SIGNAL or an HCOPY -/

theorem State.updateCounter_written {s t : State} {p va val : Nat} {add : Bool} (h : s.updateCounter p va val add = (t, .ok ())) :
    State.Written (xdWho p) s t := by
  unfold State.updateCounter at h
  split at h
  · split at h
    · next hread => exact State.written_trans (State.written_of_readOnly (State.readNum_readOnly _ _ _ _ _ _ hread)) (State.writeVA_written h)
    · cases h
    · cases h
  · exact State.writeVA_written h

/-- No copy that has been parsed owes a counter an update, so that none holds an update back (R134). -/
def State.NoUpdateOwed (s : State) : Prop := ∀ e ∈ s.parts, ∀ j ∈ e.2.jobs, j.wait = true ∨ j.ctr = 0

theorem State.updatesDone_of_noUpdateOwed {s : State} (h : s.NoUpdateOwed) (n : Nat) : s.updatesDone n = true := by
  simp only [State.updatesDone, List.all_eq_true, Bool.or_eq_true]
  intro e he
  refine .inr fun j hj => ?_
  rcases h e he j hj with hw | hc
  · rw [HJob.owes, hw]; rfl
  · rw [HJob.owes, hc, Bool.not_eq_true']; exact Bool.and_eq_false_imp.2 fun h => by rw [Bool.and_eq_true] at h; exact absurd h.2 (by decide)

theorem State.noUpdateOwed_modPart {s : State} (h : s.NoUpdateOwed) (p : Nat) (f : Part → Part) (hf : ∀ v, (f v).jobs = v.jobs) :
    (s.modPart p f).NoUpdateOwed := by
  unfold State.modPart
  split
  · next v hv =>
    intro e he
    rcases mem_spInsert _ _ _ _ he with rfl | he
    · exact fun j hj => h (p, v) (mem_of_spFind _ _ _ hv) j (hf v ▸ hj)
    · exact h e he
  · exact h

theorem State.noUpdateOwed_countBytes {s : State} (h : s.NoUpdateOwed) (p pa n : Nat) : (s.countBytes p pa n).NoUpdateOwed := by
  unfold State.countBytes State.meter State.meterIn
  split_ifs
  · exact State.noUpdateOwed_modPart h _ _ fun _ => rfl
  · exact State.noUpdateOwed_modPart h _ _ fun _ => rfl
  · exact h

/-! ## SIGNAL -/

/-- A SIGNAL has written its counter, and raises its interrupt. -/
def State.signalled (s : State) (vec : Option Nat) : State := match vec with | some n => s.emit (.interrupt n) | none => s

theorem State.signalled_queueWork (s : State) (p : Nat) (vec : Option Nat) : State.QueueWork p s (s.signalled vec) := by
  cases vec with
  | none => exact .rfl p s
  | some n => exact ⟨rfl, rfl, fun v hv => ⟨v, hv, rfl, rfl⟩⟩

theorem State.signalled_mem (s : State) (vec : Option Nat) : (s.signalled vec).mem = s.mem := by cases vec <;> rfl

theorem State.signalled_queue (s : State) (p q : Nat) (vec : Option Nat) : (s.signalled vec).queue? p q = s.queue? p q := by cases vec <;> rfl

theorem State.signalled_out (s : State) (vec : Option Nat) :
    (s.signalled vec).pkg.out = s.pkg.out ++ (match vec with | some n => [.interrupt n] | none => []) := by
  cases vec with
  | none => exact (List.append_nil _).symm
  | some n => rfl

theorem State.performSignal_eq {s s2 : State} {p q idx ctr val : Nat} {add : Bool} {vec : Option Nat} (howed : s.NoUpdateOwed)
    (hupdate : s.updateCounter p ctr val add = (s2, .ok ())) : s.performSignal p q idx ctr val add vec = (s2.signalled vec).parsed p q := by
  rw [State.performSignal, if_pos (State.updatesDone_of_noUpdateOwed howed _), State.packetGot_ok hupdate]
  rfl

section

variable {s : State} {p q base : Nat} {h : HQueue} (hq : s.queue? p q = some h) (hs : h.stopped = false) (ho : h.owed = []) (hl : Claims.HeaderLies s p h base)
include hq hs ho hl

/-- Parsing sends nothing. -/
theorem State.pkg_parsed : (s.parsed p q).pkg = s.pkg := by
  have hpkg (t : State) (f : HQueue → HQueue) : (t.modQueue p q f).pkg = t.pkg := State.modPart_pkg ..
  rw [s.parsed_headerLies p q base h hq hs ho hl, hpkg, State.writePhys_pkg, (State.countBytes_readOnly _ (xdWho p) p _ _).pkg, State.owingCons, hpkg, hpkg]

/-- A SIGNAL that has written its counter raises its interrupt and is parsed. -/
theorem State.parsed_signalled (vec : Option Nat) :
    Claims.Parsed s.mem ((s.signalled vec).parsed p q) p q { h with wait := .none } base ∧
      ((s.signalled vec).parsed p q).pkg.out = s.pkg.out ++ (match vec with | some n => [.interrupt n] | none => []) ∧
      ∀ r, ((s.signalled vec).parsed p q).reg r = s.reg r := by
  have hwork := s.signalled_queueWork p vec
  have hl' := hwork.headerLies h h base rfl rfl hl
  have hq' : (s.signalled vec).queue? p q = some h := (s.signalled_queue p q vec).trans hq
  refine ⟨?_, ?_, fun r => (State.reg_parsed hq' hs ho hl' r).trans (hwork.reg r)⟩
  · rw [← s.signalled_mem vec]; exact State.parsed_parsed hq' hs ho hl'
  · rw [State.pkg_parsed hq' hs ho hl', State.signalled_out]

end

/-- R134: a SIGNAL whose turn has come. -/
theorem signalPerformed : Claims.SignalPerformed := by
  intro s s1 s2 p q base v h ctr val vec add sent howed
  -- Either way the SIGNAL is performed from `s1`, which the read of a packet has left of `s`.
  have key (i : Instr) (hr : State.ReadOnly (xdWho p) s s1) (hq : s.queue? p q = some h) (hs : h.stopped = false) (ho : h.owed = [])
      (howed1 : s1.NoUpdateOwed) (hexec : exec i s = .next (s1.performSignal p q h.cons ctr val add vec)) : sent i := by
    intro hl hupdate
    have hw : State.ReadOnly (xdWho p) s { s2 with mem := s1.mem } := hr.trans (State.updateCounter_written hupdate)
    have hq2 : s2.queue? p q = some h := (hw.worked.queue p q).trans hq
    obtain ⟨hparsed, hout, hreg⟩ := State.parsed_signalled hq2 hs ho hl vec
    have hout2 : s2.pkg.out = s.pkg.out := congrArg Pkg.out hw.pkg
    exact ⟨_, hexec.trans (congrArg _ (State.performSignal_eq howed1 hupdate)), hparsed, hout2 ▸ hout,
      fun r => (hreg r).trans (hw.other r (Option.some_ne_none r ∘ Eq.symm))⟩
  refine ⟨fun bs hat hty hafter hctr hval hadd hvec => ?_, fun before hp hqn hs1 hv hq hstate hsus ho hs hw hover => ?_⟩
  · obtain ⟨pa, rfl⟩ := read_of_atPacket hat
    obtain ⟨ho, hs, -⟩ := standing_of_atPacket hat
    have hty' : (bs.getD 0 0).toNat = 6 := congrArg BitVec.toNat hty
    have hfl : numAt bs 1 1 = (bs.getD 1 0).toNat := numAt_one bs 1
    have hle := hfl ▸ signal_flags_le bs ((numAt_one bs 0).trans hty') (ok_of_atPacket hat)
    obtain ⟨h0, h1, h2⟩ := flags_testBit (bs.getD 1 0).toNat
    have hq : s.queue? p q = some h := by rw [← State.queue_countBytes s p q pa 64]; exact queue_of_atPacket hat
    refine key _ (State.countBytes_readOnly ..) hq hs ho (State.noUpdateOwed_countBytes howed p pa 64) ?_
    show execSignal p q s = _
    rw [execSignal, if_pos (unit_of_atPacket hat), packet_of_atPacket hat 6 _ hty', State.signalPacket]
    simp only [hfl, h0, h1, h2 hle, hafter, Nat.zero_ne_one, decide_false, Bool.false_eq_true, if_false, decide_eq_true_eq, hctr, hval, hadd, hvec]
    rfl
  · subst hs1
    have hqueue : s1.queue? p q = some h := by rw [State.queue?, hv]; exact hq
    have hruns : v.runs = true := by rw [Part.runs, hstate, hsus]; rfl
    have hall : v.replays.all (fun y => !(before.contains y.num)) = true := by
      simpa only [List.all_eq_true, Bool.not_eq_true', ← Bool.not_eq_true, List.contains_iff_mem] using hover
    refine key _ (.rfl _ s1) hqueue hs ho howed ?_
    have hexec : exec (.signalAfterReplays p q) s1 = .next (s1.signalAfter p q) := if_pos ⟨hp, hqn⟩
    rw [hexec]
    simp only [State.signalAfter, hv, hqueue, ho, hw, hruns, hall, List.isEmpty_nil, Bool.not_true, Bool.false_eq_true, if_false, and_self, if_true]

/-! ## HCOPY -/

/-- What is parsed, whatever comes of the write to the header, leaves the regions, and the partition stands. -/
theorem State.parsed_frame (s : State) (p q : Nat) :
    (∀ r, (s.parsed p q).reg r = s.reg r) ∧ ((s.part? p).isSome → ((s.parsed p q).part? p).isSome) := by
  cases hq : s.queue? p q with
  | none => rw [show s.parsed p q = s by simp only [State.parsed, hq]]; exact ⟨fun _ => rfl, id⟩
  | some h =>
    cases hs : h.stopped with
    | true => rw [show s.parsed p q = s by simp only [State.parsed, hq, hs, if_true]]; exact ⟨fun _ => rfl, id⟩
    | false =>
      obtain ⟨hreg, g, hg, -⟩ := s.parsed_cons p q h hq hs
      refine ⟨hreg, fun _ => ?_⟩
      obtain ⟨v, hv, -⟩ := Option.bind_eq_some_iff.1 hg
      rw [hv]; rfl

/-- What a copy of which no access is held does (R134). -/
theorem State.hcopyCompletion_eq {s : State} {p q k : Nat} {v : Part} {j : HJob} (hv : s.part? p = some v) (hstate : v.state = .ready)
    (hsus : v.suspending = none) (hj : v.jobs.find? (fun j => j.queue == q) = some j) (hf : j.fault = none) :
    s.hcopyCompletion p q k = if k < j.sectors ∧ !(j.done.contains k) then s.jobSector p j k else if j.done.length = j.sectors then s.jobEnd p j else s := by
  have hruns : v.runs = true := by rw [Part.runs, hstate, hsus]; rfl
  have hj' : { j with fault := none } = j := by rw [← hf]
  simp only [State.hcopyCompletion, hv, Option.bind_some, hj, Option.any_some, hruns, Bool.not_true, Bool.false_eq_true, if_false, hf, State.pauseAt, hj']

/-- The end of a copy whose counter has been updated. -/
def State.jobEnded (s : State) (p : Nat) (j : HJob) : State := if j.wait then (s.dropJob p j).parsed p j.queue else s.dropJob p j

theorem State.jobEnd_eq {s s2 : State} {p : Nat} {j : HJob}
    (hupdate : (if j.ctr = 0 then (s, .ok ()) else s.updateCounter p j.ctr 1 true) = (s2, .ok ()))
    (hturn : j.ctr = 0 ∨ s.updatesDone (if j.wait then s.pkg.msgCount else j.num) = true) : s.jobEnd p j = s2.jobEnded p j := by
  unfold State.jobEnd State.jobEnded
  by_cases hc : j.ctr = 0
  · rw [if_pos hc] at hupdate
    cases hupdate
    rw [if_pos hc]
  · rw [if_neg hc] at hupdate
    simp only [if_neg hc, hturn.resolve_left hc, hupdate, Bool.not_true, Bool.false_eq_true, if_false]

theorem State.part_dropJob {s : State} {p : Nat} {v : Part} (j : HJob) (hv : s.part? p = some v) :
    (s.dropJob p j).part? p = some { v with jobs := v.jobs.filter (fun x => x.num != j.num) } := by
  rw [State.dropJob, State.part_modPart, if_pos rfl, hv]; rfl

/-- What the update of a copy's counter leaves. -/
theorem State.written_of_jobUpdate {s s2 : State} {p : Nat} {j : HJob}
    (hupdate : (if j.ctr = 0 then (s, .ok ()) else s.updateCounter p j.ctr 1 true) = (s2, .ok ())) : State.Written (xdWho p) s s2 := by
  split at hupdate
  · cases hupdate; exact State.written_of_readOnly (.rfl _ s)
  · exact State.updateCounter_written hupdate

/-- R134: the XD copy engine moves a sector, and ends a copy. -/
theorem hcopyMoves : Claims.HcopyMoves := by
  intro s p q k v j hp hqn hv hstate hsus hj hf
  have hexec : exec (.hcopyCompletion p q k) s = .next (s.hcopyCompletion p q k) := if_pos ⟨hp, hqn⟩
  rw [State.hcopyCompletion_eq hv hstate hsus hj hf] at hexec
  refine ⟨fun s1 s2 bs hk hd hread hwrite => ?_, fun s2 hk hlen hupdate hturn => ?_⟩
  · rw [if_pos ⟨hk, by rw [Bool.not_eq_true', ← Bool.not_eq_true, List.contains_iff_mem]; exact hd⟩] at hexec
    have hw : State.Written (xdWho p) s s2 :=
      State.written_trans (State.written_of_readOnly (State.readVA_readOnly _ _ _ _ _ _ hread)) (State.writeVA_written hwrite)
    have hmove : s.jobSector p j k = s2.modPart p fun v => { v with jobs := v.jobs.map fun x =>
        if x.num = j.num then { x with done := natInsert x.done k, fault := none } else x } := by
      have hread' : s.readVA (xdWho p) (j.src + (j.lo k - j.dst)) (j.hi k - j.lo k) = (s1, .ok bs) := hread
      have hwrite' : s1.writeVA (xdWho p) (j.lo k) bs = (s2, .ok ()) := hwrite
      simp only [State.jobSector, hread', hwrite']
    obtain ⟨m, hm⟩ := hw.part p
    have hu : s2.part? p = some { v with meter := m } := by rw [hv] at hm; exact hm
    refine ⟨_, _, _, hexec.trans (congrArg _ hmove), State.modPart_mem .., hu, ((State.part_modPart ..).trans (if_pos rfl)).trans (congrArg _ hu), rfl,
      fun r => ?_⟩
    · rw [State.reg_modPart]; exact hw.other r (Option.some_ne_none r ∘ Eq.symm)
  · rw [if_neg (by omega), if_pos hlen, State.jobEnd_eq hupdate hturn] at hexec
    have hw := State.written_of_jobUpdate hupdate
    obtain ⟨m, hm⟩ := hw.part p
    have hu : s2.part? p = some { v with meter := m } := by rw [hv] at hm; exact hm
    have hd := State.part_dropJob j hu
    have hreg (r : Nat) : (s2.dropJob p j).reg r = s.reg r := (State.reg_modPart ..).trans (hw.other r (Option.some_ne_none r ∘ Eq.symm))
    have hmem : (s2.dropJob p j).mem = s2.mem := State.modPart_mem ..
    have hjq : j.queue = q := by simpa using List.find?_some hj
    cases hwait : j.wait with
    | false =>
      rw [State.jobEnded, hwait, if_neg Bool.false_ne_true] at hexec
      exact ⟨_, _, hexec, hd, hreg, fun _ => ⟨hmem, rfl⟩, fun h base hw => absurd hw (by decide)⟩
    | true =>
      rw [State.jobEnded, hwait, if_pos rfl, hjq] at hexec
      obtain ⟨hregs, hsome⟩ := (s2.dropJob p j).parsed_frame p q
      obtain ⟨w, hw'⟩ := Option.isSome_iff_exists.1 (hsome (by rw [hd]; rfl))
      refine ⟨_, w, hexec, hw', fun r => (hregs r).trans (hreg r), fun hw => absurd hw (by decide), fun h base _ hq hs ho hl => ?_⟩
      have hq2 : (s2.dropJob p j).queue? p q = some h := by rw [State.queue?, hd]; exact hq
      have hl2 : Claims.HeaderLies (s2.dropJob p j) p h base :=
        (s2.modPart_queueWork p (fun v => { v with jobs := v.jobs.filter (fun x => x.num != j.num) }) (fun _ => rfl) fun _ => rfl).headerLies h h base rfl rfl hl
      obtain ⟨l, m', hpart⟩ := State.part_parsed hq2 hs ho hl2 _ hd
      have hparsed := State.parsed_parsed hq2 hs ho hl2
      rw [hmem] at hparsed
      rw [hpart] at hw'
      cases hw'
      exact ⟨hparsed, rfl⟩

/-- Settles O39: a SIGNAL and the end of an HCOPY are an update of a counter and then a parsed packet, and a sector is a read and a write. -/
theorem signalsAndCopies : Obligations.SignalsAndCopies := ⟨signalPerformed, hcopyMoves⟩

end Sys2Proof.Machine

/-!
O54, metering windows and usage records (R149 to R152).
-/
namespace Sys2Proof.Machine

/-! ## METER_WINDOW -/

/-- Counting the residence of a die changes meters, and the tick of each placement up to which it is counted (R150). -/
theorem State.countResid_frame (s : State) (die : Nat) :
    (s.countResid die).pkg = s.pkg ∧ (s.countResid die).mem = s.mem ∧ ∀ r, ((s.countResid die).reg r).seq = (s.reg r).seq := by
  refine List.foldlRecOn _ _ (motive := fun t : State => t.pkg = s.pkg ∧ t.mem = s.mem ∧ ∀ r, (t.reg r).seq = (s.reg r).seq) ⟨rfl, rfl, fun _ => rfl⟩ ?_
  rintro t ⟨hpkg, hmem, hseq⟩ r -
  split
  · next pl _ =>
    have hr := t.meterResid_readOnly (xdWho 0) pl.part die pl.since t.tick
    refine ⟨hr.pkg.trans hpkg, hr.mem.trans hmem, fun x => ?_⟩
    rw [State.reg_modReg]
    split
    · next hx => rw [hx, hr.reg]; exact hseq r
    · rw [hr.reg]; exact hseq x
  · exact ⟨hpkg, hmem, hseq⟩

/-- A partition whose meter has taken the increments of a die in a window. -/
def Part.meterClosed (die n : Nat) (ok : Bool) (v : Part) : Part := { v with meter := v.meter.close die n ok }

/-- The state in which every partition's has. -/
def State.metersClosed (s : State) (die n : Nat) (ok : Bool) : State := { s with parts := s.parts.map fun e => (e.1, e.2.meterClosed die n ok) }

theorem State.part_metersClosed (s : State) (die n : Nat) (ok : Bool) (p : Nat) :
    (s.metersClosed die n ok).part? p = (s.part? p).map (Part.meterClosed die n ok) :=
  spFind_map s.parts (Part.meterClosed die n ok) p

/-- R149, R150: a window's message adds what the die has counted in it. -/
theorem windowCloses : Claims.WindowCloses := by
  intro s die ok hdie hdue n
  obtain ⟨hpkg, hmem, hseq⟩ := s.countResid_frame die
  have hexec : exec (.meterWindow die ok) s = .next (s.meterWindow die ok) := if_pos hdie
  have hopen : ¬ s.tick / ticksPerMs ≤ n := fun h => absurd hdue (Nat.not_lt_of_le h)
  have hstep : s.meterWindow die ok = ((s.countResid die).metersClosed die n ok).modPkg fun k =>
      { k with windows := spInsert k.windows die (n + 1), log := if ok then k.log else k.log ++ [.badWindow die s.tick] } := if_neg hopen
  rw [hstep] at hexec
  clear hstep
  generalize s.countResid die = s1 at *
  refine ⟨_, hexec, ?_, ?_, hmem, hseq, fun p u hu => ?_⟩
  · rw [State.modPkg_pkg, spGet, spFind_spInsert, if_pos rfl]; rfl
  · rw [State.modPkg_pkg, State.metersClosed, hpkg]
    cases ok
    · rfl
    · exact (List.append_nil _).symm
  · refine ⟨u.meterClosed die n ok, ?_, rfl, rfl, fun k => spFind_spErase .., rfl⟩
    rw [State.part?, State.modPkg_parts, ← State.part?, State.part_metersClosed, hu]
    rfl

/-! ## The bytes of a usage record -/

/-- A part of a list of bytes, by what stands before and behind it. -/
theorem drop_take_of_eq_append {α : Type} {l a b c : List α} {i n : Nat} (h : l = a ++ (b ++ c)) (ha : a.length = i) (hb : b.length = n) :
    (l.drop i).take n = b := by
  rw [h, List.drop_left' ha, List.take_left' hb]

/-- An entry of a list whose entries are all written in as many bytes. -/
theorem drop_take_flatMap {α : Type} (f : α → List Byte) (k : Nat) (hf : ∀ a, (f a).length = k) (l : List α) :
    ∀ i (h : i < l.length), ((l.flatMap f).drop (k * i)).take k = f l[i] := by
  induction l with
  | nil => exact fun i h => absurd h (Nat.not_lt_zero i)
  | cons a l ih =>
    intro i h
    rw [List.flatMap_cons]
    cases i with
    | zero => exact drop_take_of_eq_append (a := []) rfl rfl (hf a)
    | succ i =>
      rw [Nat.mul_succ, Nat.add_comm, ← List.drop_drop, List.drop_left' (hf a)]
      exact ih i (Nat.lt_of_succ_lt_succ h)

theorem length_flatMap_toBytes (l : List Word) : (l.flatMap fun w => toBytes 8 w.toNat).length = 8 * l.length := by
  rw [List.length_flatMap, List.map_congr_left fun w _ => toBytes_length 8 w.toNat, List.map_const', List.sum_replicate, smul_eq_mul, Nat.mul_comm]

/-- The fixed fields before the counters of a record. -/
def Meter.recordStart (m : Meter) (p : Nat) (fin : Bool) (tend : Nat) (c : Counters) : List Byte :=
  toBytes 1 1 ++ toBytes 1 p ++ toBytes 2 (m.first.toNat + 2 * fin.toNat + 4 * (m.wasSuspended tend).toNat) ++ toBytes 4 c.preempt.toNat ++
    (toBytes 8 m.seq ++ toBytes 8 tend)

theorem Meter.recordStart_length (m : Meter) (p : Nat) (fin : Bool) (tend : Nat) (c : Counters) : (m.recordStart p fin tend c).length = 24 := by
  simp only [Meter.recordStart, List.length_append, toBytes_length]

/-- The counters of a record behind those of the slots. -/
def Counters.others (c : Counters) : List Byte :=
  toBytes 8 c.void.toNat ++ toBytes 8 c.hbm.toNat ++ toBytes 8 c.vat.toNat ++ toBytes 8 c.fabric.toNat ++ toBytes 8 c.resid.toNat

theorem Counters.others_length (c : Counters) : c.others.length = 40 := by simp only [Counters.others, List.length_append, toBytes_length]

theorem Counters.bytes_eq (c : Counters) : c.bytes = c.slots.toList.flatMap (fun w => toBytes 8 w.toNat) ++ c.others := by
  simp only [Counters.bytes, Counters.others, List.flatMap_append, List.flatMap_cons, List.flatMap_nil, List.append_nil, List.append_assoc]

theorem Counters.slotBytes_length (c : Counters) : (c.slots.toList.flatMap fun w => toBytes 8 w.toNat).length = 48 := by
  rw [length_flatMap_toBytes, Vector.length_toList]

theorem Meter.recordHead_eq (m : Meter) (p : Nat) (fin : Bool) (tend : Nat) (c : Counters) : m.recordHead p fin tend c =
    m.recordStart p fin tend c ++ (c.slots.toList.flatMap (fun w => toBytes 8 w.toNat) ++ (c.others ++ toBytes 48 m.prev.toNat)) := by
  simp only [Meter.recordHead, Meter.recordStart, c.bytes_eq, List.append_assoc]

theorem Meter.recordHead_length (m : Meter) (p : Nat) (fin : Bool) (tend : Nat) (c : Counters) : (m.recordHead p fin tend c).length = 160 := by
  simp only [Meter.recordHead_eq, List.length_append, m.recordStart_length, c.slotBytes_length, c.others_length, toBytes_length]

section

variable (m : Meter) (p step : Nat) (fin : Bool) (tend : Nat) (c : Counters)

theorem Meter.record_eq : m.record p step fin tend c = m.recordHead p fin tend c ++
    (bigBytes (Config.sign 1 (m.recordHead p fin tend c) step).1 ++ bigBytes (Config.sign 1 (m.recordHead p fin tend c) step).2) := by
  rw [Meter.record, List.append_assoc]

theorem Meter.record_length : (m.record p step fin tend c).length = 256 := by
  simp only [Meter.record_eq, List.length_append, m.recordHead_length, bigBytes, List.length_reverse, toBytes_length]

theorem Meter.take_record : (m.record p step fin tend c).take 160 = m.recordHead p fin tend c := by
  rw [Meter.record_eq, List.take_left' (m.recordHead_length ..)]

theorem Meter.drop_record : (m.record p step fin tend c).drop 160 =
    bigBytes (Config.sign 1 (m.recordHead p fin tend c) step).1 ++ bigBytes (Config.sign 1 (m.recordHead p fin tend c) step).2 := by
  rw [Meter.record_eq, List.drop_left' (m.recordHead_length ..)]

/-- A field of a record that lies in its head. -/
theorem Meter.record_field (i n : Nat) (h : i + n ≤ 160) : ((m.record p step fin tend c).drop i).take n = ((m.recordHead p fin tend c).drop i).take n := by
  have hlen := m.recordHead_length p fin tend c
  rw [Meter.record_eq, List.drop_append_of_le_length (by omega), List.take_append_of_le_length (by rw [List.length_drop]; omega)]

theorem Meter.record_slot (i : Fin 6) : ((m.record p step fin tend c).drop (0x18 + 8 * i.val)).take 8 = toBytes 8 c.slots[i].toNat := by
  have hi := i.isLt
  have hlen := c.slotBytes_length
  have hslot := drop_take_flatMap (fun w : Word => toBytes 8 w.toNat) 8 (fun w => toBytes_length 8 w.toNat) c.slots.toList i.val (by simp)
  rw [m.record_field p step fin tend c _ 8 (by omega), m.recordHead_eq, ← List.drop_drop, List.drop_left' (m.recordStart_length ..),
    List.drop_append_of_le_length (by omega), List.take_append_of_le_length (by rw [List.length_drop]; omega), hslot, Vector.getElem_toList]
  rfl

end

/-! ## USAGE_RECORD -/

/-- The state in which a due record is written. -/
theorem State.usageRecord_eq {s : State} {p : Nat} {v : Part} (hv : s.part? p = some v) (hdue : v.meter.nextDue ≤ s.tick) (hf : v.forming = none) :
    s.usageRecord p = s.writeUsage p v.meter false v.meter.nextDue (v.meter.totalsAt (v.meter.nextDue - ticksPerMs)) := by
  simp only [State.usageRecord, hv, Meter.due, hdue, hf, decide_true, Option.isNone_none, and_self, if_true]

/-- Memory after a record has been written that the host takes. -/
theorem State.writeUsage_mem {s : State} {p : Nat} {m : Meter} {fin : Bool} {tend : Nat} {c : Counters} (h : s.ringDenied m = false) :
    (s.writeUsage p m fin tend c).mem =
      (s.mem.writeN (hostBase + m.ring + 64 + 256 * (m.seq % m.ringn)) (m.record p s.steps fin tend c)).writeN (hostBase + m.ring) (toBytes 8 (m.seq + 1)) := by
  rw [State.writeUsage, State.modPart_mem, h]; rfl

/-- R151, R152: a record that is due. -/
theorem usageRecorded : Claims.UsageRecorded := by
  intro s p v hp hv hdue hf m c
  have hexec : exec (.usageRecord p) s = .next (s.usageRecord p) := if_pos hp
  have hrecord : s.usageRecord p = s.writeUsage p m false m.nextDue c := State.usageRecord_eq hv hdue hf
  rw [hrecord] at hexec
  have hpart : ∃ w, (s.writeUsage p m false m.nextDue c).part? p = some w ∧ w.meter.seq = m.seq + 1 ∧ w.meter.first = false ∧
      w.meter.nextDue = m.nextDue / 10 ^ 9 * 10 ^ 9 + 10 ^ 9 ∧ w.meter.prev = sha384 (m.record p s.steps false m.nextDue c) := by
    have hv1 : (if s.ringDenied m then s else s.modMem fun x => (x.writeN (hostBase + m.ring + 64 + 256 * (m.seq % m.ringn))
        (m.record p s.steps false m.nextDue c)).writeN (hostBase + m.ring) (toBytes 8 (m.seq + 1))).part? p = some v := by split <;> exact hv
    exact ⟨_, ((State.part_modPart ..).trans (if_pos rfl)).trans (congrArg _ hv1), rfl, rfl, rfl, rfl⟩
  obtain ⟨w, hw, hseq, hfirst, hnext, hprev⟩ := hpart
  have hregs : (s.writeUsage p m false m.nextDue c).regs = s.regs := by rw [State.writeUsage, State.modPart_regs]; split <;> rfl
  have hstart := m.recordStart_length p false m.nextDue c
  have hslots := c.slotBytes_length
  refine ⟨_, w, m.record p s.steps false m.nextDue c, hexec, hw, hseq, hfirst, hnext, hprev, m.record_length .., ?_, ?_, m.record_slot p s.steps false m.nextDue c, ?_, ?_, ?_,
    hregs, fun hden => ?_, fun hden => ?_⟩
  · rw [← List.drop_zero (l := m.record ..), m.record_field p s.steps false _ c 0 8 (by decide), m.recordHead_eq, Meter.recordStart, List.append_assoc]
    exact drop_take_of_eq_append (a := []) rfl rfl (by simp)
  · rw [m.record_field p s.steps false _ c 8 16 (by decide), m.recordHead_eq, Meter.recordStart, List.append_assoc]
    exact drop_take_of_eq_append (b := toBytes 8 m.seq ++ toBytes 8 m.nextDue) rfl (by simp) (by simp)
  · rw [m.record_field p s.steps false _ c 0x48 40 (by decide), m.recordHead_eq, ← List.append_assoc]
    exact drop_take_of_eq_append rfl (by rw [List.length_append, hstart, hslots]) c.others_length
  · rw [m.record_field p s.steps false _ c 112 48 (by decide), m.recordHead_eq, ← List.append_assoc, ← List.append_assoc]
    exact drop_take_of_eq_append (c := []) (by rw [List.append_nil])
      (by rw [List.length_append, List.length_append, hstart, hslots, c.others_length]) (toBytes_length ..)
  · rw [m.take_record, m.drop_record]; rfl
  · rw [State.writeUsage, State.modPart_mem, hden]; rfl
  · intro base slot
    have hmem := State.writeUsage_mem (p := p) (fin := false) (tend := m.nextDue) (c := c) hden
    have hlen := m.record_length p s.steps false m.nextDue c
    have hbase : base = hostBase + m.ring := rfl
    have hslot : slot = base + 64 + 256 * (m.seq % m.ringn) := rfl
    rw [← hbase, ← hslot] at hmem
    refine ⟨?_, ?_, fun x h1 h2 => ?_⟩
    · rw [hmem, Memory.readN_congr _ (s.mem.writeN slot (m.record p s.steps false m.nextDue c)) 256 slot
        fun i hi => Memory.read_writeN_out _ _ _ _ _ (by omega)]
      conv_lhs => rw [← hlen]
      exact Memory.readN_writeN ..
    · rw [hmem]; exact Memory.readN_writeN _ base (toBytes 8 (m.seq + 1))
    · rw [hmem, Memory.read_writeN_out _ _ _ _ _ h2, Memory.read_writeN, if_neg (by rw [hlen]; exact h1)]

/-- Settles O54: a window's message is one change of every meter, and a record's fields lie one behind the other in its bytes. -/
theorem metering : Obligations.Metering := ⟨windowCloses, usageRecorded⟩

end Sys2Proof.Machine

/-!
O27, the messages of a sequencer: tag.sig, fold and the landing slots (R147, R326 to R328, R333).
-/
namespace Sys2Proof.Machine

/-! ## What an engine command leaves of its sequencer -/

/-- The sequencer past an engine command of `n` bytes that acquires or not. -/
theorem Seq.begun_advance (q : Seq) (acq : BitVec 1) (h : Hold) (n : Nat) :
    ({ q.begun with holds := q.begun.holds ++ (if acq == 1 then [h] else []) } : Seq).advance n =
      Claims.standsAt { q with holds := Claims.holdsAfter q acq h } (q.pc + BitVec.ofNat 64 n) := by
  simp only [Seq.advance, Seq.goto, Seq.begun, Claims.standsAt, Claims.holdsAfter, beq_iff_eq]

theorem Seq.advance_eq_standsAt (q : Seq) (n : Nat) : q.advance n = Claims.standsAt q (q.pc + BitVec.ofNat 64 n) := rfl

theorem State.tags_mod (s : State) (f : Seq → Seq) : ((s.mod f).reg s.cur).tags = (s.reg s.cur).tags := by
  rw [State.reg_mod_cur]

theorem State.mod_mod (s : State) (f g : Seq → Seq) : (s.mod f).mod g = s.mod fun q => g (f q) := State.modSeq_modSeq ..

/-! ## The landing slots -/

/-- R327, R328: commit and land.test. -/
theorem landingSlots : Claims.LandingSlots := by
  intro s d e n
  have hcommit : exec (.commit d n) s = execCommit d n s := rfl
  refine ⟨fun v hv => ⟨s.mod fun q => ((q.setSlot n .empty).gw d v).advance 4, ?_, ?_⟩,
    fun hv => ⟨s.wait, ?_, s.mod_seqOnly fun q => { q with run := .waiting, waitFrom := q.waitFrom.or (some s.tick) }⟩, fun hv ht => ⟨_, ?_, s.trap_seqOnly _ _ _ ht⟩,
    ⟨_, rfl, ?_⟩, fun v m => Seq.slot_setSlot ..⟩
  · rw [hcommit, execCommit, hv]
  · have h := s.mod_seqOnly fun q => ((q.setSlot n .empty).gw d v).advance 4
    rw [Seq.advance_eq_standsAt, Seq.gw_pc, Seq.setSlot_pc] at h
    exact h
  · rw [hcommit, execCommit, hv]
  · rw [hcommit, execCommit, hv]; rfl
  · have h := s.mod_seqOnly fun q => (q.kw e (match s.seq.slot n with | .full _ => true | _ => false)).advance 4
    rw [Seq.advance_eq_standsAt, Seq.kw_pc] at h
    cases hv : s.seq.slot n <;> rw [hv] at h <;> exact h

/-! ## tag.sig -/

theorem fieldN_eq_extract {w : Nat} (x : BitVec w) (lo n : Nat) : fieldN x lo n = (x.extractLsb' lo n).toNat := by
  rw [fieldN, BitVec.extractLsb'_toNat, Nat.shiftRight_eq_div_pow]

/-- A region that a number of R326 names: its own, or a lane of the sender's stage. -/
theorem sigTarget_eq {v : Part} {pl : Placement} {x r : Nat}
    (h : (x = r ∧ r < 192) ∨ (0x100 ≤ x ∧ x ≤ 0x12F ∧ ∃ g, v.stageOf pl = some g ∧ g.regions[x - 0x100]? = some r)) : sigTarget v pl x = some r := by
  rcases h with ⟨rfl, hr⟩ | ⟨h1, h2, g, hg, hr⟩
  · exact if_pos hr
  · rw [sigTarget, if_neg (by omega), if_pos ⟨h1, h2⟩, hg]; exact hr

/-- Whether a stage is the one that a partition has placed on a region. -/
def State.placedAt (s : State) (pl : Placement) (r : Nat) (t : Standing) : Bool :=
  match (s.reg r).place with
  | some x => x.part == pl.part && x.replay == t.replay && x.stage == t.stage
  | none => false

/-- R326: a signal is aimed at a stage in scope, and at the placed one if that is in scope. -/
theorem State.sigStage_spec {s : State} {v : Part} {pl : Placement} {scope r : Nat}
    (h : (v.standingAt r).any (inScope scope s.cur r pl) = true) :
    ∃ g ∈ v.standingAt r, inScope scope s.cur r pl g = true ∧ s.sigStage v pl scope r = some g ∧
      ∀ t ∈ v.standingAt r, inScope scope s.cur r pl t = true → s.placedAt pl r t = true → s.placedAt pl r g = true := by
  have hstage : s.sigStage v pl scope r =
      (((v.standingAt r).filter (inScope scope s.cur r pl)).find? (s.placedAt pl r)).or ((v.standingAt r).filter (inScope scope s.cur r pl)).head? := rfl
  rw [hstage]
  cases hf : ((v.standingAt r).filter (inScope scope s.cur r pl)).find? (s.placedAt pl r) with
  | some g =>
    obtain ⟨hg, hs⟩ := List.mem_filter.1 (List.mem_of_find?_eq_some hf)
    exact ⟨g, hg, hs, rfl, fun _ _ _ _ => List.find?_some hf⟩
  | none =>
    have hnone (t : Standing) (ht : t ∈ v.standingAt r) (hs : inScope scope s.cur r pl t = true) (hp : s.placedAt pl r t = true) : False :=
      List.find?_eq_none.1 hf t (List.mem_filter.2 ⟨ht, hs⟩) hp
    obtain ⟨t, ht, hs⟩ := List.any_eq_true.1 h
    obtain ⟨g, hg⟩ : ∃ g, ((v.standingAt r).filter (inScope scope s.cur r pl)).head? = some g :=
      Option.isSome_iff_exists.1 (List.isSome_head?.2 (List.ne_nil_of_mem (List.mem_filter.2 ⟨ht, hs⟩)))
    obtain ⟨hmem, hscope⟩ := List.mem_filter.1 (List.mem_of_head? hg)
    exact ⟨g, hmem, hscope, hg, fun t ht hs hp => (hnone t ht hs hp).elim⟩

theorem State.placedAt_iff {s : State} {pl : Placement} {r : Nat} {t : Standing} {y : Placement} (hy : (s.reg r).place = some y) (hp : y.part = pl.part) :
    s.placedAt pl r t = true ↔ t.replay = y.replay ∧ t.stage = y.stage := by
  simp only [State.placedAt, hy, hp, beq_self_eq_true, Bool.true_and, Bool.and_eq_true, beq_iff_eq]
  exact and_congr eq_comm eq_comm

/-- A signal that is sent joins the network, and leaves all but the sequencer. -/
theorem State.sendSignal_spec (s : State) (pl : Placement) (dst tag mode : Nat) (acq : BitVec 1) (target : Option Standing) :
    (s.sendSignal pl dst tag mode (acq == 1) target).pkg = { s.pkg with msgCount := s.pkg.msgCount + 1, signals := s.pkg.signals ++
      [{ part := pl.part, src := s.cur, dst := dst, tag := tag, mode := mode, num := s.pkg.msgCount, replay := pl.replay
         target := target.map fun t => (t.replay, t.stage) }] } ∧
    (s.sendSignal pl dst tag mode (acq == 1) target).seq =
      Claims.standsAt { s.seq with holds := Claims.holdsAfter s.seq acq (.signal dst s.pkg.msgCount) } (s.seq.pc + 8) ∧
    ((s.sendSignal pl dst tag mode (acq == 1) target).reg s.cur).tags = (s.reg s.cur).tags ∧
    (∀ x, x ≠ s.cur → (s.sendSignal pl dst tag mode (acq == 1) target).reg x = s.reg x) ∧
    (s.sendSignal pl dst tag mode (acq == 1) target).mem = s.mem ∧ (s.sendSignal pl dst tag mode (acq == 1) target).parts = s.parts := by
  refine ⟨rfl, ?_, ?_, fun x hx => State.reg_mod_other _ _ x hx, rfl, rfl⟩
  · rw [State.sendSignal, State.seq_mod]; exact Seq.begun_advance ..
  · exact State.tags_mod (s.modPkg _) _

/-- The frame of a signal to a rank of another package (R147). -/
def State.signalFrame (s : State) (v : Part) (pl : Placement) (e : Word) (t : BitVec 8) (mode : BitVec 1) : RankFrame :=
  { id := v.nextFrame, src := s.cur, package := rankPackage e, key := rankKey e, region := rankRegion e, body := .signal t mode (BitVec.ofNat 8 s.cur)
    copy := none, replay := pl.replay, after := (s.reg s.cur).pushesTo e }

/-- A frame that is sent joins the partition's, and leaves all but the sequencer and a meter. -/
theorem State.sendRankSignal_spec {s : State} {v : Part} {pl : Placement} (hpl : (s.reg s.cur).place = some pl) (hv : s.part? pl.part = some v) (e : Word)
    (t : BitVec 8) (mode acq : BitVec 1) :
    (∃ w, (s.sendRankSignal pl.part v e t mode (acq == 1)).part? pl.part = some w ∧ w.frames = v.frames ++ [s.signalFrame v pl e t mode]) ∧
    (s.sendRankSignal pl.part v e t mode (acq == 1)).seq =
      Claims.standsAt { s.seq with holds := Claims.holdsAfter s.seq acq (.frame v.nextFrame) } (s.seq.pc + 8) ∧
    ((s.sendRankSignal pl.part v e t mode (acq == 1)).reg s.cur).tags = (s.reg s.cur).tags ∧
    (∀ x, x ≠ s.cur → (s.sendRankSignal pl.part v e t mode (acq == 1)).reg x = s.reg x) ∧
    (s.sendRankSignal pl.part v e t mode (acq == 1)).mem = s.mem ∧ (s.sendRankSignal pl.part v e t mode (acq == 1)).pkg = s.pkg := by
  set body : RankBody := .signal t mode (BitVec.ofNat 8 s.cur)
  set s1 := s.modPart pl.part fun v => { v with nextFrame := v.nextFrame + 1, frames := v.frames ++
    [{ id := v.nextFrame, src := s.cur, package := rankPackage e, key := rankKey e, region := rankRegion e, body := body, copy := none
       replay := ((s.reg s.cur).place.map Placement.replay).getD 0, after := (s.reg s.cur).pushesTo e }] } with hs1
  have hmeter : State.ReadOnly (xdWho pl.part) s1 (s.sendFrame pl.part s.cur e body none ((s.reg s.cur).pushesTo e)) := State.meter_readOnly ..
  have hreg (x : Nat) : (s.sendFrame pl.part s.cur e body none ((s.reg s.cur).pushesTo e)).reg x = s.reg x :=
    (hmeter.other x (Option.some_ne_none x ∘ Eq.symm)).trans (s.reg_modPart ..)
  have hcur : (s.sendFrame pl.part s.cur e body none ((s.reg s.cur).pushesTo e)).cur = s.cur := hmeter.cur.trans (s.modPart_cur ..)
  have hseq : (s.sendFrame pl.part s.cur e body none ((s.reg s.cur).pushesTo e)).seq = s.seq := by rw [State.seq, hcur, hreg, State.seq]
  refine ⟨?_, ?_, ?_, fun x hx => ?_, ?_, ?_⟩
  · obtain ⟨m, hm⟩ := hmeter.part pl.part
    rw [hs1, State.part_modPart, if_pos rfl, hv, hpl] at hm
    exact ⟨_, hm, rfl⟩
  · rw [State.sendRankSignal, State.seq_mod, hseq]; exact Seq.begun_advance ..
  · have htags := State.tags_mod (s.sendFrame pl.part s.cur e body none ((s.reg s.cur).pushesTo e)) fun q =>
      ({ q.begun with holds := q.begun.holds ++ (if acq == 1 then [.frame v.nextFrame] else []) } : Seq).advance 8
    rw [hcur, hreg] at htags
    exact htags
  · exact (State.reg_mod_other _ _ x (hcur.symm ▸ hx)).trans (hreg x)
  · exact hmeter.mem.trans (State.modPart_mem ..)
  · exact hmeter.pkg.trans (State.modPart_pkg ..)

theorem Region.mem_pushesTo (g : Region) (e : Word) (n : Nat) :
    n ∈ g.pushesTo e ↔ ∃ c ∈ g.copies, c.index = n ∧ c.rank = some e.toNat ∧ c.done.length ≠ c.len / 32 := by
  simp only [Region.pushesTo, List.mem_map, List.mem_filter, Bool.and_eq_true, beq_iff_eq, bne_iff_ne]
  exact ⟨fun ⟨c, ⟨hc, hr, hd⟩, hn⟩ => ⟨c, hc, hn, hr, hd⟩, fun ⟨c, hc, hn, hr, hd⟩ => ⟨c, ⟨hc, hr, hd⟩, hn⟩⟩

section

variable {s : State} {t : BitVec 8} {a : BitVec 5} {mode acq rel : BitVec 1} {scope k : BitVec 3} {pl : Placement} {v : Part}
  (hk : s.seq.kr k = true) (hheld : s.engineHeld s.cur = false) (hpl : (s.reg s.cur).place = some pl) (hv : s.part? pl.part = some v)
  (hrel : rel = 0 ∨ s.engineBusy s.cur = false)
include hk hheld hpl hv hrel

/-- tag.sig to a region is sent where a stage is in its scope. -/
theorem exec_tagSig_region {r : Nat} {g : Standing} (hx : ¬(0x400 ≤ (s.seq.gr a).toNat ∧ (s.seq.gr a).toNat ≤ 0x7FF))
    (hr : sigTarget v pl (s.seq.gr a).toNat = some r) (hg : s.sigStage v pl scope.toNat r = some g) :
    exec (.tagSig t a mode acq rel scope k) s = .next (s.sendSignal pl r t.toNat mode.toNat (acq == 1) (some g)) := by
  have hbusy : (rel == 1 && s.engineBusy s.cur) = false := by rcases hrel with h | h <;> rw [h] <;> simp
  show execTagSig t a mode acq rel scope k s = _
  rw [execTagSig, s.guarded_true k 8 _ hk]
  simp only [hheld, hpl, hv, hx, hr, hg, hbusy, Bool.false_eq_true, if_false]

/-- tag.sig to a rank is sent to a region of this package, or as a frame. -/
theorem exec_tagSig_rank (hx : 0x400 ≤ (s.seq.gr a).toNat ∧ (s.seq.gr a).toNat ≤ 0x7FF) (hscope : scope = 6)
    (he : rankValid (spGet 0 v.ranks ((s.seq.gr a).toNat - 0x400)) = true) :
    exec (.tagSig t a mode acq rel scope k) s =
      if rankPackage (spGet 0 v.ranks ((s.seq.gr a).toNat - 0x400)) = Config.packageId.toNat then
        .next (s.sendSignal pl (rankRegion (spGet 0 v.ranks ((s.seq.gr a).toNat - 0x400))) t.toNat mode.toNat (acq == 1) none)
      else .next (s.sendRankSignal pl.part v (spGet 0 v.ranks ((s.seq.gr a).toNat - 0x400)) t mode (acq == 1)) := by
  have hbusy : (rel == 1 && s.engineBusy s.cur) = false := by rcases hrel with h | h <;> rw [h] <;> simp
  show execTagSig t a mode acq rel scope k s = _
  rw [execTagSig, s.guarded_true k 8 _ hk]
  simp only [hheld, hpl, hv, hx, he, hscope, hbusy, and_self, if_true, Bool.not_true, bne_self_eq_false, Bool.false_eq_true, if_false]

end

/-- R147, R326: tag.sig. -/
theorem tagSigSends : Claims.TagSigSends := by
  intro s t a mode acq rel scope k pl v hk hheld hpl hv hrel x i after frame sends
  have key (r : Nat) (target : Option Standing) (hexec : exec i s = .next (s.sendSignal pl r t.toNat mode.toNat (acq == 1) target)) :
      sends r (target.map fun t => (t.replay, t.stage)) := by
    obtain ⟨hpkg, hseq, htags, hother, hmem, hparts⟩ := s.sendSignal_spec pl r t.toNat mode.toNat acq target
    exact ⟨_, hexec, hpkg, hseq, ⟨htags, hother, fun x => by rw [hmem]⟩, hparts⟩
  refine ⟨fun r hr hany => ?_, fun h1 h2 => ?_⟩
  · obtain ⟨g, hg, hscope, hstage, hplaced⟩ := State.sigStage_spec hany
    have hx : ¬(0x400 ≤ x ∧ x ≤ 0x7FF) := by rcases hr with ⟨rfl, hr⟩ | ⟨-, hr, -⟩ <;> omega
    refine ⟨g, hg, hscope, key r (some g) (exec_tagSig_region hk hheld hpl hv hrel hx (sigTarget_eq hr) hstage), fun y hy hpart hmatch => ?_⟩
    obtain ⟨h, hmem, hs, hrep, hst⟩ := hmatch
    exact (State.placedAt_iff hy hpart).1 (hplaced h hmem hs ((State.placedAt_iff hy hpart).2 ⟨hrep, hst⟩))
  · intro e he hscope
    have hexec : exec i s = if rankPackage e = Config.packageId.toNat then .next (s.sendSignal pl (rankRegion e) t.toNat mode.toNat (acq == 1) none)
        else .next (s.sendRankSignal pl.part v e t mode (acq == 1)) := exec_tagSig_rank hk hheld hpl hv hrel ⟨h1, h2⟩ hscope he
    refine ⟨fun hpack => ?_, fun hpack => ?_⟩
    · have hpack' : rankPackage e = Config.packageId.toNat := (fieldN_eq_extract ..).trans (congrArg BitVec.toNat hpack)
      rw [if_pos hpack', rankRegion, fieldN_eq_extract] at hexec
      exact key _ none hexec
    · have hpack' : ¬ rankPackage e = Config.packageId.toNat := fun h => hpack (BitVec.eq_of_toNat_eq ((fieldN_eq_extract ..).symm.trans h))
      rw [if_neg hpack'] at hexec
      obtain ⟨⟨w, hw, hframes⟩, hseq, htags, hother, hmem, hpkg⟩ := State.sendRankSignal_spec hpl hv e t mode acq
      exact ⟨_, w, _, hexec, hw, hframes, rfl, rfl, rfl, fieldN_eq_extract .., fieldN_eq_extract .., fieldN_eq_extract .., rfl,
        rfl, Region.mem_pushesTo _ e, hseq, ⟨htags, hother, fun x => by rw [hmem]⟩, hpkg⟩

/-! ## fold -/

theorem aligned_iff (n x : Nat) : aligned n x = true ↔ x % n = 0 := by rw [aligned, beq_iff_eq]

/-- The message of a fold at issue (R333). -/
def State.foldMsg (s : State) (a b c : BitVec 5) (op : BitVec 4) (r : BitVec 1) (slot : BitVec 4) (off : BitVec 20) (size : BitVec 2)
    (acq rel : BitVec 1) (scope k : BitVec 3) (p ea : Nat) (o : Nat × Nat) : FoldMsg :=
  { num := s.pkg.msgCount, part := p, issuer := s.cur, owner := o, op := op.toNat, addr := ea, z := foldBytes size
    b := BitVec.ofNat 64 ((s.seq.gr b).toNat % 2 ^ (8 * foldBytes size)), c := BitVec.ofNat 64 ((s.seq.gr c).toNat % 2 ^ (8 * foldBytes size))
    r := r == 1, slot := slot.toNat, rel := rel == 1, scope := scope.toNat, info := leadOf (.fold a b c op r slot off size acq rel scope k)
    replay := ((s.reg s.cur).place.map Placement.replay).getD 0 }

/-- The sequencer past a fold: its slot is owed where it wants the old value. -/
def Seq.folded (q : Seq) (r : BitVec 1) (slot : BitVec 4) (acq : BitVec 1) (n : Nat) : Seq :=
  let u := if r == 1 then q.setSlot slot .owed else q
  ({ u.begun with holds := u.begun.holds ++ (if acq == 1 then [.fold n] else []) } : Seq).advance 8

section

variable (q : Seq) (r : BitVec 1) (slot : BitVec 4) (acq : BitVec 1) (n : Nat)

/-- A fold changes the landing slots, the holds and the place of its sequencer. -/
theorem Seq.folded_eq : q.folded r slot acq n = Claims.standsAt { (if r == 1 then q.setSlot slot .owed else q) with holds := Claims.holdsAfter q acq (.fold n) }
    (q.pc + 8) := by
  rw [Seq.folded, Seq.begun_advance]
  split <;> rfl

theorem Seq.folded_pc : (q.folded r slot acq n).pc = q.pc + 8 := by rw [Seq.folded_eq]; rfl

theorem Seq.folded_holds : (q.folded r slot acq n).holds = Claims.holdsAfter q acq (.fold n) := by rw [Seq.folded_eq]; rfl

theorem Seq.gr_folded (x : BitVec 5) : (q.folded r slot acq n).gr x = q.gr x := by rw [Seq.folded_eq]; split <;> rfl

theorem Seq.kr_folded (x : BitVec 3) : (q.folded r slot acq n).kr x = q.kr x := by rw [Seq.folded_eq]; split <;> rfl

theorem Seq.slot_folded (x : BitVec 4) : (q.folded r slot acq n).slot x = if x = slot ∧ r = 1 then .owed else q.slot x := by
  rw [Seq.folded_eq]
  by_cases hr : r = 1
  · simp only [hr, and_true, ← Seq.slot_setSlot]; rfl
  · rw [if_neg (by rwa [beq_iff_eq]), if_neg fun h => hr h.2]; rfl

end

theorem exec_fold {s : State} {a b c : BitVec 5} {op : BitVec 4} {r : BitVec 1} {slot : BitVec 4} {off : BitVec 20} {size : BitVec 2}
    {acq rel : BitVec 1} {scope k : BitVec 3} {p ea : Nat} {v : Part} {w : Window} {o : Nat × Nat} (hea : Claims.Sum (s.seq.gr a) off.toInt ea)
    (hk : s.seq.kr k = true) (hheld : s.engineHeld s.cur = false) (hp : s.owner s.cur = some p) (hv : s.part? p = some v)
    (hal : ea % foldBytes size = 0) (hw : findWindow v ea (foldBytes size) = some w) (ho : w.owner = some o) (hslot : r = 1 → s.seq.slot slot = .empty)
    (hrel : rel = 0 ∨ s.engineBusy s.cur = false) :
    exec (.fold a b c op r slot off size acq rel scope k) s =
      .next ((s.modPkg fun x => { x with msgCount := s.pkg.msgCount + 1, folds := x.folds ++ [s.foldMsg a b c op r slot off size acq rel scope k p ea o] }).mod
        fun q => q.folded r slot acq s.pkg.msgCount) := by
  have hbusy : (rel == 1 && s.engineBusy s.cur) = false := by rcases hrel with h | h <;> rw [h] <;> simp
  have hfree : (r == 1 && s.seq.slot slot != .empty) = false := by
    by_cases hr : r = 1
    · rw [hslot hr]; simp
    · rw [beq_eq_false_iff_ne.2 hr]; rfl
  have haddr : s.seq.addr20 a off = ea := exactSum_eq_of_sum _ _ _ hea
  have hlands : aligned (foldBytes size) ea = true := (aligned_iff ..).2 hal
  show execFold a b c op r slot off size acq rel scope k s = _
  rw [execFold, s.guarded_true k 8 _ hk]
  simp only [hheld, haddr, hlands, hp, hv, hw, ho, hfree, hbusy, Option.getD_some, Option.bind_some, Bool.not_true, Bool.false_eq_true, if_false, Seq.folded]
  by_cases hr : (r == 1) = true
  · simp only [if_pos hr]; exact congrArg _ (State.mod_mod ..)
  · simp only [if_neg hr]; rfl

/-- R333: a fold is sent to its window's owner. -/
theorem foldIsSent : Claims.FoldIsSent := by
  intro s a b c op r slot off size acq rel scope k p ea v w o z hea hk hheld hp hv hal hw ho hslot hrel
  have hexec := exec_fold (b := b) (c := c) (op := op) (acq := acq) (scope := scope) hea hk hheld hp hv hal hw ho hslot hrel
  set m := s.foldMsg a b c op r slot off size acq rel scope k p ea o
  set s1 := s.modPkg fun x => { x with msgCount := s.pkg.msgCount + 1, folds := x.folds ++ [m] }
  have hseq : (s1.mod fun q => q.folded r slot acq s.pkg.msgCount).seq = s.seq.folded r slot acq s.pkg.msgCount := State.seq_mod ..
  have hcut (x : Word) : (BitVec.ofNat 64 (x.toNat % 2 ^ (8 * z))).toNat = x.toNat % 2 ^ (8 * z) :=
    Nat.mod_eq_of_lt ((Nat.mod_le ..).trans_lt x.isLt)
  refine ⟨_, m, hexec, rfl, rfl, rfl, rfl, rfl, rfl, rfl, rfl, hcut _, hcut _, rfl, rfl, ?_, fun x => ?_, fun x => ?_, fun x => ?_, rfl, rfl, rfl, fun y hy => ?_,
    ?_, fun _ => rfl, fun x hx => State.reg_mod_other _ _ x hx, rfl⟩
  · rw [hseq, Seq.folded_pc]
  · rw [hseq, Seq.gr_folded]
  · rw [hseq, Seq.kr_folded]
  · rw [hseq, Seq.slot_folded]
  · exact congrArg (fun y : Option Placement => (y.map Placement.replay).getD 0) hy
  · rw [hseq, Seq.folded_holds]

/-- Settles O27: tag.sig and fold add one message to those in flight and move the sequencer on; the landing slots are the sequencer's own. -/
theorem messagesSent : Obligations.MessagesSent := ⟨tagSigSends, foldIsSent, landingSlots⟩

end Sys2Proof.Machine

/-!
O29, the copy instructions (R147, R305, R306).
-/
namespace Sys2Proof.Machine

/-! ## The sides of a copy -/

theorem palSide_iff (va : Nat) : palSide va = true ↔ 0xFF0000000000 ≤ va ∧ va < 0xFF1000000000 := by
  simp only [palSide, Bool.and_eq_true, decide_eq_true_eq]

theorem tierOf_rank {va : Nat} (h : 0xFF2000000000 ≤ va ∧ va < 0xFF2080000000) :
    tierOf va = .rank ((va - 0xFF2000000000) / 0x200000) ((va - 0xFF2000000000) % 0x200000) := by
  have hin : inTierWindow va = true := by simp only [inTierWindow, Bool.and_eq_true, decide_eq_true_eq]; omega
  rw [tierOf, if_pos hin, if_neg (by omega), if_neg (by omega), if_neg (by omega), if_pos h]

theorem rankSide_iff (va : Nat) : rankSide va = true ↔ 0xFF2000000000 ≤ va ∧ va < 0xFF2080000000 := by
  refine ⟨fun h => ?_, fun h => by rw [rankSide, tierOf_rank h]⟩
  by_contra hva
  rw [rankSide, tierOf] at h
  split_ifs at h

theorem tierOf_ne_rank {va : Nat} (h : rankSide va = false) (i o : Nat) : tierOf va ≠ .rank i o :=
  fun ht => by rw [rankSide, ht] at h; nomatch h

theorem palSideBad_eq_false {va len : Nat} (hpal : palSide va = true → va + len ≤ 0xFF0000200000 ∧ va < 0xFF0000200000)
    (hrank : rankSide va = true → (va - 0xFF2000000000) % 0x200000 + len ≤ 0x200000) : palSideBad va len = false := by
  rw [palSideBad, Bool.or_eq_false_iff, Bool.and_eq_false_iff, Bool.and_eq_false_iff]
  refine ⟨?_, ?_⟩
  · cases h : palSide va with
    | false => exact .inl rfl
    | true => exact .inr (decide_eq_false (by have := hpal h; simp only [Bool.or_eq_true, decide_eq_true_eq]; omega))
  · cases h : rankSide va with
    | false => exact .inl rfl
    | true => exact .inr (decide_eq_false (by have := hrank h; omega))

theorem regionScope_toNat (x : BitVec 3) : regionScope x.toNat = if x = 0 then 1 else x.toNat := by
  simp only [regionScope, ← BitVec.toNat_inj]; rfl

/-- A bitmap register that the instruction names holds an aligned address. -/
theorem bitmap_aligned {x : Word} {m : BitVec 5} (h : ∀ n, (if m = 0 then none else some x.toNat) = some n → n % 8 = 0) :
    (m != 0 && x &&& 7 != 0) = false := by
  by_cases hm : m = 0
  · simp [hm]
  · have hx : x &&& 7 = 0 := BitVec.eq_of_toNat_eq <| by
      rw [BitVec.toNat_and]
      exact (Nat.and_two_pow_sub_one_eq_mod x.toNat 3).trans (h _ (if_neg hm))
    rw [hx, bne_self_eq_false, Bool.and_false]

/-! ## The copy as it enters the queue -/

/-- A copy enters the current region's queue, or waits for room there. -/
def State.enqueued (s : State) (c : Copy) : Out :=
  if 16 ≤ (s.reg s.cur).copies.length then .next s.wait else .next ((s.modReg s.cur fun r => r.enqueue c).advance 12)

theorem State.enqueued_queues {s : State} {i : Instr} {c : Copy} (h : exec i s = s.enqueued c) :
    ((s.reg s.cur).copies.length < 16 → Claims.Queues i s c) ∧ (16 ≤ (s.reg s.cur).copies.length → Claims.Waits i s) := by
  refine ⟨fun hroom => ?_, fun hfull => ⟨_, h.trans (if_pos hfull), s.mod_seqOnly _⟩⟩
  refine ⟨_, h.trans (if_neg (by omega)), ?_, fun x hx => ?_, fun _ => rfl, rfl, rfl, rfl, rfl⟩
  · have hholds : s.seq.begun.holds = Claims.holdsAfter s.seq 0 .engines := (List.append_nil _).symm
    have hreg : (s.modReg s.cur fun r => r.enqueue c).reg s.cur = (s.reg s.cur).enqueue c := by rw [State.reg_modReg, if_pos rfl]
    have hseq : (s.modReg s.cur fun r => r.enqueue c).seq = s.seq.begun := by rw [State.seq, State.modReg_cur, hreg]; rfl
    refine (State.reg_mod_cur (s.modReg s.cur fun r => r.enqueue c) _).trans ?_
    rw [State.modReg_cur, hreg, hseq, Claims.past, ← hholds]
    rfl
  · exact (State.reg_mod_other (s.modReg s.cur fun r => r.enqueue c) _ x hx).trans (by rw [State.reg_modReg, if_neg hx])

section

variable {s : State} {kind : CopyKind} {a b n m : BitVec 5} {acq rel : BitVec 1} {scope : BitVec 3} {off : BitVec 32} {t region dst p : Nat} {info : Word}
  (hheld : s.engineHeld s.cur = false) (hp : s.owner s.cur = some p) (hdst : Claims.Sum (s.seq.gr b) off.toInt dst)
  (hsrc32 : (s.seq.gr a).toNat % 32 = 0) (hdst32 : dst % 32 = 0) (hlen32 : (s.seq.gr n).toNat % 32 = 0)
  (hbm : ∀ x, (if m = 0 then none else some (s.seq.gr m).toNat) = some x → x % 8 = 0)
  (htier : tierBroken kind (s.seq.gr a).toNat dst = none)
  (hsrc : palSideBad (s.seq.gr a).toNat (s.seq.gr n).toNat = false) (hbad : palSideBad dst (s.seq.gr n).toNat = false)
include hheld hp hdst hsrc32 hdst32 hlen32 hbm htier hsrc hbad

/-- A copy that is not to a rank, when nothing refuses it. -/
theorem State.copyOp_enqueued (hrank : rankSide dst = false)
    (hdg : kind = .pushn → ∃ x y, (s.reg s.cur).place = some x ∧ (s.reg region).place = some y ∧ y.part = x.part ∧ y.replay = x.replay ∧ y.dg = x.dg) :
    s.copyOp kind a b n (acq == 1) (rel == 1) scope.toNat off m t region info = s.enqueued
      { index := 0, src := (s.seq.gr a).toNat, dst := dst, len := (s.seq.gr n).toNat, bitmap := if m = 0 then none else some (s.seq.gr m).toNat
        tag := some t, acq := acq == 1, rel := rel == 1
        scope := if acq = 1 ∨ rel = 1 then (if scope = 0 then 1 else scope.toNat) else 1, region := region, part := p } := by
  have haddr : s.seq.addr32 b off = dst := exactSum_eq_of_sum _ _ _ hdst
  have hbitmap := bitmap_aligned hbm
  have hboth (scope : Nat) : (if (acq == 1 || rel == 1) = true then scope else 1) = if acq = 1 ∨ rel = 1 then scope else 1 := by
    simp only [Bool.or_eq_true, beq_iff_eq]
  rw [State.copyOp]
  simp only [hheld, haddr, htier, (aligned_iff ..).2 hsrc32, (aligned_iff ..).2 hdst32, (aligned_iff ..).2 hlen32, hsrc, hbad, hbitmap, hp,
    Option.getD_some, Bool.not_true, Bool.false_eq_true, if_false, regionScope_toNat, State.enqueued]
  cases hd : tierOf dst with
  | rank i o => exact (tierOf_ne_rank hrank i o hd).elim
  | _ =>
    by_cases hk : kind = .pushn
    · obtain ⟨x, y, hx, hy, h1, h2, h3⟩ := hdg hk
      simp only [hk, hx, hy, h1, h2, h3, beq_self_eq_true, Bool.and_self, Bool.true_eq_false, and_false, if_false, Option.isSome_none, Bool.or_false,
        Bool.false_eq_true, Option.map_none, hboth]
    · simp only [hk, false_and, if_false, Option.isSome_none, Bool.or_false, Bool.false_eq_true, Option.map_none, hboth]

/-- A push to a rank, when nothing refuses it. -/
theorem State.copyOp_rank {v : Part} (hrank : 0xFF2000000000 ≤ dst ∧ dst < 0xFF2080000000) (hkind : kind = .push) (hv : s.part? p = some v)
    (he : rankValid (spGet 0 v.ranks ((dst - 0xFF2000000000) / 0x200000)) = true) :
    s.copyOp kind a b n (acq == 1) (rel == 1) scope.toNat off m t region info = s.enqueued
      { index := 0, src := (s.seq.gr a).toNat, dst := dst, len := (s.seq.gr n).toNat, bitmap := if m = 0 then none else some (s.seq.gr m).toNat
        tag := some t, acq := true, rel := true, scope := 6, region := region, part := p
        rank := some (spGet 0 v.ranks ((dst - 0xFF2000000000) / 0x200000)).toNat } := by
  have haddr : s.seq.addr32 b off = dst := exactSum_eq_of_sum _ _ _ hdst
  have hbitmap := bitmap_aligned hbm
  subst hkind
  rw [State.copyOp]
  simp only [hheld, haddr, htier, tierOf_rank hrank, hv, he, Option.bind_some, (aligned_iff ..).2 hsrc32, (aligned_iff ..).2 hdst32,
    (aligned_iff ..).2 hlen32, hsrc, hbad, hbitmap, hp, Option.getD_some, Bool.not_true, Bool.false_eq_true, if_false, State.enqueued]
  simp

end

/-- R147, R305, R306: push, pull and pushn. -/
theorem copyInstructionsQueue : Claims.CopyInstructionsQueue := by
  intro s p a b n m acq rel scope k off t region dst src len bm own rank far c queues hk hheld hp hdst hsrc32 hdst32 hlen32 hbm
  have hpush : exec (.push a b n acq rel scope k off m t) s =
      s.copyOp .push a b n (acq == 1) (rel == 1) scope.toNat off m t.toNat s.cur (leadOf (.push a b n acq rel scope k off m t)) := by
    show execPush a b n acq rel scope k off m t s = _
    rw [execPush, s.guarded_true k 12 _ hk]
  have hpull : exec (.pull a b n acq rel scope k off m t) s =
      s.copyOp .pull a b n (acq == 1) (rel == 1) scope.toNat off m t.toNat s.cur (leadOf (.pull a b n acq rel scope k off m t)) := by
    show execPull a b n acq rel scope k off m t s = _
    rw [execPull, s.guarded_true k 12 _ hk]
  have hpushn : exec (.pushn a b n acq rel scope k off m t region) s =
      s.copyOp (if region.toNat = s.cur then .push else .pushn) a b n (acq == 1) (rel == 1) scope.toNat off m t.toNat region.toNat
        (leadOf (.pushn a b n acq rel scope k off m t region)) := by
    show execPushn a b n acq rel scope k off m t region s = _
    rw [execPushn, s.guarded_true k 12 _ hk]
  have hown {va : Nat} (h : own va) : palSide va = true ∧ rankSide va = false ∧ palSideBad va len = false := by
    obtain ⟨h1, h2, h3⟩ := h
    have hr : rankSide va = false := Bool.eq_false_iff.2 fun hr => by have := (rankSide_iff va).1 hr; omega
    exact ⟨(palSide_iff va).2 ⟨h1, by omega⟩, hr, palSideBad_eq_false (fun _ => ⟨h2, h3⟩) fun h => by rw [hr] at h; nomatch h⟩
  have hfar {va : Nat} (h : far va) : palSide va = false ∧ rankSide va = false ∧ palSideBad va len = false := by
    have hpl : palSide va = false := Bool.eq_false_iff.2 fun hpl => by
      have := (palSide_iff va).1 hpl
      rcases h with h | ⟨h, -⟩ <;> omega
    have hr : rankSide va = false := Bool.eq_false_iff.2 fun hr => by
      have hr := (rankSide_iff va).1 hr
      rcases h with h | ⟨-, h⟩
      · omega
      · exact h hr
    exact ⟨hpl, hr, palSideBad_eq_false (fun h => by rw [hpl] at h; nomatch h) fun h => by rw [hr] at h; nomatch h⟩
  refine ⟨fun hs hd => ?_, ?_, fun hs hd => ?_, fun hs hd hreg hdg => ?_⟩
  · have hside : rankSide dst = false ∧ palSideBad dst len = false := hd.elim (fun h => (hown h).2) fun h => (hfar h).2
    have htier : tierBroken .push src.toNat dst = none := if_pos (hown hs).1
    have key (info : Word) := State.copyOp_enqueued (acq := acq) (rel := rel) (scope := scope) (t := t.toNat) (region := s.cur) (info := info)
      hheld hp hdst hsrc32 hdst32 hlen32 hbm htier (hown hs).2.2 hside.2 hside.1 nofun
    refine ⟨State.enqueued_queues (hpush.trans (key _)), fun hreg => State.enqueued_queues ?_⟩
    rw [if_pos hreg, hreg] at hpushn
    exact hpushn.trans (key _)
  · intro v hs hd hfit hv e he
    have htier : tierBroken .push src.toNat dst = none := if_pos (hown hs).1
    have hbad : palSideBad dst len = false :=
      palSideBad_eq_false (fun h => by have := (palSide_iff dst).1 h; omega) fun _ => hfit
    exact State.enqueued_queues (hpush.trans (State.copyOp_rank hheld hp hdst hsrc32 hdst32 hlen32 hbm htier (hown hs).2.2 hbad hd rfl hv he))
  · obtain ⟨hspal, hsrank, hsbad⟩ := hfar hs
    obtain ⟨hdpal, hdrank, hdbad⟩ := hown hd
    have htier : tierBroken .pull src.toNat dst = none := by simp only [tierBroken, hspal, hsrank, hdpal, Bool.or_self, Bool.false_eq_true, if_false, if_true]
    exact State.enqueued_queues (hpull.trans (State.copyOp_enqueued hheld hp hdst hsrc32 hdst32 hlen32 hbm htier hsbad hdbad hdrank nofun))
  · obtain ⟨hspal, hsrank, hsbad⟩ := hown hs
    obtain ⟨hdpal, hdrank, hdbad⟩ := hown hd
    have htier : tierBroken .pushn src.toNat dst = none := by simp only [tierBroken, hspal, hdpal, Bool.not_true, Bool.false_eq_true, if_false, if_true]
    obtain ⟨x, hx, -⟩ := Option.map_eq_some_iff.1 hp
    obtain ⟨y, hy, hsame⟩ := hdg x hx
    rw [if_neg hreg] at hpushn
    exact State.enqueued_queues (hpushn.trans (State.copyOp_enqueued hheld hp hdst hsrc32 hdst32 hlen32 hbm htier hsbad hdbad hdrank
      fun _ => ⟨x, y, hx, hy, hsame⟩))

/-- Settles O29: a copy that nothing refuses enters its region's queue or waits for room there. -/
theorem copiesQueue : Obligations.CopiesQueue := copyInstructionsQueue

end Sys2Proof.Machine

/-!
O31, the copy engine (R147, R305, R307, R310, R311, R318, R325).
-/
namespace Sys2Proof.Machine

/-! ## The copies of a region -/

theorem find_map_replace {l : List Copy} {i : Nat} {c d : Copy} (h : l.find? (fun x => x.index == i) = some c) (hd : d.index = c.index) :
    (l.map fun x => if x.index = d.index then d else x).find? (fun x => x.index == i) = some d := by
  have hkeep (x : Copy) : (if x.index = d.index then d else x).index = x.index := by
    split
    · next hx => exact hx.symm
    · rfl
  rw [List.find?_map, show ((fun x : Copy => x.index == i) ∘ fun x => if x.index = d.index then d else x) = fun x => x.index == i from
    funext fun x => congrArg (· == i) (hkeep x), h, Option.map_some, if_pos hd.symm]

theorem State.pauseAt_none (s : State) (p : Nat) : s.pauseAt p none = (s, .go) := by
  cases h : s.part? p <;> simp only [State.pauseAt]

theorem State.copyBit_eq_self {s : State} {r : Nat} {c : Copy} (h : c.bits = []) : s.copyBit r c = s := by
  rw [State.copyBit, h]

theorem Copy.afterSector_eq_self {c : Copy} (h : c.bitmap = none) (sector : Nat) : c.afterSector sector = c := by
  rw [Copy.afterSector, h]
  exact if_neg Bool.false_ne_true

section

variable {s : State} {r i sector p : Nat} {c : Copy} (hr : r < 192) (hc : (s.reg r).copies.find? (fun x => x.index == i) = some c) (hfault : c.fault = none)
include hr hc hfault

/-- A sector of a copy that no fault pauses. -/
theorem exec_copySector : exec (.copySector r i sector) s = .next (s.moveSector r c sector) := by
  have hcopy : (s.reg r).copy? i = some c := hc
  have hself : { c with fault := none } = c := by rw [← hfault]
  show execCopySector r i sector s = _
  rw [execCopySector, if_pos hr, hcopy]
  simp only [State.copySector, hfault, State.pauseAt_none, hself]

/-- The sector of a copy without a bitmap, of this package, that is read and written. -/
theorem exec_copySector_moves {s1 t : State} {bytes : List Byte} (hbits : c.bits = []) (hbm : c.bitmap = none) (hremote : c.remote = false)
    (hlen : 32 * sector < c.len) (hdone : c.done.contains sector = false)
    (hread : s.readVA (s.copyWho r) (c.srcAddr sector) 32 = (s1, .ok bytes)) (hwrite : s1.writeSector r c sector bytes = (t, .ok ())) :
    exec (.copySector r i sector) s = .next (t.modReg r fun g => g.setCopy { c with done := natInsert c.done sector }) := by
  have hempty : c.bits.isEmpty = true := List.isEmpty_iff.2 hbits
  have hremote' : ({ c with done := natInsert c.done sector } : Copy).remote = false := hremote
  have hafter := Copy.afterSector_eq_self (c := { c with done := natInsert c.done sector }) hbm sector
  have hbit (s : State) := State.copyBit_eq_self (s := s) (r := r) (c := { c with done := natInsert c.done sector }) hbits
  rw [exec_copySector hr hc hfault, State.moveSector]
  simp only [hempty, Bool.not_true, Bool.false_eq_true, if_false, Region.behindPush, hremote, Bool.false_and, hlen, decide_true, hdone,
    Bool.or_self, hread, hwrite, hremote', hafter, hbit]

end

/-! ## Where a sector goes -/

section

variable {s : State} {r sector : Nat} {c : Copy} {bytes : List Byte}

theorem State.writeSector_palette (hrank : c.rank = none) (hreg : c.region ≠ r) (hlow : 0xFF0000000000 ≤ c.dstAddr sector)
    (hhigh : c.dstAddr sector < 0xFF1000000000) :
    s.writeSector r c sector bytes = (s.modMem fun m => m.writeN (palBase c.region + (c.dstAddr sector - 0xFF0000000000)) bytes, .ok ()) := by
  rw [State.writeSector, hrank]
  exact if_pos (by rw [(palSide_iff _).2 ⟨hlow, hhigh⟩, Bool.true_and, bne_iff_ne]; exact hreg)

theorem State.writeSector_own (hrank : c.rank = none) (hreg : c.region = r) :
    s.writeSector r c sector bytes = s.writeVA (s.copyWho r) (c.dstAddr sector) bytes := by
  rw [State.writeSector, hrank]
  exact if_neg (by rw [hreg, bne_self_eq_false, Bool.and_false]; exact Bool.false_ne_true)

theorem State.writeSector_rank {e : Word} (hrank : c.rank = some e.toNat) (hpack : rankPackage e = Config.packageId.toNat)
    (howner : s.owner (rankRegion e) = some c.part) :
    s.writeSector r c sector bytes = (s.modMem fun m => m.writeN (palBase (rankRegion e) + (c.dstAddr sector - 0xFF2000000000) % 0x200000) bytes, .ok ()) := by
  have he : BitVec.ofNat 64 e.toNat = e := BitVec.ofNat_toNat ..
  rw [State.writeSector, hrank]
  dsimp only
  rw [he, if_pos hpack, State.landSector, if_pos howner]

end

/-! ## A sector that is done -/

theorem State.written_reg {w : Who} {s t : State} (h : State.Written w s t) (r : Nat) : t.reg r = { s.reg r with tlb := (t.reg r).tlb } := h.reg r

section

variable {s s1 t : State} {r i sector p pa : Nat} {c : Copy} {bytes : List Byte}

theorem Copy.srcAddr_plain (h : c.chan = none) : c.srcAddr sector = c.src + 32 * sector := by rw [Copy.srcAddr, h]

theorem Copy.dstAddr_plain (h : c.chan = none) : c.dstAddr sector = c.dst + 32 * sector := by rw [Copy.dstAddr, h]

/-- What a sector that is done has left: its bytes, its copy, and no change of a sequencer. -/
theorem State.sectorDone {d : Copy} (hc : (s.reg r).copies.find? (fun x => x.index == i) = some c) (hd : d.index = c.index) (hlen : bytes.length = 32)
    {w : Who} (hw : w.region = some r) (h : State.Written w s t) (hmem : t.mem = s.mem.writeN pa bytes) :
    (∀ j, j < 32 → (t.modReg r fun g => g.setCopy d).mem.read (pa + j) = bytes.getD j 0) ∧
      (∀ x, ¬(pa ≤ x ∧ x < pa + 32) → (t.modReg r fun g => g.setCopy d).mem.read x = s.mem.read x) ∧
      ((t.modReg r fun g => g.setCopy d).reg r).copies.find? (fun x => x.index == i) = some d ∧
      (∀ x, ((t.modReg r fun g => g.setCopy d).reg x).seq = (s.reg x).seq) ∧
      (∀ x, x ≠ r → (t.modReg r fun g => g.setCopy d).reg x = s.reg x) := by
  have hcopies : (t.reg r).copies = (s.reg r).copies := by rw [State.written_reg h r]
  have hother (x : Nat) (hx : x ≠ r) : (t.modReg r fun g => g.setCopy d).reg x = s.reg x := by
    rw [State.reg_modReg, if_neg hx]
    exact h.other x (by rw [hw]; exact fun e => hx (Option.some.inj e).symm)
  refine ⟨fun j hj => ?_, fun x hx => ?_, ?_, fun x => ?_, hother⟩
  · rw [State.modReg_mem, hmem, Memory.read_writeN, if_pos (by omega), Nat.add_sub_cancel_left]
  · rw [State.modReg_mem, hmem, Memory.read_writeN, if_neg (by rwa [hlen])]
  · rw [State.reg_modReg, if_pos rfl, Region.setCopy, hcopies]
    exact find_map_replace hc hd
  · by_cases hx : x = r
    · rw [hx, State.reg_modReg, if_pos rfl]
      show (t.reg r).seq = _
      rw [State.written_reg h r]
    · rw [hother x hx]

/-- A write of a sector within its page. -/
theorem State.writeVA_sector {s2 : State} {w : Who} {va : Nat} (hlen : bytes.length = 32) (hva : va % 32 = 0)
    (hwin : ∀ v, s1.part? w.part = some v → inWindow v va 32 = false) (hreach : s1.reach w va .write = (s2, .ok pa))
    (hphys : s2.physFault pa 32 .write = none) :
    ∃ t, s1.writeVA w va bytes = (t, .ok ()) ∧ State.Written w s1 t ∧ t.mem = s1.mem.writeN pa bytes := by
  have hpage : firstPage va bytes.length = bytes.length := by rw [hlen]; exact firstPage_aligned va 32 (by decide) hva
  have hok := (State.writePage_ok s1 _ w va bytes).2 ⟨s2, pa, hreach, by rwa [hlen], rfl⟩
  refine ⟨_, (State.writeVA_page _ _ _ _ hpage (.inr (by rwa [hlen]))).trans hok, State.writePage_written hok, ?_⟩
  have hcount := State.reach_countBytes_readOnly s1 s2 w va pa bytes.length .write hreach
  exact congrArg (fun m : Memory => m.writeN pa bytes) hcount.mem

end

/-- A read that is followed by a write of memory alone. -/
theorem State.ReadOnly.written_writeN {w : Who} {s s1 : State} (h : State.ReadOnly w s s1) (pa : Nat) (bytes : List Byte) :
    State.Written w s (s1.modMem fun m => m.writeN pa bytes) ∧ (s1.modMem fun m => m.writeN pa bytes).mem = s.mem.writeN pa bytes :=
  ⟨State.written_modMem h _, congrArg (fun m : Memory => m.writeN pa bytes) h.mem⟩

theorem State.copyWho_eq {s : State} {r p : Nat} (h : s.owner r = some p) : s.copyWho r = { part := p, region := some r, unit := 0xFE } := by
  rw [State.copyWho, h]; rfl

theorem Copy.remote_none {c : Copy} (h : c.rank = none) : c.remote = false := by rw [Copy.remote, h]

/-- R307: a sector of a copy moves its bytes. -/
theorem copySectorMoves : Claims.CopySectorMoves := by
  intro s s1 s2 r i sector pa p v c bytes hr hc howner _ hfault hbits hbm hrank hreg hchan hlen hdone hdst hread hbytes hwin hreach hphys
  have hro := State.readVA_readOnly _ _ _ _ _ _ hread
  have hwho := State.copyWho_eq howner
  have hwho1 : s1.copyWho r = s.copyWho r := by rw [hwho, State.copyWho_eq ((hro.owner r).trans howner)]
  obtain ⟨t, hwrite, hw, hmem⟩ := State.writeVA_sector (bytes := bytes) hbytes (by omega) hwin hreach hphys
  have hsector : s1.writeSector r c sector bytes = (t, .ok ()) := by
    rw [State.writeSector_own hrank hreg, hwho1, hwho, Copy.dstAddr_plain hchan, hwrite]
  have hexec := exec_copySector_moves hr hc hfault hbits hbm (Copy.remote_none hrank) hlen hdone
    (by rw [hwho, Copy.srcAddr_plain hchan]; exact hread) hsector
  obtain ⟨h1, h2, h3, h4, h5⟩ := State.sectorDone (d := { c with done := natInsert c.done sector }) hc rfl hbytes rfl
    (State.written_trans (State.written_of_readOnly hro) hw) (by rw [hmem, hro.mem])
  exact ⟨_, hexec, h1, h2, h3, h4, h5⟩

/-! ## A bit of a completion bitmap -/

section

variable {s s1 s2 : State} {r i sector p b m w : Nat} {c : Copy} {bs : List Nat}

/-- The bit that is due is set in its word, and the armed tags are evaluated. -/
theorem exec_copySector_bit (hr : r < 192) (hc : (s.reg r).copies.find? (fun x => x.index == i) = some c) (howner : s.owner r = some p)
    (hfault : c.fault = none) (hbits : c.bits = b :: bs) (hbm : c.bitmap = some m)
    (hread : s.readNum { part := p, region := some r, unit := 0xFE } (m + 8 * (b / 64)) 8 = (s1, .ok w))
    (hwrite : s1.writeNum { part := p, region := some r, unit := 0xFE } (m + 8 * (b / 64)) 8 (w ||| 2 ^ (b % 64)) = (s2, .ok ())) :
    exec (.copySector r i sector) s = .next ((s2.evalArms r).modReg r fun g => g.setCopy { c with bits := bs }) := by
  rw [exec_copySector hr hc hfault, State.moveSector]
  simp only [hbits, List.isEmpty_cons, Bool.not_false, if_true, State.copyBit, hbm, State.setBit, State.copyWho_eq howner, hread, hwrite]

end

theorem State.evalArms_none {s : State} {r : Nat} (h : ∀ e ∈ (s.reg r).tags, e.2.arm = none) : s.evalArms r = s := by
  have hnone : (s.reg r).tags.filter (fun e => e.2.arm.isSome) = [] := List.filter_eq_nil_iff.2 fun e he => by rw [h e he]; exact Bool.false_ne_true
  rw [State.evalArms, hnone, List.foldl_nil]

theorem State.evalArms_one {s : State} {r t : Nat} {g : TagState} (h : (s.reg r).tags.filter (fun e => e.2.arm.isSome) = [(t, g)]) :
    s.evalArms r = s.evalArm r t := by
  rw [State.evalArms, h]; rfl

/-- R147, R305, R307, R310, R311: the sectors of the other copies, and a bit without an armed tag. -/
theorem copySectorPlaces : Claims.CopySectorPlaces := by
  intro s s1 r i sector p v c hr hc howner _ hfault who slot lands written
  have hwho : s.copyWho r = who := State.copyWho_eq howner
  refine ⟨fun bytes hbits hbm hlen hdone hbytes => ?_, fun b bs m w s2 pa hbits hbm hm hread hwin hreach hphys harm => ?_⟩
  · have key {va pa : Nat} (hremote : c.remote = false) (hsrc : c.srcAddr sector = va) (hread : s.readVA who va 32 = (s1, .ok bytes)) {t : State}
        (hwrite : s1.writeSector r c sector bytes = (t, .ok ())) (hw : State.Written who s1 t) (hmem : t.mem = s1.mem.writeN pa bytes) : lands bytes pa := by
      have hro := State.readVA_readOnly _ _ _ _ _ _ hread
      have hexec := exec_copySector_moves hr hc hfault hbits hbm hremote hlen hdone (by rw [hwho, hsrc]; exact hread) hwrite
      obtain ⟨h1, h2, h3, h4, -⟩ := State.sectorDone (d := { c with done := natInsert c.done sector }) hc rfl hbytes rfl
        (State.written_trans (State.written_of_readOnly hro) hw) (by rw [hmem, hro.mem])
      exact ⟨_, hexec, h1, h2, h3, h4⟩
    have hat {va src : Nat} (hrank : c.rank = none) (hreg : c.region = r) (hsrc : c.srcAddr sector = src) (hread : s.readVA who src 32 = (s1, .ok bytes))
        (hdst : c.dstAddr sector = va) : written s1 bytes va := by
      intro s2 pa hva hwin hreach hphys
      have hro := State.readVA_readOnly _ _ _ _ _ _ hread
      obtain ⟨t, hwrite, hw, hmem⟩ := State.writeVA_sector (bytes := bytes) hbytes hva hwin hreach hphys
      refine key (Copy.remote_none hrank) hsrc hread ?_ hw hmem
      rw [State.writeSector_own hrank hreg, State.copyWho_eq ((hro.owner r).trans howner), hdst, hwrite]
    refine ⟨fun hchan hread => ⟨fun hrank hreg hlow hhigh => ?_, fun e hrank hpack hlive => ?_⟩, fun n g hchan hring hrank hreg hread => ?_,
      fun n g hchan hring hrank hreg hread => ?_⟩
    · have hdst := Copy.dstAddr_plain (sector := sector) hchan
      have hw := (State.ReadOnly.rfl who s1).written_writeN (palBase c.region + (c.dst + 32 * sector - 0xFF0000000000)) bytes
      refine key (Copy.remote_none hrank) (Copy.srcAddr_plain hchan) hread ?_ hw.1 hw.2
      rw [State.writeSector_palette hrank hreg (by omega) (by omega), hdst]
    · have hpack' : rankPackage e = Config.packageId.toNat := (fieldN_eq_extract ..).trans (congrArg BitVec.toNat hpack)
      have hregion : rankRegion e = (e.extractLsb' 0 8).toNat := fieldN_eq_extract ..
      have hro := State.readVA_readOnly _ _ _ _ _ _ hread
      have hremote : c.remote = false := by
        have he : BitVec.ofNat 64 e.toNat = e := BitVec.ofNat_toNat ..
        rw [Copy.remote, hrank]
        dsimp only
        rw [he, hpack', bne_self_eq_false]
      have hw := (State.ReadOnly.rfl who s1).written_writeN (palBase (rankRegion e) + (c.dst + 32 * sector - 0xFF2000000000) % 0x200000) bytes
      rw [hregion] at hw
      refine key hremote (Copy.srcAddr_plain hchan) hread ?_ hw.1 hw.2
      rw [State.writeSector_rank hrank hpack' (by rw [hregion]; exact (hro.owner _).trans hlive), Copy.dstAddr_plain hchan, hregion]
    · exact hat hrank hreg (by rw [Copy.srcAddr, hchan, hring]; rfl) hread (by rw [Copy.dstAddr, hchan, hring]; rfl)
    · exact hat hrank hreg (by rw [Copy.srcAddr, hchan, hring]; rfl) hread (by rw [Copy.dstAddr, hchan, hring]; rfl)
  · have hpage : firstPage (m + 8 * (b / 64)) 8 = 8 := firstPage_aligned _ 8 (by decide) (by omega)
    have hwrite := State.writeNum_page s1 s2 who _ 8 pa (w ||| 2 ^ (b % 64)) hpage hwin hreach hphys
    have hro := (State.readNum_readOnly _ _ _ _ _ _ hread).trans (State.reach_countBytes_readOnly _ _ _ _ _ 8 _ hreach)
    set t := (s2.countBytes who.part pa 8).writePhys pa 8 (w ||| 2 ^ (b % 64))
    have hmem : t.mem = s.mem.writeN pa (toBytes 8 (w ||| 2 ^ (b % 64))) := congrArg (fun m : Memory => m.writeN pa _) hro.mem
    have hreg : t.reg r = { s.reg r with tlb := (t.reg r).tlb } := hro.reg r
    have hexec := exec_copySector_bit (sector := sector) hr hc howner hfault hbits hbm hread hwrite
    rw [State.evalArms_none (by rw [hreg]; exact harm)] at hexec
    refine ⟨_, hexec, fun j hj => ?_, fun x hx => ?_, ?_⟩
    · rw [State.modReg_mem, hmem, Memory.read_writeN_in _ _ _ _ _ hj]
    · rw [State.modReg_mem, hmem, Memory.read_writeN_out _ _ _ _ _ hx]
    · rw [State.reg_modReg, if_pos rfl, Region.setCopy, hreg]
      exact find_map_replace hc rfl

/-- An evaluation whose word can be read unblocks the tag if every bit of its mask is set, and changes no other. -/
theorem State.evalArm_spec {s s1 : State} {r t x : Nat} {a : Arm} (harm : ((s.reg r).tag t).arm = some a)
    (hread : s.readNum { part := (s.owner r).getD 48, region := some r, unit := 0xF9 } a.va 8 = (s1, .ok x)) :
    (s.evalArm r t).mem = s1.mem ∧
      ((s.evalArm r t).reg r).tag t = (if BitVec.ofNat 64 x &&& a.mask = a.mask then ((s.reg r).tag t).unblock else (s.reg r).tag t) ∧
      (∀ n, n ≠ t → ((s.evalArm r t).reg r).tag n = (s.reg r).tag n) ∧ ∀ y, y ≠ r → (s.evalArm r t).reg y = s.reg y := by
  have hro := State.readNum_readOnly _ _ _ _ _ _ hread
  have htag (n : Nat) : (s1.reg r).tag n = (s.reg r).tag n := by rw [hro.reg r]; rfl
  have hother (y : Nat) (hy : y ≠ r) : s1.reg y = s.reg y := hro.other y fun h => hy (Option.some.inj h).symm
  rw [State.evalArm, harm]
  dsimp only
  rw [hread]
  dsimp only
  split
  · refine ⟨s1.modReg_mem .., ?_, fun n hn => ?_, fun y hy => ?_⟩
    · rw [State.reg_modReg, if_pos rfl, Region.tag_setTag, if_pos rfl, htag]
    · rw [State.reg_modReg, if_pos rfl, Region.tag_setTag, if_neg hn, htag]
    · rw [State.reg_modReg, if_neg hy, hother y hy]
  · exact ⟨rfl, htag t, fun n _ => htag n, hother⟩

/-- R325: a bit that a copy sets lets the armed tag be evaluated. -/
theorem bitmapWriteEvaluates : Claims.BitmapWriteEvaluates := by
  intro s s1 s2 s3 r i sector p b m w x t v c bs g a hr hc howner _ hfault who hbits hbm hread hwrite harmed htag harm harmread
  have hexec := exec_copySector_bit (sector := sector) hr hc howner hfault hbits hbm hread hwrite
  have hw : State.Written who s s2 := State.written_trans (State.written_of_readOnly (State.readNum_readOnly _ _ _ _ _ _ hread)) (State.writeVA_written hwrite)
  have htags (n : Nat) : (s2.reg r).tag n = (s.reg r).tag n := by rw [State.written_reg hw r]; rfl
  have howner2 : s2.owner r = some p := by rw [State.owner, State.written_reg hw r]; exact howner
  have hone : (s2.reg r).tags.filter (fun e => e.2.arm.isSome) = [(t, g)] := by rw [State.written_reg hw r]; exact harmed
  have harm2 : ((s2.reg r).tag t).arm = some a := by rw [htags, htag]; exact harm
  rw [State.evalArms_one hone] at hexec
  obtain ⟨hmem, hself, hothers, hregs⟩ := State.evalArm_spec harm2 (by rw [howner2]; exact harmread)
  rw [htags, htag] at hself
  have htagged (n : Nat) : (((s2.evalArm r t).modReg r fun g => g.setCopy { c with bits := bs }).reg r).tag n = ((s2.evalArm r t).reg r).tag n := by
    rw [State.reg_modReg, if_pos rfl]; rfl
  refine ⟨_, hexec, hmem, (htagged t).trans hself, fun n hn => (htagged n).trans ((hothers n hn).trans (htags n)), fun y hy => ?_⟩
  rw [State.reg_modReg, if_neg hy, hregs y hy]
  exact hw.other y fun h => hy (Option.some.inj h).symm

/-- R307, R318: a copy that has ended leaves the queue, and its tag takes a decrement. -/
theorem copyCompletionDecrements : Claims.CopyCompletionDecrements := by
  intro s r i n c hr hc hchan hrank htag hdone hbits hcount
  have hcopy : (s.reg r).copy? i = some c := hc
  have hindex : c.index = i := beq_iff_eq.1 (List.find?_some (p := fun x : Copy => x.index == i) hc)
  have hfinished : c.finished = true := by
    simp only [Copy.finished, Copy.settled, Copy.remote_none hrank, Bool.false_eq_true, if_false, hdone, decide_true, hbits, List.isEmpty_nil, Bool.and_self]
  set s1 := s.modReg r fun g => g.dropCopy c.index with hs1
  have hreg1 : s1.reg r = (s.reg r).dropCopy c.index := by rw [hs1, State.reg_modReg, if_pos rfl]
  have htag1 (m : Nat) : (s1.reg r).tag m = (s.reg r).tag m := by rw [hreg1]; rfl
  have hexec : exec (.copyCompletion r i) s = .next (s1.tagEvent r n 0 255) := by
    show execCopyCompletion r i s = _
    rw [execCopyCompletion, if_pos hr, hcopy]
    simp only [hfinished, if_true, State.copyDone, hchan, htag]
    rfl
  rw [State.tagEvent_eq _ _ _ _ _ (.inr (by rw [htag1]; exact hcount)), htag1] at hexec
  set w := Claims.tagAfter 0 ((s.reg r).tag n) with hw
  obtain ⟨h1, h2, h3⟩ := s1.tagBecomes_setTag r n w
  have hafter : w = if ((s.reg r).tag n).count = 1 then { (s.reg r).tag n with b := false, count := 0, arm := none }
      else { (s.reg r).tag n with count := ((s.reg r).tag n).count - 1 } := by
    simp only [hw, Claims.tagAfter, Nat.zero_ne_one, false_or]
  have hne : w ≠ (s.reg r).tag n := fun h => by
    have hcnt := congrArg TagState.count (hafter.symm.trans h)
    split at hcnt
    · next h1 => exact absurd (hcnt.trans h1) (by decide : ¬ (0 : BitVec 16) = 1)
    · exact absurd hcnt (by bv_omega)
  refine ⟨_, hexec, ?_, h1.trans hafter, fun m hm => (h2 m hm).trans (htag1 m), ?_, fun x => rfl, fun x hx => ?_, rfl⟩
  · rw [State.reg_modReg, if_pos rfl, hreg1, hindex]; rfl
  · rw [h3, htag1, decide_eq_true hne, Bool.or_true, hreg1]; rfl
  · rw [State.reg_modReg, if_neg hx, hs1, State.reg_modReg, if_neg hx]

/-- Settles O31: a sector is read and written as its copy says, a bit is one word of its bitmap, and an ended copy is a tag event. -/
theorem copyEngine : Obligations.CopyEngine := ⟨copySectorMoves, copySectorPlaces, bitmapWriteEvaluates, copyCompletionDecrements⟩

end Sys2Proof.Machine

/-!
O41, the frames of other packages (R145, R147).
-/
namespace Sys2Proof.Machine

/-! ## Metering of a frame -/

theorem State.meter_regs (s : State) (p d : Nat) (f : Counters → Counters) : (s.meter p d f).regs = s.regs := State.modPart_regs ..

theorem State.meter_mem (s : State) (p d : Nat) (f : Counters → Counters) : (s.meter p d f).mem = s.mem := State.modPart_mem ..

theorem State.reg_meter (s : State) (p d : Nat) (f : Counters → Counters) (r : Nat) : (s.meter p d f).reg r = s.reg r := State.reg_modPart ..

/-! ## A frame that arrives -/

/-- R145: KEY_MISMATCH. -/
theorem keyMismatchDrops : Claims.KeyMismatchDrops := by
  intro s port key hport hkey
  exact ⟨s.dropPacket port key, if_pos ⟨hport, hkey⟩, rfl, rfl, fun _ => rfl, fun _ => rfl, rfl⟩

section

variable {s : State} {port key region p : Nat} {v : Part}

theorem State.keyHolder_some (h : s.parts.find? (fun e => e.2.key.toNat == key) = some (p, v)) : s.keyHolder key = some p := by
  rw [State.keyHolder, h]; rfl

theorem State.keyHolder_none (h : s.parts.find? (fun e => e.2.key.toNat == key) = none) : s.keyHolder key = none := by
  rw [State.keyHolder, h]; rfl

theorem exec_rankFrameArrival {body : RankBody} (hport : port < 16) (hkey : key < 65536) (hregion : region < 192) (hsender : senderOk body = true) :
    exec (.rankFrameArrival port key region body) s = .next (s.frameArrival port key region body) := if_pos ⟨hport, hkey, hregion, hsender⟩

end

theorem State.tagEvent_mem (s : State) (r n mode src : Nat) : (s.tagEvent r n mode src).mem = s.mem := by
  unfold State.tagEvent
  dsimp only
  split
  · exact s.modReg_mem ..
  · split
    · exact s.modReg_mem ..
    · exact s.queueCause_mem ..

theorem State.applySignal_mem (s : State) (g : Signal) : (s.applySignal g).mem = s.mem := by
  rw [State.applySignal]
  split
  · exact s.tagEvent_mem ..
  · exact s.modPart_mem ..

/-- A signal to a region where its partition is not placed changes no region. -/
theorem State.applySignal_regs {s : State} {g : Signal} (h : s.owner g.dst ≠ some g.part) : (s.applySignal g).regs = s.regs := by
  have hnot : ¬ s.signalLands g = true := fun hl => h <| by
    rw [State.signalLands] at hl
    split at hl
    · cases hl
    · next pl hpl =>
      rw [Bool.and_eq_true, Bool.and_eq_true, beq_iff_eq] at hl
      rw [State.owner, hpl, ← hl.1.1]; rfl
  rw [State.applySignal, if_neg hnot, State.modPart_regs]

/-- A sector at a region where its partition is not placed changes no region and no memory. -/
theorem State.landSector_elsewhere {s : State} {p region off : Nat} {bytes : List Byte} (h : s.owner region ≠ some p) :
    (s.landSector p region off bytes).mem = s.mem ∧ (s.landSector p region off bytes).regs = s.regs := by
  rw [State.landSector, if_neg h]
  exact ⟨State.modPart_mem .., State.modPart_regs ..⟩

theorem State.landSector_here {s : State} {p region off : Nat} {bytes : List Byte} (h : s.owner region = some p) :
    s.landSector p region off bytes = s.modMem fun m => m.writeN (palBase region + off) bytes := if_pos h

/-- R145, R147: RANK_FRAME_ARRIVAL. -/
theorem rankFrameLands : Claims.RankFrameLands := by
  intro s port key region off bytes hport hkey hregion _ _ hlen
  have hexec {body : RankBody} (h : senderOk body = true) := exec_rankFrameArrival (s := s) hport hkey hregion h
  refine ⟨fun p v n src mode hsrc hfind hv => ?_, fun p v hfind hother => ?_, fun p v hfind hhere => ?_, fun hfind body hbody => ?_⟩
  · set g : Signal := { part := p, src := src.toNat, dst := region, tag := n.toNat, mode := mode.toNat, num := 0 } with hg
    have harrive : s.frameArrival port key region (.signal n mode src) = (s.applySignal g).meter p (dieOf region)
        fun c => { c with fabric := c.fabric + frameBytes (.signal n mode src) } := by
      rw [State.frameArrival, State.keyHolder_some hfind]
    refine ⟨_, (hexec (body := .signal n mode src) (decide_eq_true hsrc)).trans (congrArg _ harrive), ?_, fun pl hpl hpart hlive hmode => ?_, fun hother => ?_⟩
    · rw [State.meter_mem, State.applySignal_mem]
    · have hlands : s.signalLands g = true := (s.signalLands_iff g v hv).2 ⟨pl, hpl, hpart, fun x hx => absurd (hx : none = some x) (Option.some_ne_none x).symm, hlive⟩
      have hmode' : mode.toNat = 1 ∨ ((s.reg region).tag n.toNat).count ≠ BitVec.intMin 16 := hmode.imp_left fun h => congrArg BitVec.toNat h
      have happly : s.applySignal g = s.modReg region fun x => x.setTag n.toNat (Claims.tagAfter mode.toNat ((s.reg region).tag n.toNat)) := by
        rw [State.applySignal, if_pos hlands, hg, s.tagEvent_eq _ _ _ _ hmode']
      have hreg (x : Nat) := (s.applySignal g).reg_meter p (dieOf region) (fun c => { c with fabric := c.fabric + frameBytes (.signal n mode src) }) x
      have hbecomes := s.tagBecomes_setTag region n.toNat (Claims.tagAfter mode.toNat ((s.reg region).tag n.toNat))
      rw [← happly] at hbecomes
      refine ⟨?_, fun x hx => ?_⟩
      · rw [Claims.TagBecomes, hreg]; exact hbecomes
      · rw [hreg, happly, State.reg_modReg, if_neg hx]
    · rw [State.meter_regs, State.applySignal_regs hother]
  · have harrive : s.frameArrival port key region (.sector off bytes) = (s.landSector p region off bytes).meter p (dieOf region)
        fun c => { c with fabric := c.fabric + frameBytes (.sector off bytes) } := by
      rw [State.frameArrival, State.keyHolder_some hfind]
    refine ⟨_, (hexec rfl).trans (congrArg _ harrive), ?_, ?_⟩
    · rw [State.meter_mem, (State.landSector_elsewhere hother).1]
    · rw [State.meter_regs, (State.landSector_elsewhere hother).2]
  · have harrive : s.frameArrival port key region (.sector off bytes) = (s.modMem fun m => m.writeN (palBase region + off) bytes).meter p (dieOf region)
        fun c => { c with fabric := c.fabric + frameBytes (.sector off bytes) } := by
      rw [State.frameArrival, State.keyHolder_some hfind]
      dsimp only
      rw [State.landSector_here hhere]
    refine ⟨_, (hexec rfl).trans (congrArg _ harrive), fun i hi => ?_, fun x hx => ?_, fun x => State.reg_meter ..⟩
    · rw [State.meter_mem, State.modMem_mem]
      exact (Memory.read_writeN ..).trans (by rw [if_pos ⟨Nat.le_add_right .., Nat.add_lt_add_left hi _⟩]; exact congrArg (bytes.getD · 0) (Nat.add_sub_cancel_left ..))
    · rw [State.meter_mem, State.modMem_mem]
      exact (Memory.read_writeN ..).trans (if_neg hx)
  · have hsender : senderOk body = true := by
      cases body with
      | signal n mode src => exact decide_eq_true (hbody n mode src rfl)
      | sector _ _ => rfl
    have harrive : s.frameArrival port key region body = s.dropPacket port key := by rw [State.frameArrival, State.keyHolder_none hfind]
    exact ⟨_, (hexec hsender).trans (congrArg _ harrive), rfl, rfl, rfl⟩

/-! ## A frame that is acknowledged, or sent again -/

theorem Region.unsent_iff (g : Region) (after : List Nat) :
    g.unsent after = true ↔ ∃ c ∈ g.copies, c.index ∈ after ∧ c.done.length ≠ c.len / 32 := by
  simp only [Region.unsent, List.any_eq_true, Bool.and_eq_true, List.contains_iff_mem, bne_iff_ne]

/-- The sector of a frame of a copy has been acknowledged (R147). -/
def Region.ackSector (i off : Nat) (g : Region) : Region :=
  match g.copy? i with
  | none => g
  | some c =>
    let sector := (off - (c.dst - 0xFF2000000000) % 0x200000) / 32
    g.setCopy ({ c with acked := natInsert c.acked sector }.afterSector sector)

theorem Region.ackSector_seq (i off : Nat) (g : Region) : (g.ackSector i off).seq = g.seq := by
  rw [Region.ackSector]
  split <;> rfl

section

variable {s : State} {p id : Nat} {v : Part} {f : RankFrame} (hv : s.part? p = some v) (hf : v.frames.find? (fun g => g.id == id) = some f)
include hv hf

theorem State.rankAck_unsent (h : (s.reg f.src).unsent f.after = true) : s.rankAck p id = s := by
  rw [State.rankAck, hv]
  dsimp only
  rw [hf]
  exact if_pos h

theorem State.retransmit_unsent (h : (s.reg f.src).unsent f.after = true) : s.retransmit p id = s := by
  rw [State.retransmit, hv, Option.bind_some, hf]
  exact if_pos h

/-- An acknowledged frame leaves the partition's, and at most marks a sector of its copy. -/
theorem State.rankAck_sent (h : ¬ (s.reg f.src).unsent f.after = true) :
    (s.rankAck p id).part? p = some { v with frames := v.frames.filter fun g => g.id != id } ∧ (s.rankAck p id).mem = s.mem ∧
      ∀ x, ((s.rankAck p id).reg x).seq = (s.reg x).seq := by
  set s1 := s.setPart p { v with frames := v.frames.filter fun g => g.id != id } with hs1
  have hpart : s1.part? p = some { v with frames := v.frames.filter fun g => g.id != id } := by rw [hs1, State.part_setPart, if_pos rfl]
  have hack : s.rankAck p id = match f.copy, f.body with
      | some i, .sector off _ => s1.modReg f.src (Region.ackSector i off)
      | _, _ => s1 := by
    rw [State.rankAck, hv]
    dsimp only
    rw [hf]
    dsimp only
    rw [if_neg h]
    rfl
  rw [hack]
  split
  · next i off _ _ _ =>
    refine ⟨hpart, rfl, fun x => ?_⟩
    rw [State.reg_modReg]
    split
    · next hx => rw [hx]; exact Region.ackSector_seq ..
    · rfl
  · exact ⟨hpart, rfl, fun _ => rfl⟩

/-- A frame that is sent again is counted. -/
theorem State.retransmit_sent (h : ¬ (s.reg f.src).unsent f.after = true) :
    (∃ w, (s.retransmit p id).part? p = some w ∧
      w = { v with frames := v.frames.map (fun g => if g.id = id then { g with sends := g.sends + 1 } else g), meter := w.meter }) ∧
    (s.retransmit p id).mem = s.mem ∧ ∀ x, (s.retransmit p id).reg x = s.reg x := by
  rw [State.retransmit, hv, Option.bind_some, hf]
  dsimp only
  rw [if_neg h]
  refine ⟨?_, ?_, fun x => ?_⟩
  · rw [State.meter, State.meterIn, State.part_modPart, if_pos rfl, State.part_modPart, if_pos rfl, hv]
    exact ⟨_, rfl, rfl⟩
  · rw [State.meter_mem, State.modPart_mem]
  · rw [State.reg_meter, State.reg_modPart]

end

/-- R147: RANK_ACK and RANK_FRAME_RETRANSMISSION. -/
theorem rankFramesAcknowledged : Claims.RankFramesAcknowledged := by
  intro s p id v f hp hv hf
  have hack : exec (.rankAck p id) s = .next (s.rankAck p id) := if_pos hp
  have hsend : exec (.rankFrameRetransmission p id) s = .next (s.retransmit p id) := if_pos hp
  have hiff := Region.unsent_iff (s.reg f.src) f.after
  refine ⟨fun hbehind => ?_, fun hsent => ⟨?_, ?_⟩⟩
  · have hb := hiff.2 hbehind
    rw [hack, hsend, State.rankAck_unsent hv hf hb, State.retransmit_unsent hv hf hb]
    exact ⟨rfl, rfl⟩
  · obtain ⟨hpart, hmem, hseq⟩ := State.rankAck_sent hv hf fun h => hsent (hiff.1 h)
    exact ⟨_, _, hack, hpart, rfl, fun x => by rw [hmem], hseq⟩
  · obtain ⟨⟨w, hpart, hw⟩, hmem, hreg⟩ := State.retransmit_sent hv hf fun h => hsent (hiff.1 h)
    exact ⟨_, w, hsend, hpart, hw, fun x => by rw [hmem], hreg⟩

/-- Settles O41: a frame whose key a partition holds lands as a signal or a sector does, and an acknowledgement or a repetition touches the frame alone. -/
theorem rankFrames : Obligations.RankFrames := ⟨keyMismatchDrops, rankFrameLands, rankFramesAcknowledged⟩

end Sys2Proof.Machine

/-!
CFW commands: how one is taken from its queue, and what its completion leaves (R136 to R138, R140).
-/
namespace Sys2Proof.Machine

/-! ## Writes that do not meet a read -/

theorem Memory.readN_writeN_apart (m : Memory) (a b n : Nat) (bs : List Byte) (h : b + n ≤ a ∨ a + bs.length ≤ b) : (m.writeN a bs).readN n b = m.readN n b :=
  Memory.readN_congr _ _ _ _ fun i hi => by rw [Memory.read_writeN, if_neg (by omega)]

/-! ## The host's memory, where the host refuses nothing -/

section

variable {s : State} {a n : Nat} (hd : s.pkg.denied = [])
include hd

theorem State.hostRefuses_allowed : s.hostRefuses a n = false := by rw [State.hostRefuses, hd]; rfl

theorem State.hostOk_allowed (h : a + n ≤ 2 ^ 46) : s.hostOk a n = true := by
  rw [State.hostOk, State.hostRefuses_allowed hd, decide_eq_true h]; rfl

theorem State.hostReads_allowed (h : a + n ≤ 2 ^ 46) (hc : Claims.HostClean s a n) : s.hostReads a n = true := by
  have hpoison : s.mem.poison.any (fun x => decide (hostBase + a ≤ x) && decide (x < hostBase + a + n)) = false :=
    List.any_eq_false.2 fun x hx => by
      rw [Bool.and_eq_true, decide_eq_true_eq, decide_eq_true_eq]
      exact hc x hx
  rw [State.hostReads, State.hostOk_allowed hd h, hpoison]; rfl

theorem State.hostRead_allowed (h : a + n ≤ 2 ^ 46) (hc : Claims.HostClean s a n) : s.hostRead a n = some (s.mem.readN n (hostBase + a)) :=
  if_pos (State.hostReads_allowed hd h hc)

end

/-! ## A completion -/

/-- The first 56 bytes of a completion, which TICK at completion follows (R136). -/
def completionHead (op ctag start status detail : Nat) (results more : List Byte) : List Byte :=
  toBytes 2 status ++ toBytes 2 op ++ toBytes 4 ctag ++ toBytes 8 start ++ toBytes 4 more.length ++ toBytes 4 detail ++ toBytes 8 0 ++ padTo 24 results

theorem completionHead_length {op ctag start status detail : Nat} {results more : List Byte} (h : results.length ≤ 24) :
    (completionHead op ctag start status detail results more).length = 56 := by
  simp only [completionHead, padTo, List.length_append, toBytes_length, List.length_replicate]
  omega

/-- What a completion leaves of memory (R136). -/
theorem State.complete_resultAt {m : Memory} {u : State} {also : Nat → Prop} {op ctag res start status detail : Nat} {results more : List Byte}
    (hd : u.pkg.denied = []) (hres : res + (64 + more.length) ≤ 2 ^ 46) (hlen : results.length ≤ 24) (hm : ∀ x, ¬ also x → u.mem.read x = m.read x) :
    u.complete op ctag res start status detail results more =
        { u with mem := (u.complete op ctag res start status detail results more).mem } ∧
      Claims.ResultAt m (u.complete op ctag res start status detail results more) also res op ctag start u.tick status detail results more := by
  have hhead := completionHead_length (op := op) (ctag := ctag) (start := start) (status := status) (detail := detail) (more := more) hlen
  have heq : u.complete op ctag res start status detail results more = u.modMem fun m =>
      ((m.writeN (0x080000000000 + res) (completionHead op ctag start status detail results more)).writeN (0x080000000000 + res + 64) more).writeN
        (0x080000000000 + res + 56)        (toBytes 8 u.tick) := by
    rw [State.complete, if_pos (State.hostOk_allowed hd hres)]; rfl
  have htick : (toBytes 8 u.tick).length = 8 := toBytes_length ..
  rw [heq]
  refine ⟨rfl, ?_, ?_, ?_, fun x hx ha => ?_⟩
  · rw [State.modMem_mem, Memory.readN_writeN_apart _ _ _ _ _ (.inl (le_refl _)), Memory.readN_writeN_apart _ _ _ _ _ (.inl (by omega)), ← hhead]
    exact Memory.readN_writeN ..
  · rw [State.modMem_mem, ← htick]
    exact Memory.readN_writeN ..
  · rw [State.modMem_mem, Memory.readN_writeN_apart _ _ _ _ _ (.inr (by rw [htick]))]
    exact Memory.readN_writeN ..
  · rw [State.modMem_mem]
    rw [Memory.read_writeN, if_neg (by omega), Memory.read_writeN, if_neg (by omega), Memory.read_writeN, if_neg (by omega)]
    exact hm x ha

/-- A command that is taken moves cons on, in the header as well. -/
theorem State.takeCommand_eq {u : State} {c : CfwQueue} (hd : u.pkg.denied = []) (hpa : c.pa + 64 ≤ 2 ^ 46) :
    u.takeCommand c = { u with
      pkg := { u.pkg with cfw := some { c with cons := c.cons + 1, started := none } }
      mem := u.mem.writeN (hostBase + c.pa + 8) (toBytes 8 (c.cons + 1)) } := by
  refine (State.cfwPut_eq { c with cons := c.cons + 1, started := none } _ hpa ?_ _ ?_).trans rfl
  · simp
  · exact hd

/-- A command that is taken and completes (R136). -/
theorem State.completed {s u : State} {c : CfwQueue} {bs : List Byte} {status detail : Nat} {results more : List Byte} (hd : u.pkg.denied = [])
    (htick : u.tick = s.tick) (hpa : c.pa + 64 ≤ 2 ^ 46) (hres : Claims.field bs 0x18 8 + (64 + more.length) ≤ 2 ^ 46) (hlen : results.length ≤ 24) :
    Claims.Completed s u ((u.takeCommand c).complete (Claims.field bs 0 2) (Claims.field bs 4 4) (Claims.field bs 0x18 8) (c.started.getD s.tick) status detail
      results more) c bs status detail results more := by
  have htake := State.takeCommand_eq hd hpa
  set t := u.takeCommand c
  have htd : t.pkg.denied = [] := by rw [htake]; exact hd
  have hread (x : Nat) (hx : ¬(0x080000000008 + c.pa ≤ x ∧ x < 0x080000000010 + c.pa)) : t.mem.read x = u.mem.read x := by
    have hbase : hostBase = 0x080000000000 := rfl
    rw [htake, Memory.read_writeN, toBytes_length, if_neg (by omega)]
  obtain ⟨hframe, hat⟩ := State.complete_resultAt (op := Claims.field bs 0 2) (ctag := Claims.field bs 4 4) (start := c.started.getD s.tick) (status := status)
    (detail := detail) htd hres hlen hread
  have hticks : t.tick = s.tick := by rw [htake]; exact htick
  rw [hticks] at hat
  have hpkg : t.pkg = { u.pkg with cfw := some { c with cons := c.cons + 1, started := none } } := by rw [htake]
  have hparts : t.parts = u.parts := by rw [htake]
  have hregs : t.regs = u.regs := by rw [htake]
  have hsets : t.sets = u.sets := by rw [htake]
  refine ⟨?_, ?_, ?_, ?_, hat⟩ <;> rw [hframe]
  · exact hpkg
  · exact hparts
  · exact hregs
  · exact hsets

/-! ## The command at the head of the queue -/

theorem getD_eq_zero_of_firstUnnamed {bs : List Byte} {named : List (Nat × Nat)}
    (h : ∀ i, i < bs.length → (∀ f ∈ named, ¬(f.1 ≤ i ∧ i < f.1 + f.2)) → bs.getD i 0 = 0) : firstUnnamed bs named = none := by
  refine List.find?_eq_none.2 fun i hi hbad => ?_
  rw [Bool.and_eq_true, bne_iff_ne, Bool.not_eq_true', List.any_eq_false] at hbad
  refine hbad.1 (h i (List.mem_range.1 hi) fun f hf => ?_)
  have := hbad.2 f hf
  rwa [Bool.and_eq_true, decide_eq_true_eq, decide_eq_true_eq] at this

/-- The packet of R136 that stands at the head of the queue. -/
theorem State.cmdHead_some {s : State} {c : CfwQueue} {bs : List Byte} (hcfw : s.pkg.cfw = some c) (hstop : c.stopped = false) (hcons : c.cons < c.prod)
    (hroom : s.pkg.inProgress.length < 8) (hbs : bs = s.mem.readN 64 (0x080000000000 + c.pa + 0x40 + 64 * (c.cons % (2 ^ c.log2 / 64)))) :
    s.cmdHead = some (c, bs) := by
  rw [State.cmdHead, hcfw, hbs]
  simp only [hstop, Nat.not_le.2 hcons, Nat.not_le.2 hroom, decide_false, Bool.or_self, Bool.false_eq_true, if_false]
  rfl

section

variable {s : State} {c : CfwQueue} {bs args : List Byte} {op len extra : Nat} (h : Claims.AtCommand s c bs args op len extra)
include h

/-- A packet that meets R136 and R137. -/
theorem State.packetFault_none : s.packetFault bs len extra = none := by
  obtain ⟨-, -, -, -, hboot, hbs, -, hz, hz2, harg, hlen, hres, hsize, hain, hrin, hallow, hclean, -⟩ := h
  have hunnamed : firstUnnamed bs packetFields = none := getD_eq_zero_of_firstUnnamed fun i hi hnot => by
    have hi64 : i < 64 := by rwa [hbs, Memory.readN_length] at hi
    by_cases hlow : i < 0x24
    · refine hz i ?_
      simp only [packetFields, List.mem_cons, List.not_mem_nil, or_false, forall_eq_or_imp, forall_eq] at hnot
      simp only [List.mem_cons, List.not_mem_nil, or_false]
      omega
    · exact hz2 i (by omega) hi64
  rw [State.packetFault, if_neg (by omega), hunnamed]
  dsimp only
  have harg' : aligned 64 (numAt bs 8 8) = true := (aligned_iff ..).2 harg
  have hres' : aligned 64 (numAt bs 0x18 8) = true := (aligned_iff ..).2 hres
  have hlen' : numAt bs 0x10 4 = len := hlen
  have hsize' : ¬ numAt bs 0x20 4 < 64 + extra := Nat.not_lt.2 hsize
  have hreads : s.hostReads (numAt bs 8 8) len = true := State.hostReads_allowed hallow hain hclean
  have hok : s.hostOk (numAt bs 0x18 8) (64 + extra) = true := State.hostOk_allowed hallow hrin
  simp only [harg', hres', hlen', hsize', hreads, hok, Bool.not_true, Bool.false_eq_true, ne_eq, not_true, if_false]

/-- The command is performed. -/
theorem State.command_eq (run : State → List Byte → CmdOut) :
    s.command op len extra run = match run s args with
      | .wait => s
      | .hold t => t.commandHeld c (c.started.getD s.tick)
      | .fail st d => (s.dropForming.takeCommand c).complete op (Claims.field bs 4 4) (Claims.field bs 0x18 8) (c.started.getD s.tick) st d [] []
      | .done t r m => (t.takeCommand c).complete op (Claims.field bs 4 4) (Claims.field bs 0x18 8) (c.started.getD s.tick) 0 0 r m
      | .starts t p => (t.takeCommand c).modPkg fun k => { k with
          inProgress := k.inProgress ++ [(op, p, Claims.field bs 4 4, Claims.field bs 0x18 8, c.started.getD s.tick)] } := by
  have hfault := State.packetFault_none h
  obtain ⟨hcfw, hstop, hcons, hroom, -, hbs, hop, -, -, -, -, -, -, -, -, -, -, -, hargs⟩ := h
  have hhead := State.cmdHead_some hcfw hstop hcons hroom hbs
  have hop' : ¬ numAt bs 0 2 ≠ op := not_not.2 hop
  have hargs' : s.mem.readN len (hostBase + numAt bs 8 8) = args := hargs.symm
  rw [State.command, hhead]
  dsimp only
  rw [if_neg hop', hfault, hargs']
  cases run s args <;> rfl

/-- The command completes. -/
theorem State.command_done {run : State → List Byte → CmdOut} {u : State} {results more : List Byte} (hrun : run s args = .done u results more)
    (hd : u.pkg.denied = []) (htick : u.tick = s.tick) (hlen : results.length ≤ 24) (hmore : more.length ≤ extra) :
    Claims.Completed s u (s.command op len extra run) c bs 0 0 results more := by
  have heq := State.command_eq h run
  obtain ⟨-, -, -, -, -, -, hop, -, -, -, -, -, -, -, hrin, -, -, hpa, -⟩ := h
  rw [hrun] at heq
  rw [heq, ← hop]
  exact State.completed hd htick hpa (by omega) hlen

/-- The command waits. -/
theorem State.command_wait {run : State → List Byte → CmdOut} (hrun : run s args = .wait) : s.command op len extra run = s := by
  rw [State.command_eq h run, hrun]

/-- The arguments are as long as the packet says. -/
theorem args_length : args.length = len := by
  obtain ⟨-, -, -, -, -, -, -, -, -, -, -, -, -, -, -, -, -, -, hargs⟩ := h
  rw [hargs, Memory.readN_length]

theorem denied_of_atCommand : s.pkg.denied = [] := by
  obtain ⟨-, -, -, -, -, -, -, -, -, -, -, -, -, -, -, hallow, -⟩ := h
  exact hallow

end

/-- A command that names a partition. -/
theorem State.forPart_eq {s : State} {args : List Byte} {fields : List (Nat × Nat)} {p : Nat} {v : Part} (h : Claims.Names s args fields p v)
    (f : Nat → Part → CmdOut) : s.forPart args fields f = f p v := by
  obtain ⟨hp, hv, hfree, hzero⟩ := h
  have hp' : numAt args 0 1 = p := hp.symm
  have hnamed : s.named p = false := List.any_eq_false.2 fun e he => by rw [beq_iff_eq]; exact hfree e he
  have hunnamed : firstUnnamed args ((0, 1) :: fields) = none := getD_eq_zero_of_firstUnnamed fun i hi hnot => by
    have h0 := hnot (0, 1) List.mem_cons_self
    exact hzero i (by dsimp only at h0; omega) hi fun f hf => hnot f (List.mem_cons_of_mem _ hf)
  rw [State.forPart]
  rw [hp', hnamed, if_neg Bool.false_ne_true, hunnamed, hv]

end Sys2Proof.Machine

/-!
O55, the commands that describe the device and its partitions, and the registration of queues (R129, R137 to R139, R389, R403).
-/
namespace Sys2Proof.Machine

/-! ## An opcode outside the table -/

/-- R137, R138: BAD_COMMAND. -/
theorem badCommandCompletes : Claims.BadCommandCompletes := by
  intro s c bs hcfw hstop hstart hcons hroom hbs hop hres hallow hpa
  have hop' : opcodes.contains (numAt bs 0 2) = false := by
    rw [List.contains_eq_mem, decide_eq_false_iff_not]; exact hop
  have hbad : s.badCommand = (s.takeCommand c).complete (Claims.field bs 0 2) (Claims.field bs 4 4) (Claims.field bs 0x18 8) (c.started.getD s.tick)
      (if s.pkg.boot < 6 then 1 else 2) 0 [] [] := by
    rw [State.badCommand, State.cmdHead_some hcfw hstop hcons hroom hbs, hstart]
    dsimp only
    rw [if_neg (by rw [hop']; exact Bool.false_ne_true)]
    rfl
  refine ⟨_, congrArg Host.Outcome.next hbad, State.completed hallow rfl hpa (by simpa using hres) (by simp)⟩

/-! ## DEV.INFO and DEV.HEALTH -/

theorem flatMap_toBytes_length {α : Type} (l : List α) (n : Nat) (f : α → List Byte) (h : ∀ a, (f a).length = n) : (l.flatMap f).length = n * l.length := by
  simp only [List.length_flatMap, h, List.map_const', List.sum_replicate, smul_eq_mul, mul_comm]

/-- The 512 bytes of DEV.HEALTH (R389). -/
def State.healthBytes (s : State) : List Byte :=
  (List.range 7).flatMap (fun c => toBytes 4 (s.tilesIn c)) ++ toBytes 4 0 ++ toBytes 24 s.pkg.retired.toNat ++ toBytes 8 s.pkg.drops ++
    padTo 256 (s.pkg.lastDrops.flatMap (fun (e : Nat × Nat × Nat) => toBytes 2 e.1 ++ toBytes 2 e.2.1 ++ toBytes 4 0 ++ toBytes 8 e.2.2)) ++
    (List.range 8).flatMap (fun h => toBytes 8 (Config.eccTrend h s.steps).toNat) ++
    (List.range 4).flatMap (fun d => toBytes 32 (Config.lifeModel d s.steps).toNat)

/-- The counts of tiles by state, which stand first. -/
def State.tileCounts (s : State) : List Byte := (List.range 7).flatMap fun c => toBytes 4 (s.tilesIn c)

theorem State.tileCounts_length (s : State) : s.tileCounts.length = 28 := by
  rw [State.tileCounts, flatMap_toBytes_length _ 4 _ fun c => toBytes_length 4 _, List.length_range]

theorem State.healthBytes_eq (s : State) : ∃ rest, s.healthBytes =
    s.tileCounts ++ (toBytes 4 0 ++ (toBytes 24 s.pkg.retired.toNat ++ (toBytes 8 s.pkg.drops ++ rest))) := by
  simp only [State.healthBytes, State.tileCounts, List.append_assoc, List.append_cancel_left_eq, exists_eq']

theorem State.healthBytes_length {s : State} (h : s.pkg.lastDrops.length ≤ 16) : s.healthBytes.length = 512 := by
  have hdrops : (s.pkg.lastDrops.flatMap fun (e : Nat × Nat × Nat) => toBytes 2 e.1 ++ toBytes 2 e.2.1 ++ toBytes 4 0 ++ toBytes 8 e.2.2).length =
      16 * s.pkg.lastDrops.length := flatMap_toBytes_length _ 16 _ fun e => by simp only [List.length_append, toBytes_length]
  simp only [State.healthBytes, padTo, List.length_append, hdrops, List.length_replicate, toBytes_length, flatMap_toBytes_length _ 4 _ fun c => toBytes_length 4 _,
    flatMap_toBytes_length _ 8 _ fun c => toBytes_length 8 _, flatMap_toBytes_length _ 32 _ fun c => toBytes_length 32 _, List.length_range]
  omega

/-- R389, R403: DEV.INFO and DEV.HEALTH. -/
theorem deviceCommands : Claims.DeviceCommands := by
  intro s c bs args
  obtain ⟨rest, hrest⟩ := s.healthBytes_eq
  have hcounts := s.tileCounts_length
  refine ⟨fun h => ⟨_, rfl, State.command_done h rfl (denied_of_atCommand h) rfl ?_ ?_⟩, fun h hdrops =>
    ⟨_, s.healthBytes, rfl, State.command_done h rfl (denied_of_atCommand h) rfl (Nat.zero_le _) ?_, State.healthBytes_length hdrops, fun k hk => ?_, ?_, ?_⟩⟩
  · simp only [List.length_append, toBytes_length]; decide
  · simp only [toBytes_length]; decide
  · exact (State.healthBytes_length hdrops).le
  · rw [hrest, List.drop_append_of_le_length (by omega), List.take_append_of_le_length (by rw [List.length_drop]; omega), State.tileCounts,
      drop_take_flatMap _ 4 (fun c => toBytes_length 4 _) (List.range 7) k (by rwa [List.length_range]), List.getElem_range]
  · refine drop_take_of_eq_append (a := s.tileCounts ++ toBytes 4 0) (c := toBytes 8 s.pkg.drops ++ rest) ?_ ?_ (toBytes_length ..)
    · rw [hrest, List.append_assoc]
    · rw [List.length_append, hcounts, toBytes_length]
  · refine drop_take_of_eq_append (a := s.tileCounts ++ (toBytes 4 0 ++ toBytes 24 s.pkg.retired.toNat)) (c := rest) ?_ ?_ (toBytes_length ..)
    · rw [hrest, List.append_assoc, List.append_assoc]
    · rw [List.length_append, List.length_append, hcounts, toBytes_length, toBytes_length]

/-- The registered queues of a partition, one bit each (R403). -/
theorem foldl_add_eq_sum {α : Type} (l : List α) (f : α → Nat) : l.foldl (fun n e => n + f e) 0 = (l.map f).sum := by
  rw [List.sum_eq_foldl, List.foldl_map]

theorem Counters.bytes_length (c : Counters) : c.bytes.length = 88 := by
  rw [Counters.bytes, flatMap_toBytes_length _ 8 _ fun w => toBytes_length 8 _]
  simp

/-- R138, R403: PART.QUERY and METER.READ. -/
theorem reportCommands : Claims.ReportCommands := by
  intro s c bs args p v hnames
  refine ⟨fun h => ?_, fun h => ?_⟩
  · have hrun := State.forPart_eq hnames fun _ v =>
      .done s (toBytes 1 v.state.code ++ toBytes 1 0 ++ toBytes 2 (v.queues.foldl (fun n e => n + 2 ^ e.1) 0) ++ toBytes 4 (v.replays.filter Replay.begun).length)
        (toBytes 24 v.regions.toNat)
    rw [foldl_add_eq_sum] at hrun
    refine ⟨_, rfl, State.command_done h hrun (denied_of_atCommand h) rfl ?_ ?_⟩
    · simp only [List.length_append, toBytes_length]; decide
    · simp only [toBytes_length]; decide
  · have hrun := State.forPart_eq hnames fun _ v =>
      .done s (toBytes 4 v.meter.total.preempt.toNat ++ toBytes 4 0 ++ toBytes 8 v.meter.latest) v.meter.total.bytes
    refine ⟨_, rfl, State.command_done h hrun (denied_of_atCommand h) rfl ?_ (Counters.bytes_length _).le⟩
    simp only [List.length_append, toBytes_length]; decide

end Sys2Proof.Machine

/-!
O55, QUEUE.REG and QUEUE.UNREG (R129, R139).
-/
namespace Sys2Proof.Machine

/-! ## The regions after an access of a party that has none -/

theorem State.invQueue_regs (s : State) (p : Nat) (o : InvOp) : (s.invQueue p o).regs = s.regs := by
  rw [State.invQueue, State.invStart_regs, State.modPart_regs]

theorem State.awaitAnswer_regs (s : State) (w : Who) (f : FaultRec) : (s.awaitAnswer w f).1.regs = s.regs := by
  unfold State.awaitAnswer
  split
  · exact State.modPart_regs ..
  · rfl

theorem State.ringWrite_regs (s : State) (p : Nat) (bs : List Byte) : (s.ringWrite p bs).regs = s.regs := by
  unfold State.ringWrite
  split
  · rfl
  · rw [State.setPart_regs]
    split <;> rfl

theorem State.holdFault_regs (s : State) (w : Who) (c : BitVec 9) (l a va gpa : Nat) : (s.holdFault w c l a va gpa).1.regs = s.regs := by
  unfold State.holdFault
  split
  · rfl
  · split
    · rfl
    · dsimp only
      rw [State.emit_regs, State.ringWrite_regs, State.setPart_regs]

theorem State.useXlate_regs (s : State) (w : Who) (x : Xlate) (va : Nat) (k : AKind) : (s.useXlate w x va k).1.regs = s.regs := by
  have ite {c : Prop} [Decidable c] {x y : State × Got Nat} (hx : x.1.regs = s.regs) (hy : y.1.regs = s.regs) : (if c then x else y).1.regs = s.regs := by
    split <;> assumption
  unfold State.useXlate
  dsimp only
  split
  · exact s.awaitAnswer_regs w _
  · refine ite rfl (ite rfl (ite (s.holdFault_regs ..) (ite (s.invQueue_regs ..) ?_)))
    split
    · rfl
    · refine ite (s.invQueue_regs ..) ?_
      split <;> rfl

theorem State.up_regs {s : State} {y : State × Got Nat} (h : y.1.regs = s.regs) :
    (match y with
      | (s1, .fault c a) => ((s1, .fault c a) : State × Got Xlate)
      | (s1, _) => (s1, .held)).1.regs = s.regs := by
  split <;> exact h

theorem State.xlateFor_regs (s : State) {w : Who} (hw : w.region = none) (va : Nat) (k : AKind) : (s.xlateFor w va k).1.regs = s.regs := by
  have hcache (x : Xlate) : (s.useCache w x).regs = s.regs := by rw [State.useCache, hw]
  unfold State.xlateFor
  split
  · rfl
  · dsimp only
    split
    · exact State.up_regs (s.awaitAnswer_regs w _)
    · exact hcache _
    · split
      · rfl
      · exact State.up_regs (s.holdFault_regs ..)
      · exact iteInduction (motive := fun y : State × Got Xlate => y.1.regs = s.regs) (fun _ => State.up_regs (s.holdFault_regs ..)) fun _ => s.invQueue_regs ..
      · exact hcache _

theorem State.reach_regs (s : State) {w : Who} (hw : w.region = none) (va : Nat) (k : AKind) : (s.reach w va k).1.regs = s.regs := by
  unfold State.reach
  split
  · rfl
  · split
    · split
      · rfl
      · split <;> rfl
    · split <;> rfl
    · rfl
    · rfl
    · have hx := s.xlateFor_regs hw va k
      split <;> rename_i h <;> rw [h] at hx
      · exact (State.useXlate_regs ..).trans hx
      · exact hx
      · exact hx

theorem State.queueReach_regs (s : State) (p : Nat) (h : HQueue) (va : Nat) (k : AKind) : (s.queueReach p h va k).1.regs = s.regs := by
  unfold State.queueReach
  split
  · exact s.useXlate_regs ..
  · exact s.reach_regs rfl va k

theorem State.queueWrite_regs (s : State) (p : Nat) (h : HQueue) (off n v : Nat) : (s.queueWrite p h off n v).1.regs = s.regs := by
  have hr := s.queueReach_regs p h (h.va + off) .write
  unfold State.queueWrite
  dsimp only
  split_ifs
  · rfl
  · split <;> rename_i e <;> rw [e] at hr
    · split
      · exact hr
      · exact (State.writePhys_regs ..).trans ((State.countBytes_regs ..).trans hr)
    · exact hr
    · exact hr

/-! ## Work on a queue's header -/

/-- What a queue keeps whatever its header writes come to. -/
def HQueue.kept (h : HQueue) : HQueue := { h with stopped := false, wait := .none, owed := [] }

/-- Work on the header of queue `q` changes of the partition's queues at most whether `q` has stopped, waits or owes writes. -/
structure State.HeaderWork (p q : Nat) (s t : State) : Prop where
  regs : t.regs = s.regs
  tick : t.tick = s.tick
  denied : t.pkg.denied = s.pkg.denied
  other : ∀ n, n ≠ q → t.queue? p n = s.queue? p n
  queue : (t.queue? p q).map HQueue.kept = (s.queue? p q).map HQueue.kept

namespace State.HeaderWork

variable {p q : Nat} {s t u : State}

protected theorem rfl (p q : Nat) (s : State) : State.HeaderWork p q s s := ⟨Eq.refl _, Eq.refl _, Eq.refl _, fun _ _ => Eq.refl _, Eq.refl _⟩

theorem trans (h : State.HeaderWork p q s t) (g : State.HeaderWork p q t u) : State.HeaderWork p q s u :=
  ⟨g.regs.trans h.regs, g.tick.trans h.tick, g.denied.trans h.denied, fun n hn => (g.other n hn).trans (h.other n hn), g.queue.trans h.queue⟩

end State.HeaderWork

theorem State.Worked.headerWork {p q : Nat} {w : Who} {s t : State} (h : State.Worked w s t) (hregs : t.regs = s.regs) : State.HeaderWork p q s t :=
  ⟨hregs, h.tick, by rw [h.pkg], fun n _ => h.queue p n, by rw [h.queue]⟩

theorem State.modPart_headerWork (s : State) (p q : Nat) (f : Part → Part) (hf : ∀ v, (f v).queues = v.queues) : State.HeaderWork p q s (s.modPart p f) :=
  ⟨State.modPart_regs .., State.modPart_tick .., by rw [State.modPart_pkg], fun n _ => State.queue_modPart _ _ _ _ hf, by rw [State.queue_modPart _ _ _ _ hf]⟩

theorem State.modQueue_headerWork (s : State) (p q : Nat) (f : HQueue → HQueue) (hf : ∀ h, (f h).kept = h.kept) :
    State.HeaderWork p q s (s.modQueue p q f) where
  regs := State.modPart_regs ..
  tick := State.modPart_tick ..
  denied := by rw [State.modQueue, State.modPart_pkg]
  other n hn := by
    rw [State.queue?, State.queue?, State.modQueue, State.part_modPart, if_pos rfl]
    cases s.part? p with
    | none => rfl
    | some v =>
      simp only [Option.map_some, Option.bind_some]
      split
      · rw [spFind_spInsert, if_neg hn]
      · rfl
  queue := by rw [State.queue_modQueue, Option.map_map]; exact Option.map_congr fun h _ => hf h

theorem State.markStopped_headerWork (s : State) (p q : Nat) (c : BitVec 9) (idx : Nat) : State.HeaderWork p q s (s.markStopped p q c idx) := by
  have hdrop : State.HeaderWork p q s (s.invDrop p (InvOp.isInval q)) := (s.invDrop_worked (xdWho p) p _).headerWork (State.invDrop_regs ..)
  refine (hdrop.trans (State.modQueue_headerWork _ p q _ fun h => ?_)).trans (State.modPart_headerWork _ p q _ fun v => ?_) <;> rfl

/-- The writes that a queue owes, whatever comes of them. -/
theorem State.flushQueue_headerWork (p q f : Nat) : ∀ s : State, State.HeaderWork p q s (s.flushQueue p q f) := by
  induction f with
  | zero => exact fun s => .rfl p q s
  | succ f ih =>
    intro s
    have hpop (s1 : State) (rest : List (Nat × Nat × Nat)) : State.HeaderWork p q s1 ((s1.modQueue p q fun g => { g with owed := rest }).flushQueue p q f) :=
      (s1.modQueue_headerWork p q (fun g => { g with owed := rest }) fun _ => rfl).trans (ih _)
    rw [State.flushQueue]
    split
    · exact .rfl p q s
    · next h _ =>
      split
      · exact .rfl p q s
      · next off n v rest _ =>
        have hw : State.HeaderWork p q s (s.queueWrite p h off n v).1 := (s.queueWrite_worked p h off n v).headerWork (s.queueWrite_regs ..)
        split <;> rename_i e <;> rw [e] at hw
        · exact hw
        · exact hw.trans (hpop _ rest)
        · split
          · exact hw.trans (hpop _ rest)
          · exact hw.trans ((State.markStopped_headerWork _ p q _ _).trans (ih _))

/-! ## QUEUE.REG -/

/-- A queue as it is registered, with the writes to its header still owed (R139). -/
def HQueue.registering (h : HQueue) : HQueue := { h with owed := regWrites }

/-- The queue whose header lies at a physical address. -/
def State.queueAt (s : State) (va pa prio : Nat) (ext : List Xlate) : HQueue :=
  { va := va, log2 := s.readPhys (pa + 0x10) 4, prio := prio, cons := s.readPhys (pa + 8) 8, regCons := s.readPhys (pa + 8) 8, prod := s.readPhys pa 8
    extents := ext }

/-- A registration that no check refuses. -/
theorem State.register_ok {s : State} {p q prio va : Nat} {v : Part} {x : Xlate} {ext : List Xlate} {h : HQueue}
    (hh : h = s.queueAt va (x.pa + (va - x.va)) prio ext) (hfree : spFind v.queues q = none) (hva : va % 4096 = 0) (hwalk : s.walk v p va .read = .ok x)
    (htier : inTierWindow va = false) (hhost : isHost (x.pa + (va - x.va)) = true) (hphys : s.physFault (x.pa + (va - x.va)) 64 .read = none)
    (hl : 12 ≤ h.log2) (hl2 : h.log2 ≤ 26) (hcons : h.cons ≤ h.prod) (hroom : h.prod - h.cons ≤ 2 ^ h.log2 / 64)
    (hext : s.queueExtents v p (va + 0x40 + 2 ^ h.log2) 16386 va [] = .ok ext) (hlines : s.watchedLines < 1024) :
    s.register p v q prio va = .ok { v with queues := spInsert v.queues q h.registering } := by
  subst hh
  have hgood : ¬(s.readPhys (x.pa + (va - x.va) + 0x10) 4 < 12 ∨ 26 < s.readPhys (x.pa + (va - x.va) + 0x10) 4 ∨
      s.readPhys (x.pa + (va - x.va)) 8 < s.readPhys (x.pa + (va - x.va) + 8) 8 ∨
      2 ^ s.readPhys (x.pa + (va - x.va) + 0x10) 4 / 64 < s.readPhys (x.pa + (va - x.va)) 8 - s.readPhys (x.pa + (va - x.va) + 8) 8) := by
    simp only [State.queueAt] at hl hl2 hcons hroom
    omega
  have hext' : s.queueExtents v p (va + 0x40 + 2 ^ s.readPhys (x.pa + (va - x.va) + 0x10) 4) 16386 va [] = .ok ext := hext
  simp only [State.register, hfree, Option.isSome_none, Bool.false_eq_true, if_false, (aligned_iff ..).2 hva, Bool.not_true, htier, hwalk, hhost, hphys, Bool.or_self,
    hgood, hext', Nat.not_le.2 hlines]
  rfl

/-- Fields of zero. -/
theorem Memory.read_writeFields_zero (base x : Nat) (l : List (Nat × Nat × Nat)) (hz : ∀ w ∈ l, w.2.2 = 0) :
    ∀ m : Memory, (m.writeFields base l).read x = if ∃ w ∈ l, base + w.1 ≤ x ∧ x < base + w.1 + w.2.1 then 0 else m.read x := by
  induction l with
  | nil => exact fun m => (if_neg (by simp)).symm
  | cons w l ih =>
    intro m
    obtain ⟨off, n, v⟩ := w
    obtain rfl : v = 0 := hz _ List.mem_cons_self
    rw [Memory.writeFields, ih (fun u hu => hz u (List.mem_cons_of_mem _ hu))]
    simp only [List.mem_cons, exists_eq_or_imp]
    by_cases hl : ∃ w ∈ l, base + w.1 ≤ x ∧ x < base + w.1 + w.2.1
    · rw [if_pos hl, if_pos (.inr hl)]
    · by_cases hw : base + off ≤ x ∧ x < base + off + n
      · obtain ⟨i, rfl⟩ := Nat.exists_eq_add_of_le hw.1
        rw [if_neg hl, if_pos (.inl hw), Memory.read_writeN_in _ _ _ _ _ (by omega), Nat.zero_div]; rfl
      · rw [if_neg hl, if_neg (by rintro (h | h); exacts [hw h, hl h]), Memory.read_writeN_out _ _ _ _ _ hw]

/-- The bytes of a header after a registration has written its fields. -/
theorem read_regWrites (m : Memory) (base : Nat) :
    (∀ i, i < 20 → (m.writeFields base regWrites).read (base + 0x14 + i) = 0) ∧ (∀ i, i < 8 → (m.writeFields base regWrites).read (base + 0x38 + i) = 0) ∧
      ∀ y, ¬(base + 0x14 ≤ y ∧ y < base + 0x28) → ¬(base + 0x38 ≤ y ∧ y < base + 0x40) → (m.writeFields base regWrites).read y = m.read y := by
  have hread (x : Nat) := Memory.read_writeFields_zero base x regWrites (by decide) m
  have hcover (x : Nat) : (∃ w ∈ regWrites, base + w.1 ≤ x ∧ x < base + w.1 + w.2.1) ↔ base + 0x14 ≤ x ∧ x < base + 0x28 ∨ base + 0x38 ≤ x ∧ x < base + 0x40 := by
    simp only [regWrites, zeroWrites, List.cons_append, List.nil_append, List.mem_cons, List.not_mem_nil, or_false, exists_eq_or_imp, exists_eq_left]
    omega
  exact ⟨fun i hi => (hread _).trans (if_pos ((hcover _).2 (.inl (by omega)))), fun i hi => (hread _).trans (if_pos ((hcover _).2 (.inr (by omega)))),
    fun y h1 h2 => (hread _).trans (if_neg fun h => ((hcover y).1 h).elim h1 h2)⟩

/-- What QUEUE.REG comes to. -/
def State.queueRegRun (s : State) (a : List Byte) : CmdOut := s.forPart a [(1, 1), (2, 1), (8, 8)] fun p v =>
  if 15 < numAt a 1 1 then .fail Status.malformed 1
  else if 3 < numAt a 2 1 then .fail Status.malformed 2
  else match s.register p v (numAt a 1 1) (numAt a 2 1) (numAt a 8 8) with
    | .status n => .fail n (if n = Status.busy then 1 else 8)
    | .pull g => .hold (s.invQueue p (.pull g none))
    | .ok w => .done ((s.setPart p w).flushQueue p (numAt a 1 1) 16) [] []

theorem State.queueReg_eq (s : State) : s.queueReg = s.command 0x0010 24 0 State.queueRegRun := rfl

/-! ## QUEUE.UNREG -/

/-- What QUEUE.UNREG comes to. -/
def State.queueUnregRun (s : State) (a : List Byte) : CmdOut := s.forPart a [(1, 1)] fun p v =>
  if 15 < numAt a 1 1 then .fail Status.malformed 1
  else match spFind v.queues (numAt a 1 1) with
    | none => .fail Status.state 1
    | some h => .done (s.unregister p (numAt a 1 1)) (toBytes 8 h.cons) []

theorem State.queueUnreg_eq (s : State) : s.queueUnreg = s.command 0x0011 8 0 State.queueUnregRun := rfl

/-- A queue that is unregistered is gone, and the others stay. -/
theorem State.unregister_spec {s : State} {p q : Nat} {h : HQueue} (hq : s.queue? p q = some h) :
    (s.unregister p q).regs = s.regs ∧ (s.unregister p q).tick = s.tick ∧ (s.unregister p q).pkg.denied = s.pkg.denied ∧
      (s.unregister p q).queue? p q = none ∧ ∀ n, n ≠ q → (s.unregister p q).queue? p n = s.queue? p n := by
  have hwrite : State.HeaderWork p q s (s.queueWrite p h 8 8 h.cons).1 := (s.queueWrite_worked p h 8 8 h.cons).headerWork (s.queueWrite_regs ..)
  have hdrop (t : State) : State.HeaderWork p q t (t.invDrop p (InvOp.isInval q)) := (t.invDrop_worked (xdWho p) p _).headerWork (State.invDrop_regs ..)
  have hwork := hwrite.trans (hdrop _)
  rw [State.unregister, hq]
  dsimp only
  set s1 := (s.queueWrite p h 8 8 h.cons).1.invDrop p (InvOp.isInval q)
  have hqueue (f : Part → Part) (hf : ∀ v, (f v).queues = spErase v.queues q) (n : Nat) :
      (s1.modPart p f).queue? p n = if n = q then none else s1.queue? p n := by
    rw [State.queue?, State.queue?, State.part_modPart, if_pos rfl]
    cases s1.part? p with
    | none => exact (ite_self none).symm
    | some v => simp only [Option.map_some, Option.bind_some, hf, spFind_spErase]
  refine ⟨(State.modPart_regs ..).trans hwork.regs, (State.modPart_tick ..).trans hwork.tick, (congrArg Pkg.denied (State.modPart_pkg ..)).trans hwork.denied,
    (hqueue _ (fun _ => rfl) q).trans (if_pos rfl), fun n hn => ((hqueue _ (fun _ => rfl) n).trans (if_neg hn)).trans (hwork.other n hn)⟩

/-- R129, R139: QUEUE.REG and QUEUE.UNREG. -/
theorem queueCommands : Claims.QueueCommands := by
  intro s c bs args p v
  refine ⟨?_, fun h hat hnames hq hqueue => ?_⟩
  · intro x ext hat hnames q prio va pa prod cons l hq hprio hfree hva hwalk htier hhost hphys hl hl2 hcons hroom hext hlines h
    have hh : h = s.queueAt va pa prio ext := by
      simp only [h, State.queueAt, readPhys_eq_number, prod, cons, l]
    have hreg : s.register p v q prio va = .ok { v with queues := spInsert v.queues q h.registering } :=
      State.register_ok hh hfree hva hwalk htier hhost hphys hl hl2 hcons hroom hext hlines
    set s1 := s.setPart p { v with queues := spInsert v.queues q h.registering } with hs1
    have hrun : State.queueRegRun s args = .done (s1.flushQueue p q 16) [] [] := by
      refine (State.forPart_eq hnames _).trans ?_
      have hq' : ¬ 15 < numAt args 1 1 := Nat.not_lt.2 hq
      have hprio' : ¬ 3 < numAt args 2 1 := Nat.not_lt.2 hprio
      have hreg' : s.register p v (numAt args 1 1) (numAt args 2 1) (numAt args 8 8) = .ok { v with queues := spInsert v.queues q h.registering } := hreg
      rw [if_neg hq', if_neg hprio', hreg']
      rfl
    have hwork := State.flushQueue_headerWork p q 16 s1
    have hpart1 : s1.part? p = some { v with queues := spInsert v.queues q h.registering } := by rw [hs1, State.part_setPart, if_pos rfl]
    have hq1 (n : Nat) : s1.queue? p n = if n = q then some h.registering else spFind v.queues n := by
      rw [State.queue?, hpart1, Option.bind_some, spFind_spInsert]
    have hdone := State.command_done hat hrun (hwork.denied.trans (denied_of_atCommand hat)) (hwork.tick.trans (Eq.refl s.tick)) (Nat.zero_le _) (Nat.zero_le _)
    have hparts := hdone.2.1
    have hqueues (n : Nat) : (s.queueReg).queue? p n = (s1.flushQueue p q 16).queue? p n := by
      rw [State.queue?, State.part?, State.queueReg_eq, hparts]; rfl
    obtain ⟨g, hg, hkept⟩ := Option.map_eq_some_iff.1 (hwork.queue.trans (by rw [hq1, if_pos rfl]; rfl))
    have hv : s.part? p = some v := hnames.2.1
    refine ⟨_, _, g, rfl, hdone, hwork.regs, (hqueues q).trans hg, congrArg HQueue.va hkept, congrArg HQueue.log2 hkept, congrArg HQueue.prio hkept,
      congrArg HQueue.cons hkept, congrArg HQueue.regCons hkept, congrArg HQueue.prod hkept, congrArg HQueue.extents hkept, fun n hn => ?_, fun base hlies => ?_⟩
    · rw [hqueues, hwork.other n hn, hq1, if_neg hn, State.queue?, hv]; rfl
    · have hplaced : State.QueueWork p (s.setPart p { v with queues := spInsert v.queues q h }) s1 :=
        ⟨rfl, rfl, fun u hu => ⟨_, hpart1, by rw [State.part_setPart, if_pos rfl, Option.some.injEq] at hu; subst hu; exact ⟨rfl, rfl⟩⟩⟩
      obtain ⟨-, hqueue, hmem⟩ := State.flushQueue_headerLies p q base regWrites s1 h.registering 16 (by decide) (fun w hw => (regWrites_range w hw).2)
        (by rw [hq1, if_pos rfl]) rfl (hplaced.headerLies h h.registering base rfl rfl hlies)
      obtain ⟨h1, h2, h3⟩ := read_regWrites s1.mem base
      rw [hmem]
      exact ⟨Option.some.inj (hg.symm.trans hqueue), h1, h2, h3⟩
  · have hv : s.part? p = some v := hnames.2.1
    set q := Claims.field args 1 1 with hqdef
    have hs : s.queue? p q = some h := by rw [State.queue?, hv]; exact hqueue
    have hrun : State.queueUnregRun s args = .done (s.unregister p q) (toBytes 8 h.cons) [] := by
      refine (State.forPart_eq hnames _).trans ?_
      have hq' : ¬ 15 < numAt args 1 1 := Nat.not_lt.2 hq
      have hqueue' : spFind v.queues (numAt args 1 1) = some h := hqueue
      rw [if_neg hq', hqueue']
      rfl
    obtain ⟨hregs, htick, hdenied, hgone, hother⟩ := State.unregister_spec hs
    have hdone := State.command_done hat hrun (hdenied.trans (denied_of_atCommand hat)) htick (by rw [toBytes_length]; decide) (Nat.zero_le _)
    have hparts := hdone.2.1
    have hqueues (n : Nat) : (s.queueUnreg).queue? p n = (s.unregister p q).queue? p n := by
      rw [State.queue?, State.part?, State.queueUnreg_eq, hparts]; rfl
    exact ⟨_, _, rfl, hdone, hregs, (hqueues q).trans hgone, fun n hn => (hqueues n).trans (hother n hn)⟩

/-- Settles O55: each command is the completion of its own effect, which for the reports is none. -/
theorem queryCommands : Obligations.QueryCommands := ⟨badCommandCompletes, deviceCommands, reportCommands, queueCommands⟩

end Sys2Proof.Machine

/-!
O56, S2.UPDATE where a create waits (R135, R143, R169).
-/
namespace Sys2Proof.Machine

/-! ## The partition of a create that waits -/

theorem State.part_unform (s : State) (p q : Nat) (v : Part) : (s.unform p v).part? q = if q = p then none else s.part? q := by
  have hparts (l : List Nat) : (l.foldl (fun (st : State) (f : Nat) => st.modMem fun m => m.kill f (2 ^ 21) st.steps) s).parts = s.parts :=
    List.foldlRecOn (motive := fun t : State => t.parts = s.parts) l _ rfl fun t ht f _ => ht
  refine Eq.trans ?_ (spFind_spErase s.parts p q)
  rw [← hparts]
  rfl

/-- A create that waits is given up: its partition is gone. -/
theorem State.part_dropForming {s : State} {p : Nat} {v : Part} (hv : s.part? p = some v) (hf : v.forming.isSome = true) : s.dropForming.part? p = none := by
  have hgone (l : List (Nat × Part)) : ∀ t : State, t.part? p = none ∨ (∃ e ∈ l, e.1 = p) →
      (l.foldl (fun (st : State) (e : Nat × Part) => st.unform e.1 e.2) t).part? p = none := by
    induction l with
    | nil => exact fun t h => h.elim id fun ⟨e, he, _⟩ => nomatch he
    | cons e l ih =>
      refine fun t h => ih _ ?_
      rw [State.part_unform]
      by_cases hp : p = e.1
      · exact .inl (if_pos hp)
      · rw [if_neg hp]
        refine h.imp_right fun ⟨x, hx, hxp⟩ => ?_
        rcases List.mem_cons.1 hx with rfl | hx
        · exact absurd hxp.symm hp
        · exact ⟨x, hx, hxp⟩
  exact hgone _ s (.inr ⟨(p, v), List.mem_filter.2 ⟨mem_of_spFind _ _ _ hv, hf⟩, rfl⟩)

theorem State.part_dropUpdates_forming {s : State} {p : Nat} {v : Part} (hv : s.part? p = some v) (hf : v.forming.isSome = true) :
    s.dropUpdates.part? p = none := by
  refine List.foldlRecOn (motive := fun t : State => t.part? p = none) _ _ (State.part_dropForming hv hf) fun t ht e _ => ?_
  split
  · obtain ⟨l, hl, -⟩ := t.part_invDrop e.1 p (· == .update)
    rw [hl, ht]; rfl
  · exact ht

/-! ## What S2.UPDATE leaves of such a create -/

/-- `t` has the tick and the host's refusals of `s`, and its partition `p` is one that a create still forms if that of `s` is. -/
structure State.StillForms (p : Nat) (s t : State) : Prop where
  tick : t.tick = s.tick
  denied : t.pkg.denied = s.pkg.denied
  forming : (t.part? p).map Part.forming = (s.part? p).map Part.forming

namespace State.StillForms

variable {p : Nat} {s t u : State}

theorem trans (h : State.StillForms p s t) (g : State.StillForms p t u) : State.StillForms p s u :=
  ⟨g.tick.trans h.tick, g.denied.trans h.denied, g.forming.trans h.forming⟩

theorem modPart (s : State) (p : Nat) (f : Part → Part) (hf : ∀ v, (f v).forming = v.forming) : State.StillForms p s (s.modPart p f) :=
  ⟨State.modPart_tick .., by rw [State.modPart_pkg], by rw [State.part_modPart, if_pos rfl, Option.map_map]; exact Option.map_congr fun v _ => hf v⟩

theorem invStart (s : State) (p : Nat) : State.StillForms p s (s.invStart p) := by
  have hw := s.invStart_worked (xdWho p) p
  obtain ⟨l, hl, -⟩ := s.part_invStart p p
  exact ⟨hw.tick, by rw [hw.pkg], by rw [hl, Option.map_map]; rfl⟩

theorem invDrop (s : State) (p : Nat) (test : InvOp → Bool) : State.StillForms p s (s.invDrop p test) :=
  (modPart s p (fun v => { v with invq := v.invq.filter fun o => !test o }) fun _ => rfl).trans (invStart _ p)

theorem invOver (s : State) (p : Nat) (o : InvOp) : State.StillForms p s (s.invOver p o) := by
  rw [State.invOver]
  split
  · exact (modPart s p (fun v => { v with invq := v.invq.drop 1 }) fun _ => rfl).trans (invStart _ p)
  · exact ⟨rfl, rfl, rfl⟩

theorem repatch (s : State) (p : Nat) (test : Xlate → Bool) : State.StillForms p s (s.repatch p test) := by
  refine State.StillForms.trans ?_ (modPart _ p _ fun _ => rfl)
  exact ⟨rfl, rfl, rfl⟩

theorem checkMigrated (s : State) (p : Nat) : State.StillForms p s (s.checkMigrated p) := by
  rw [State.checkMigrated]
  split
  · exact ⟨rfl, rfl, rfl⟩
  · next v hv =>
    split
    · exact ⟨rfl, rfl, by rw [State.part_setPart, if_pos rfl, hv]; rfl⟩
    · exact ⟨rfl, rfl, rfl⟩

theorem applyS2 (s : State) (p : Nat) (v : Part) (first : Nat) (es : List Nat) : State.StillForms p s (s.applyS2 p v first es) := by
  unfold State.applyS2
  dsimp only
  refine State.StillForms.trans ?_ (checkMigrated _ p)
  refine State.StillForms.trans ?_ (repatch _ p _)
  refine State.StillForms.trans ?_ (invDrop _ p _)
  refine State.StillForms.trans ?_ (modPart _ p _ fun _ => rfl)
  exact ⟨rfl, rfl, rfl⟩

end State.StillForms

theorem firstBad_none {f : Nat → Option Nat} (l : List Nat) (h : ∀ e ∈ l, f e = none) : ∀ i, firstBad f i l = none := by
  induction l with
  | nil => exact fun _ => rfl
  | cons e l ih =>
    intro i
    rw [firstBad, h e List.mem_cons_self]
    exact ih (fun x hx => h x (List.mem_cons_of_mem _ hx)) _

section

variable {s : State} {c : CfwQueue} {bs args : List Byte} {p : Nat} {v : Part} (hat : Claims.AtCommand s c bs args 0x30 24 0)
  (hnames : Claims.Names s args [(4, 4), (8, 4), (0x10, 8)] p v) (hn : 1 ≤ Claims.field args 8 4) (hn2 : Claims.field args 8 4 ≤ 4096)
  (hentries : Claims.field args 4 4 + Claims.field args 8 4 ≤ v.entries) (hal : Claims.field args 0x10 8 % 8 = 0)
  (hin : Claims.field args 0x10 8 + 8 * Claims.field args 8 4 ≤ 2 ^ 46) (hclean : Claims.HostClean s (Claims.field args 0x10 8) (8 * Claims.field args 8 4))
  (hok : ∀ i, i < Claims.field args 8 4 → s.s2Bad p v false
    (ofBytes (((s.mem.readN (8 * Claims.field args 8 4) (0x080000000000 + Claims.field args 0x10 8)).drop (8 * i)).take 8)) = none)
  (hturn : v.invq = [])
include hat hnames hn hn2 hentries hal hin hclean hok hturn

theorem State.updateRun_done : s.updateRun args = .done ((s.applyS2 p v (Claims.field args 4 4)
    (words8 (s.mem.readN (8 * Claims.field args 8 4) (0x080000000000 + Claims.field args 0x10 8)) (Claims.field args 8 4))).invOver p .update) [] [] := by
  have hgood : ¬(numAt args 8 4 = 0 ∨ 4096 < numAt args 8 4 ∨ v.entries < numAt args 4 4 + numAt args 8 4) := by
    have h1 : numAt args 8 4 = Claims.field args 8 4 := rfl
    have h2 : numAt args 4 4 = Claims.field args 4 4 := rfl
    omega
  have hread : s.hostRead (numAt args 0x10 8) (8 * numAt args 8 4) = some (s.mem.readN (8 * numAt args 8 4) (hostBase + numAt args 0x10 8)) :=
    State.hostRead_allowed (denied_of_atCommand hat) hin hclean
  have halign : aligned 8 (numAt args 0x10 8) = true := (aligned_iff ..).2 hal
  have hchecks := firstBad_none (f := s.s2Bad p v false) (words8 (s.mem.readN (8 * numAt args 8 4) (hostBase + numAt args 0x10 8)) (numAt args 8 4))
    (fun e he => by obtain ⟨i, hi, rfl⟩ := List.mem_map.1 he; exact hok i (List.mem_range.1 hi)) 0
  have hfirst : v.invTurn .update = true := by rw [Part.invTurn, hturn]; rfl
  refine (State.forPart_eq hnames _).trans ?_
  dsimp only
  rw [if_neg hgood, halign, hread]
  dsimp only
  rw [hchecks, hfirst]
  rfl

/-- R135, R169: an S2.UPDATE that completes gives up a create that waits for a pull, that of its own partition too. -/
theorem State.part_s2Update_forming (hforming : v.forming.isSome = true) : s.s2Update.part? p = none := by
  have hrun := State.updateRun_done hat hnames hn hn2 hentries hal hin hclean hok hturn
  set es := words8 (s.mem.readN (8 * Claims.field args 8 4) (0x080000000000 + Claims.field args 0x10 8)) (Claims.field args 8 4)
  have hkeep := (State.StillForms.applyS2 s p v (Claims.field args 4 4) es).trans (State.StillForms.invOver _ p .update)
  have hdone := State.command_done hat hrun (hkeep.denied.trans (denied_of_atCommand hat)) hkeep.tick (Nat.zero_le _) (Nat.zero_le _)
  set t := s.command 0x0030 24 0 State.updateRun with ht
  obtain ⟨hpkg, hparts, -⟩ := hdone
  have hforms : (t.part? p).map Part.forming = some v.forming := by
    rw [State.part?, hparts, ← State.part?, hkeep.forming, hnames.2.1]; rfl
  obtain ⟨w, hw, hwf⟩ := Option.map_eq_some_iff.1 hforms
  have hcons : ¬ t.pkg.cfw.map CfwQueue.cons = s.pkg.cfw.map CfwQueue.cons := by
    rw [hpkg, hat.1]
    exact fun h => absurd (Option.some.inj h) (Nat.succ_ne_self _)
  have hupdate : s.s2Update = t.dropUpdates := if_neg hcons
  rw [hupdate]
  exact State.part_dropUpdates_forming hw (hwf ▸ hforming)

end

/-! ## The refuting state -/

/-- An S2.UPDATE: arguments of 24 bytes at host address 0x1000, its completion at 0x2000 (R136). -/
def updatePacket : List Byte := toBytes 8 0x30 ++ toBytes 8 0x1000 ++ toBytes 8 24 ++ toBytes 8 0x2000 ++ toBytes 8 64 ++ toBytes 24 0

/-- Of partition 0, one entry from entry 0 on, from host address 0x3000 (R169). -/
def updateArgs : List Byte := toBytes 8 0 ++ toBytes 8 1 ++ toBytes 8 0x3000

/-- A partition that a create still forms. -/
def formedPart : Part :=
  { regions := 0, set := 0, keys := 1, keyBase := 0, hostWin := false, key := 1, s2 := 0, entries := 1, s1root := 0, forming := some 0 }

/-- The CFW queue with the packet at its head, at host address 0. -/
def updateQueue : CfwQueue := { pa := 0, log2 := 12, cons := 0, prod := 1 }

/-- A machine after boot with the packet at the head of its CFW queue, while a create waits. -/
def updateState : State :=
  { pkg := { boot := 6, cfw := some updateQueue }, parts := [(0, formedPart)]
    mem := (({} : Memory).writeN (0x080000000000 + 0x40) updatePacket).writeN (0x080000000000 + 0x1000) updateArgs }

theorem updateState_packet : updateState.mem.readN 64 (0x080000000000 + 0x40) = updatePacket :=
  (Memory.readN_writeN_apart _ _ _ _ _ (.inl (by decide))).trans (Memory.readN_writeN _ _ updatePacket)

theorem updateState_args : updateState.mem.readN 24 (0x080000000000 + 0x1000) = updateArgs := Memory.readN_writeN _ _ updateArgs

theorem updateState_entry : updateState.mem.readN 8 (0x080000000000 + 0x3000) = List.replicate 8 0 :=
  ((Memory.readN_writeN_apart _ _ _ _ _ (.inr (by decide))).trans (Memory.readN_writeN_apart _ _ _ _ _ (.inr (by decide)))).trans (by decide)

theorem updateState_clean (a n : Nat) : Claims.HostClean updateState a n := fun x hx => by
  have hpoison : updateState.mem.poison = [] := by decide
  rw [hpoison] at hx
  cases hx

theorem updatePacket_ok : Claims.field updatePacket 0 2 = 0x30 ∧ (∀ i ∈ [2, 3, 0x14, 0x15, 0x16, 0x17], updatePacket.getD i 0 = 0) ∧
    (∀ i, 0x24 ≤ i → i < 64 → updatePacket.getD i 0 = 0) ∧ Claims.field updatePacket 8 8 = 0x1000 ∧ Claims.field updatePacket 0x10 4 = 24 ∧
    Claims.field updatePacket 0x18 8 = 0x2000 ∧ Claims.field updatePacket 0x20 4 = 64 := by
  refine ⟨by decide, by decide, fun i h1 h2 => ?_, by decide, by decide, by decide, by decide⟩
  interval_cases i <;> rfl

theorem updateState_atCommand : Claims.AtCommand updateState updateQueue updatePacket updateArgs 0x30 24 0 := by
  obtain ⟨hop, hz, hz2, harg, hlen, hres, hsize⟩ := updatePacket_ok
  refine ⟨rfl, rfl, by decide, by decide, rfl, updateState_packet.symm, hop, hz, hz2, ?_, hlen, ?_, ?_, ?_, ?_, rfl, ?_, by decide, ?_⟩
  · rw [harg]
  · rw [hres]
  · rw [hsize]
  · rw [harg]; decide
  · rw [hres]; decide
  · exact updateState_clean _ _
  · rw [harg]; exact updateState_args.symm

theorem updateState_names : Claims.Names updateState updateArgs [(4, 4), (8, 4), (0x10, 8)] 0 formedPart := by
  refine ⟨by decide, rfl, fun _ h => absurd h List.not_mem_nil, fun i h1 h2 hnot => ?_⟩
  have hfree : 1 ≤ i ∧ i < 8 ∨ 12 ≤ i ∧ i < 16 := by
    have h24 : i < 24 := h2
    simp only [List.mem_cons, List.not_mem_nil, or_false, forall_eq_or_imp, forall_eq] at hnot
    omega
  rcases hfree with ⟨hlow, hhigh⟩ | ⟨hlow, hhigh⟩ <;> interval_cases i <;> rfl

theorem updateState_entryOk (i : Nat) (hi : i < 1) : updateState.s2Bad 0 formedPart false
    (ofBytes (((updateState.mem.readN 8 (0x080000000000 + 0x3000)).drop (8 * i)).take 8)) = none := by
  obtain rfl : i = 0 := by omega
  rw [updateState_entry]
  rfl

/-- Refutes O56: S2.UPDATE for a partition that a create still forms completes, and its end gives up every create that waits for a pull, so that
the partition is gone where the statement says that it is there. -/
theorem not_tableCommands : ¬ Obligations.TableCommands := by
  intro h
  have hfields : Claims.field updateArgs 4 4 = 0 ∧ Claims.field updateArgs 8 4 = 1 ∧ Claims.field updateArgs 0x10 8 = 0x3000 := by decide
  obtain ⟨h0, h1, h2⟩ := hfields
  have hentry : ∀ i, i < Claims.field updateArgs 8 4 → updateState.s2Bad 0 formedPart false (ofBytes (((updateState.mem.readN
      (8 * Claims.field updateArgs 8 4) (0x080000000000 + Claims.field updateArgs 0x10 8)).drop (8 * i)).take 8)) = none := by
    rw [h1, h2]; exact updateState_entryOk
  have hgone : updateState.s2Update.part? 0 = none := State.part_s2Update_forming updateState_atCommand updateState_names (by decide) (by decide) (by decide)
    (by decide) (by decide) (updateState_clean _ _) hentry rfl rfl
  obtain ⟨hupdate, -⟩ := h.2 updateState updateQueue updatePacket updateArgs 0 formedPart
  obtain ⟨hdone, -⟩ := hupdate updateState_atCommand updateState_names (by decide) (by decide) (by decide) (by decide) (by decide) (updateState_clean _ _) hentry
  obtain ⟨t, u, w, hexec, -, -, -, -, -, -, hpart, -⟩ := hdone (.inl rfl)
  obtain rfl : updateState.s2Update = t := Host.Outcome.next.inj hexec
  rw [hgone] at hpart
  cases hpart

end Sys2Proof.Machine

/-!
O57, PART.CREATE and PART.MIGRATE.IN (R141 to R148, R329, R398, R399).
-/
namespace Sys2Proof.Machine

/-! ## The set that a partition joins -/

/-- What joining a set leaves: the partitions, the clock, the key slots and what the host refuses. -/
structure State.Joins (s t : State) : Prop where
  parts : t.parts = s.parts
  tick : t.tick = s.tick
  denied : t.pkg.denied = s.pkg.denied
  keySlots : t.pkg.keySlots = s.pkg.keySlots

namespace State.Joins

variable {s t u : State}

protected theorem rfl (s : State) : State.Joins s s := ⟨Eq.refl _, Eq.refl _, Eq.refl _, Eq.refl _⟩

theorem trans (h : State.Joins s t) (g : State.Joins t u) : State.Joins s u :=
  ⟨g.parts.trans h.parts, g.tick.trans h.tick, g.denied.trans h.denied, g.keySlots.trans h.keySlots⟩

theorem foldl (l : List Nat) (f : State → Nat → State) (hf : ∀ t r, State.Joins t (f t r)) (s : State) : State.Joins s (l.foldl f s) :=
  List.foldlRecOn l f (.rfl s) fun t ht r _ => ht.trans (hf t r)

end State.Joins

theorem State.columnOn_joins (s : State) (r : Nat) : State.Joins s (s.columnOn r) := ⟨rfl, rfl, rfl, rfl⟩

theorem State.scrubAll_joins (s : State) (m : BitVec 192) : State.Joins s (s.scrubAll m) :=
  State.Joins.foldl _ (fun st r => st.scrubRegion r) (fun _ _ => ⟨rfl, rfl, rfl, rfl⟩) s

theorem State.joinSet_joins (s : State) (a : NewPart) (p k : Nat) (old : Option Nat) : State.Joins s (s.joinSet a p k old) := by
  rw [State.joinSet]
  split
  · exact ⟨rfl, rfl, rfl, rfl⟩
  · refine ((s.scrubAll_joins a.regions).trans ?_).trans (State.Joins.foldl _ _ (fun t r => t.columnOn_joins r) _)
    exact ⟨rfl, rfl, rfl, rfl⟩

/-! ## The steps of R143 -/

theorem State.freeNumber_eq {s : State} {p : Nat} (hp : p < 48) (hfree : s.part? p = none) (hlow : ∀ n, n < p → s.part? n ≠ none) : s.freeNumber = some p := by
  rw [State.freeNumber, List.find?_range_eq_some]
  refine ⟨by rw [hfree]; rfl, List.mem_range.2 hp, fun n hn => ?_⟩
  rw [Bool.not_eq_true', Option.isNone_eq_false_iff]
  exact Option.isSome_iff_ne_none.2 (hlow n hn)

/-- The set is joined, or can be made (R143). -/
theorem State.reserve_eq {s : State} {a : NewPart} {old : Option Nat}
    (h : (a.share = 0xFF ∧ old = none ∧ s.regionsUsable a.regions = true ∧ ∀ e ∈ s.sets, e.2.regions &&& a.regions = 0) ∨
      (a.share ≠ 0xFF ∧ ∃ w t, s.part? a.share = some w ∧ spFind s.sets w.set = some t ∧ w.state = .ready ∧ t.regions = a.regions ∧
        t.members.length < 4 ∧ old = some w.set)) : s.reserve a = .ok old := by
  rcases h with ⟨hshare, rfl, husable, hapart⟩ | ⟨hshare, w, t, hw, ht, hstate, hregions, hroom, rfl⟩
  · have hnone : s.sets.any (fun e => e.2.regions &&& a.regions != 0) = false :=
      List.any_eq_false.2 fun e he => by rw [hapart e he, bne_self_eq_false]; exact Bool.false_ne_true
    rw [State.reserve, if_pos hshare, husable, hnone]; rfl
  · have hgood : ¬(w.state ≠ .ready ∨ t.regions ≠ a.regions) := by rw [hstate, hregions]; simp
    rw [State.reserve, if_neg hshare, hw]
    dsimp only
    rw [ht]
    dsimp only
    rw [if_neg hgood, if_neg (Nat.not_le.2 hroom)]

/-- The key is one that nobody holds (R145). -/
theorem State.chooseKey_spec {s : State} {key : Nat} (h : s.chooseKey = some key) :
    1 ≤ key ∧ key ≤ 0xFFFE ∧ (∀ e ∈ s.parts, e.2.key.toNat ≠ key) ∧ ∀ e ∈ s.pkg.quarantine, e.1 ≠ key := by
  have hfree := List.find?_some h
  obtain ⟨i, -, rfl⟩ := List.mem_map.1 (List.mem_of_find?_eq_some h)
  rw [State.keyFree, Bool.and_eq_true, Bool.not_eq_true', Bool.not_eq_true', List.any_eq_false, List.any_eq_false] at hfree
  refine ⟨by omega, by omega, fun e he hk => hfree.1 e he (beq_iff_eq.2 hk), fun e he hk => hfree.2 e he (beq_iff_eq.2 hk)⟩

/-- The partition that a create makes, with its slots. -/
def State.formed (s : State) (a : NewPart) (key base : Nat) (slots : List (Port × Nat)) (old : Option Nat) : Part :=
  { s.newPart a (old.getD s.freeSet) key base with slots := slots }

/-- The state after the sixth step of a create. -/
def State.forming (s : State) (a : NewPart) (p base : Nat) (v : Part) (old : Option Nat) : State :=
  ((s.joinSet a p (old.getD s.freeSet) old).setPart p v).modPkg fun x => { x with keySlots := x.keySlots ++ [(base, a.keys)], keyDraws := x.keyDraws + a.keys }

/-- Where every step of R143 succeeds, the last two are left. -/
theorem State.create_eq {s : State} {a : NewPart} {p key base : Nat} {slots : List (Port × Nat)} {old : Option Nat} (h : Claims.CanCreate s a p key base slots old) :
    s.create a = (s.forming a p base (s.formed a key base slots old) old).lastSteps a p (s.formed a key base slots old) := by
  obtain ⟨-, hp, hfree, hlow, hset, hslots, hkey, hbase, hentries, hwindows, hapart, hinside, hranks, -⟩ := h
  have hfirst : firstBad (s.s2Bad p (s.formed a key base slots old) a.origin.isSome) 0 ((s.s2Entries (s.formed a key base slots old)).map Prod.snd) = none := by
    refine firstBad_none _ (fun e he => ?_) 0
    obtain ⟨x, hx, rfl⟩ := List.mem_map.1 he
    obtain ⟨i, hi, rfl⟩ := List.mem_map.1 hx
    dsimp only
    rw [readPhys_eq_number]
    exact hentries i (List.mem_range.1 hi)
  have hrank : firstBad (rankBad a.regions key) 0 (words8 a.ranks (a.ranks.length / 8)) = none := by
    refine firstBad_none _ (fun e he => ?_) 0
    obtain ⟨i, hi, rfl⟩ := List.mem_map.1 he
    exact hranks i (List.mem_range.1 hi)
  have hwin : ((s.formed a key base slots old).windows.all fun w => windowInside (s.formed a key base slots old) (w.va, w.log2)) = true :=
    List.all_eq_true.2 hinside
  have hnone : a.windows.isNone = false := by rw [Option.isNone_eq_false_iff]; exact hwindows
  have hap : windowsApart ((s.formed a key base slots old).windows.map fun w => (w.va, w.log2)) = true := hapart
  unfold State.create
  rw [State.freeNumber_eq hp hfree hlow]
  dsimp only
  rw [State.reserve_eq hset]
  dsimp only
  rw [hslots]
  dsimp only
  rw [hkey]
  dsimp only
  rw [hbase]
  dsimp only
  split
  · next hbad => exact absurd (hfirst.symm.trans hbad) nofun
  · have h1 : ¬(a.windows.isNone || !(windowsApart ((s.formed a key base slots old).windows.map fun w => (w.va, w.log2)))) = true := by
      rw [hnone, hap]; exact Bool.false_ne_true
    have h2 : ¬(!((s.formed a key base slots old).windows.all fun w => windowInside (s.formed a key base slots old) (w.va, w.log2))) = true := by
      rw [hwin]; exact Bool.false_ne_true
    have h3 : ¬(firstBad (rankBad a.regions key) 0 (words8 a.ranks (a.ranks.length / 8))).isSome = true := by rw [hrank]; exact Bool.false_ne_true
    exact (if_neg h1).trans ((if_neg h2).trans (if_neg h3))

/-! ## Queue 0, and the end of a create -/

/-- A registration that succeeds changes the partition's queues alone. -/
def Registered.Requeues (v : Part) (r : Registered) : Prop := ∀ w, r = .ok w → ∃ l, w = { v with queues := l }

theorem State.register_requeues (s : State) (p q prio va : Nat) (v : Part) : (s.register p v q prio va).Requeues v := by
  have hstatus (n : Nat) : (Registered.status n).Requeues v := fun _ h => nomatch h
  have hpull (g : Nat) : (Registered.pull g).Requeues v := fun _ h => nomatch h
  have hok (l : Sparse HQueue) : (Registered.ok { v with queues := l }).Requeues v := fun _ h => ⟨l, (Registered.ok.inj h).symm⟩
  unfold State.register
  split
  · exact hstatus _
  split
  · exact hstatus _
  split
  · exact hstatus _
  split
  · dsimp only
    split
    · exact hstatus _
    split
    · exact hstatus _
    split
    · exact hstatus _
    · exact hpull _
    split
    · exact hstatus _
    · exact hok _
  · split
    · exact hstatus _
    · exact hpull _
  · exact hstatus _

/-- A migration that has ended makes its partition ready; nothing else changes. -/
theorem State.checkMigrated_spec {s : State} {p : Nat} {v : Part} (hv : s.part? p = some v) :
    (s.checkMigrated p).pkg = s.pkg ∧ (s.checkMigrated p).tick = s.tick ∧ (∀ n, n ≠ p → (s.checkMigrated p).part? n = s.part? n) ∧
      ∃ st, (s.checkMigrated p).part? p = some { v with state := st } ∧ (st = v.state ∨ v.state = .migratingIn ∧ st = .ready) := by
  rw [State.checkMigrated, hv]
  dsimp only
  split
  · next h => exact ⟨rfl, rfl, fun n hn => by rw [State.part_setPart, if_neg hn], .ready, by rw [State.part_setPart, if_pos rfl], .inr ⟨h.1, rfl⟩⟩
  · exact ⟨rfl, rfl, fun _ _ => rfl, v.state, hv, .inl rfl⟩

theorem mem_checkMigrated {s : State} {p : Nat} {e : Nat × Part} (h : e ∈ (s.checkMigrated p).parts) :
    e ∈ s.parts ∨ ∃ v, s.part? p = some v ∧ e = (p, { v with state := .ready }) := by
  rw [State.checkMigrated] at h
  split at h
  · exact .inl h
  · next v hv =>
    split at h
    · exact (mem_spInsert _ _ _ _ h).symm.imp_right fun he => ⟨v, hv, he⟩
    · exact .inl h

/-- The last two steps, where queue 0 can be registered and the host takes the record ring. -/
theorem State.lastSteps_eq {s : State} {a : NewPart} {p : Nat} {v : Part} (hd : s.pkg.denied = []) (hform : v.forming = none)
    (hq : numAt a.args 0x48 8 = 0 ∨ ∃ w, s.register p v 0 (numAt a.args 0x50 1) (numAt a.args 0x48 8) = .ok w)
    (hring : a.ring + (64 + 256 * a.ringn + 64 * 64) ≤ 2 ^ 46) :
    ∃ l, s.lastSteps a p v = .ok p v.key.toNat ((s.setPart p { v with queues := l, forming := none }).checkMigrated p) := by
  obtain ⟨w, hw, l, rfl⟩ : ∃ w, (if numAt a.args 0x48 8 = 0 then Registered.ok v else s.register p v 0 (numAt a.args 0x50 1) (numAt a.args 0x48 8)) = .ok w ∧
      ∃ l, w = { v with queues := l } := by
    rcases hq with hq | ⟨w, hw⟩
    · exact ⟨v, if_pos hq, v.queues, rfl⟩
    · by_cases hz : numAt a.args 0x48 8 = 0
      · exact ⟨v, if_pos hz, v.queues, rfl⟩
      · exact ⟨w, (if_neg hz).trans hw, s.register_requeues p 0 _ _ v w hw⟩
  refine ⟨l, ?_⟩
  have hok : s.hostOk a.ring (64 + 256 * a.ringn + 64 * 64) = true := State.hostOk_allowed hd hring
  have hnone : v.forming.isNone = true := by rw [hform]; rfl
  rw [State.lastSteps]
  dsimp only
  rw [hw]
  dsimp only
  rw [hok, hnone]
  rfl

/-! ## A create -/

/-- The state that a create leaves, with the queues that queue 0 makes. -/
def State.made (s : State) (a : NewPart) (p key base : Nat) (slots : List (Port × Nat)) (old : Option Nat) (l : Sparse HQueue) : State :=
  ((s.forming a p base (s.formed a key base slots old) old).setPart p { s.formed a key base slots old with queues := l, forming := none }).checkMigrated p

theorem field_take {l : List Byte} {off n k : Nat} (h : off + n ≤ k) : Claims.field (l.take k) off n = Claims.field l off n := by
  rw [Claims.field, Claims.field, List.drop_take, List.take_take, Nat.min_eq_left (by omega)]

section

variable {s : State} {args folds ranks : List Byte} {origin : Option Migration} {p key base : Nat} {slots : List (Port × Nat)} {old : Option Nat}
  (hd : s.pkg.denied = []) (h : Claims.CanCreate s { args := args, folds := folds, ranks := ranks, origin := origin } p key base slots old)
  (hnone : ∀ e ∈ s.parts, e.2.forming = none)
include hd h hnone

/-- A create that no step refuses. -/
theorem State.runCreate_done (hshare : numAt args 0x18 1 ≠ 0xFF → s.named (numAt args 0x18 1) = false) (hlow : s.populated (numAt args 0x20 8) = true)
    (hhigh : s.populated (numAt args 0x20 8 + 8 * numAt args 0x28 4 - 1) = true)
    (hfolds : (if numAt args 0x19 1 = 0 then some [] else s.hostRead (numAt args 0x40 8) (16 * numAt args 0x19 1)) = some folds)
    (hranks : (if numAt args 0x38 8 = 0 then some [] else s.hostRead (numAt args 0x38 8) 8192) = some ranks) :
    ∃ l, s.runCreate args origin = .done (s.made { args := args, folds := folds, ranks := ranks, origin := origin } p key base slots old l)
      (toBytes 1 p ++ [0] ++ toBytes 2 key) ((List.range 9).flatMap fun _ => toBytes 8 s.tick) := by
  set a : NewPart := { args := args, folds := folds, ranks := ranks, origin := origin }
  set v := s.formed a key base slots old with hv
  have hcreate := State.create_eq h
  obtain ⟨hargs, -, -, -, -, -, hkey, -, -, -, -, -, -, hq, hring⟩ := h
  have hjoin := s.joinSet_joins a p (old.getD s.freeSet) old
  obtain ⟨l, hl⟩ := State.lastSteps_eq (s := s.forming a p base v old) (a := a) (p := p) (v := v) (hjoin.denied.trans hd) rfl hq hring
  obtain ⟨-, hkmax, -⟩ := State.chooseKey_spec hkey
  have hvkey : v.key.toNat = key := Nat.mod_eq_of_lt (by omega)
  rw [hvkey] at hl
  refine ⟨l, ?_⟩
  have hwaits : s.parts.find? (fun e => e.2.forming.isSome) = none := List.find?_eq_none.2 fun e he => by rw [hnone e he]; exact Bool.false_ne_true
  have hnamed : ¬(numAt args 0x18 1 ≠ 0xFF ∧ s.named (numAt args 0x18 1) = true) := fun ⟨h1, h2⟩ => Bool.false_ne_true ((hshare h1).symm.trans h2)
  have hargs' : createArgsOk args = true := hargs
  rw [State.runCreate, hwaits]
  dsimp only
  rw [if_neg hnamed, hargs', hlow, hhigh, hfolds, hranks]
  dsimp only
  rw [hcreate, hl]
  rfl

end

/-- What a create leaves: the partition that it makes, with every other as it was. -/
theorem State.formed_spec (s : State) (a : NewPart) (p key base : Nat) (slots : List (Port × Nat)) (old : Option Nat) (l : Sparse HQueue) :
    let v := s.formed a key base slots old
    let u := s.made a p key base slots old l
    u.tick = s.tick ∧ u.pkg.denied = s.pkg.denied ∧ u.pkg.keySlots = s.pkg.keySlots ++ [(base, a.keys)] ∧ (∀ n, n ≠ p → u.part? n = s.part? n) ∧
      (∃ st, u.part? p = some { v with queues := l, forming := none, state := st } ∧ (st = .ready ∨ a.origin ≠ none ∧ st = .migratingIn)) ∧
      ((∀ e ∈ s.parts, e.2.forming = none) → ∀ e ∈ u.parts, e.2.forming = none) := by
  intro v u
  have hjoin := s.joinSet_joins a p (old.getD s.freeSet) old
  set w : Part := { v with queues := l, forming := none }
  set t := (s.forming a p base v old).setPart p w
  have hself : t.part? p = some w := by rw [State.part_setPart, if_pos rfl]
  have hother (n : Nat) (hn : n ≠ p) : t.part? n = s.part? n := by
    rw [State.part_setPart, if_neg hn, State.forming]
    refine (State.part_setPart ..).trans ((if_neg hn).trans ?_)
    rw [State.part?, hjoin.parts, State.part?]
  obtain ⟨hpkg, htick, hkeep, st, hst, hstate⟩ := State.checkMigrated_spec hself
  have hv : v.state = if a.origin.isSome then .migratingIn else .ready := rfl
  refine ⟨htick.trans hjoin.tick, (congrArg Pkg.denied hpkg).trans hjoin.denied, (congrArg Pkg.keySlots hpkg).trans ?_, fun n hn => (hkeep n hn).trans (hother n hn),
    ⟨st, hst, ?_⟩, fun hnone e he => ?_⟩
  · exact congrArg (· ++ [(base, a.keys)]) hjoin.keySlots
  · rcases hstate with h | ⟨-, h⟩
    · rw [h]
      show v.state = _ ∨ _ ∧ v.state = _
      rw [hv]
      cases ho : a.origin with
      | none => exact .inl rfl
      | some o => exact .inr ⟨nofun, rfl⟩
    · exact .inl h
  · rcases mem_checkMigrated he with he | ⟨x, hx, rfl⟩
    · rcases mem_spInsert _ _ _ _ he with rfl | he
      · rfl
      · rcases mem_spInsert _ _ _ _ (show e ∈ spInsert (s.joinSet a p (old.getD s.freeSet) old).parts p v from he) with rfl | he
        · rfl
        · rw [hjoin.parts] at he; exact hnone e he
    · rw [hself, Option.some.injEq] at hx
      subst hx
      rfl

/-- A command that runs a create, and whose end touches no state where no create waits, makes a partition (R143). -/
theorem makes_of_run {s : State} {c : CfwQueue} {bs args : List Byte} {i : Instr} {op len : Nat} {origin : Option Migration} {run : State → List Byte → CmdOut}
    (hat : Claims.AtCommand s c bs args op len 72) (hrun : run s args = s.runCreate (args.take 136) origin)
    (hexec : (∀ e ∈ (s.command op len 72 run).parts, e.2.forming = none) → exec i s = .next (s.command op len 72 run)) : Claims.Makes i s c bs args origin := by
  intro p key base slots old folds ranks hcan hlow hhigh hfolds hranks hshare hnone
  have hd := denied_of_atCommand hat
  have hf {off n : Nat} (h : off + n ≤ 136) : numAt (args.take 136) off n = Claims.field args off n := field_take h
  obtain ⟨l, hdone⟩ := State.runCreate_done hd hcan hnone
    (by
      rw [hf (by decide)]
      exact fun hs => List.any_eq_false.2 fun e he => by rw [beq_iff_eq]; exact hshare hs e he)
    (by rw [hf (by decide)]; exact hlow) (by rw [hf (by decide), hf (by decide)]; exact hhigh)
    (by
      rw [hf (by decide), hf (by decide)]
      split at hfolds
      · next hz => rw [if_pos hz, hfolds]
      · next hz => rw [if_neg hz, State.hostRead_allowed hd hfolds.1 hfolds.2.1, hfolds.2.2]; rfl)
    (by
      rw [hf (by decide)]
      split at hranks
      · next hz => rw [if_pos hz, hranks]
      · next hz => rw [if_neg hz, State.hostRead_allowed hd hranks.1 hranks.2.1, hranks.2.2]; rfl)
  obtain ⟨htick, hdenied, hkeys, hother, ⟨st, hpart, hstate⟩, hforming⟩ := s.formed_spec { args := args.take 136, folds := folds, ranks := ranks, origin := origin }
    p key base slots old l
  have hcompleted := State.command_done hat (hrun.trans hdone) (hdenied.trans hd) htick (by simp [toBytes_length])
    (by rw [flatMap_toBytes_length _ 8 _ fun _ => toBytes_length 8 _, List.length_range])
  have hparts := hcompleted.2.1
  have hpkg := hcompleted.1
  obtain ⟨-, -, -, -, -, -, hkey, -⟩ := hcan
  obtain ⟨hkmin, hkmax, hkparts, hkquar⟩ := State.chooseKey_spec hkey
  have hlookup (n : Nat) : (s.command op len 72 run).part? n =
      (s.made { args := args.take 136, folds := folds, ranks := ranks, origin := origin } p key base slots old l).part? n := by
    rw [State.part?, hparts, ← State.part?]
  have hregions : numAt (args.take 136) 0 24 < 2 ^ 192 :=
    (ofBytes_lt _).trans_le (Nat.pow_le_pow_right (by decide) (List.length_take_le ..) |>.trans (by decide : 256 ^ 24 ≤ 2 ^ 192))
  refine ⟨_, _, _, _, hexec (by rw [hparts]; exact hforming hnone), hcompleted, rfl, hkparts, hkquar, hkmin, hkmax, (hlookup p).trans hpart, ?_, ?_, ?_, ?_, ?_, ?_,
    rfl, hstate, fun n hn => (hlookup n).trans (hother n hn), rfl, ?_⟩
  · exact (Nat.mod_eq_of_lt hregions).trans (hf (by decide))
  · exact Nat.mod_eq_of_lt (by omega)
  · exact hf (by decide)
  · exact hf (by decide)
  · exact hf (by decide)
  · exact hf (by decide)
  · rw [hpkg]; exact hkeys

/-! ## PART.MIGRATE.IN -/

/-- What PART.MIGRATE.IN comes to. -/
def State.migrateRun (s : State) (a : List Byte) : CmdOut :=
  let t := (a.drop 0x90).take 144
  match firstUnnamed a [(0, 0x8A), (0x90, 144), (0x120, 8), (0x128, 4)] with
  | some i => .fail Status.malformed i
  | none =>
    if 4095 < numAt a 0x88 2 then .fail Status.malformed 0x88
    else if !(aligned 8 (numAt a 0x120 8)) then .fail Status.malformed 0x120
    else if numAt a 0x128 4 = 0 ∨ 4096 < numAt a 0x128 4 then .fail Status.malformed 0x128
    else match s.hostRead (numAt a 0x120 8) (numAt a 0x128 4) with
      | none => .fail Status.addressFault 0x120
      | some cert =>
        if !(ticketOk t (numAt a 0x88 2) (numAt a 0x28 4)) ∨ !(s.pkg.signed.contains (cert, t)) then .fail Status.denied 1
        else s.runCreate (a.take 136) (some { peer := numAt a 0x88 2, session := BitVec.ofNat 128 (numAt t 0x18 16), ticket := t })

theorem State.migrateIn_eq (s : State) : s.migrateIn = s.command 0x0026 304 72 State.migrateRun := rfl

/-- Where a migrated partition comes from (R399). -/
def migrationOf (args : List Byte) : Migration :=
  { peer := Claims.field args 0x88 2, session := BitVec.ofNat 128 (Claims.field ((args.drop 0x90).take 144) 0x18 16), ticket := (args.drop 0x90).take 144 }

/-- A migration whose ticket names both ends and verifies is a create (R399). -/
theorem State.migrateRun_eq {s : State} {args cert : List Byte} (hd : s.pkg.denied = []) (hlen : args.length = 304)
    (hzero : ∀ i ∈ [0x8A, 0x8B, 0x8C, 0x8D, 0x8E, 0x8F, 0x12C, 0x12D, 0x12E, 0x12F], args.getD i 0 = 0) (hpeer : Claims.field args 0x88 2 ≤ 4095)
    (hal : Claims.field args 0x120 8 % 8 = 0) (hn1 : 1 ≤ Claims.field args 0x128 4) (hn2 : Claims.field args 0x128 4 ≤ 4096)
    (hin : Claims.field args 0x120 8 + Claims.field args 0x128 4 ≤ 2 ^ 46) (hclean : Claims.HostClean s (Claims.field args 0x120 8) (Claims.field args 0x128 4))
    (hcert : cert = s.mem.readN (Claims.field args 0x128 4) (0x080000000000 + Claims.field args 0x120 8))
    (hticket : ticketOk ((args.drop 0x90).take 144) (Claims.field args 0x88 2) (Claims.field args 0x28 4) = true)
    (hsigned : (cert, (args.drop 0x90).take 144) ∈ s.pkg.signed) :
    s.migrateRun args = s.runCreate (args.take 136) (some (migrationOf args)) := by
  have hunnamed : firstUnnamed args [(0, 0x8A), (0x90, 144), (0x120, 8), (0x128, 4)] = none := getD_eq_zero_of_firstUnnamed fun i hi hnot => hzero i <| by
    simp only [List.mem_cons, List.not_mem_nil, or_false, forall_eq_or_imp, forall_eq] at hnot ⊢
    omega
  have hpeer' : ¬ 4095 < numAt args 0x88 2 := Nat.not_lt.2 hpeer
  have hal' : aligned 8 (numAt args 0x120 8) = true := (aligned_iff ..).2 hal
  have hn : ¬(numAt args 0x128 4 = 0 ∨ 4096 < numAt args 0x128 4) := fun h => by
    have h1 : numAt args 0x128 4 = Claims.field args 0x128 4 := rfl
    omega
  have hread : s.hostRead (numAt args 0x120 8) (numAt args 0x128 4) = some cert := by
    rw [hcert]; exact State.hostRead_allowed hd hin hclean
  have hticket' : ticketOk ((args.drop 0x90).take 144) (numAt args 0x88 2) (numAt args 0x28 4) = true := hticket
  have hcontains : s.pkg.signed.contains (cert, (args.drop 0x90).take 144) = true := List.contains_iff_mem.2 hsigned
  rw [State.migrateRun, hunnamed]
  dsimp only
  rw [if_neg hpeer', hal', if_neg hn, hread]
  dsimp only
  rw [hticket', hcontains]
  rfl

/-- Settles O57: both commands run one create, whose steps R143 lists and whose end changes nothing where no other create waits. -/
theorem creates : Obligations.Creates := by
  intro s c bs args
  refine ⟨fun hat => ?_, ?_⟩
  · have hlen := args_length hat
    exact makes_of_run hat (run := fun st a => st.runCreate a none) (congrArg (s.runCreate · none) (List.take_of_length_le hlen.le).symm) fun _ => rfl
  · intro cert hat hzero hpeer hal hn1 hn2 hin hclean hcert ticket hticket hsigned
    refine makes_of_run hat (run := State.migrateRun)
      (State.migrateRun_eq (denied_of_atCommand hat) (args_length hat) hzero hpeer hal hn1 hn2 hin hclean hcert hticket hsigned) fun hnone => ?_
    have hexec : exec .partMigrateIn s = .next s.partMigrateIn := rfl
    rw [hexec, State.partMigrateIn, State.migrateIn_eq]
    rw [State.dropForming_eq _ hnone, ite_self]

end Sys2Proof.Machine

/-!
O52: PART.SUSPEND, PART.RESUME and SUSPEND_TIMEOUT (R138, R361, R364, R388, R394, R396, R397).
-/
namespace Sys2Proof.Machine

/-! ## What a restore leaves of the package and of partitions -/

/-- A field of the state that neither an access, nor a change of a region, of memory or of a column's supply, nor a fatal cause touches. -/
structure State.Untouched {β : Type} (field : State → β) : Prop where
  access : ∀ {w : Who} {s t : State}, State.Worked w s t → field t = field s
  region : ∀ (s : State) (r : Nat) (g : Region), field (s.setReg r g) = field s
  memory : ∀ (s : State) (f : Memory → Memory), field (s.modMem f) = field s
  column : ∀ (s : State) (r : Nat), field (s.columnOn r) = field s
  fatal : ∀ (s : State) (p : Nat) (q : ResetReq), field (s.fatal p q) = field s

namespace State.Untouched

section

variable {β : Type} {field : State → β} (h : State.Untouched field)
include h

theorem queueCause (s : State) (r : Nat) (c : Pend) : field (s.queueCause r c) = field s := by
  unfold State.queueCause
  split
  · rfl
  · dsimp only
    split
    · exact h.fatal ..
    · exact h.region ..

theorem tagEvent (s : State) (r n mode src : Nat) : field (s.tagEvent r n mode src) = field s := by
  unfold State.tagEvent
  dsimp only
  split
  · exact h.region ..
  · split
    · exact h.region ..
    · exact h.queueCause ..

theorem chanLost (s : State) (r : Nat) (e : ChanEnd) : field (s.chanLost r e) = field s := (h.queueCause ..).trans (h.region ..)

theorem chanWrite (s : State) (r : Nat) (e : ChanEnd) (off n v : Nat) : field (s.chanWrite r e off n v).1 = field s := by
  have hw := h.access (s.writeNum_worked (s.chanWho r) (e.header + off) n v)
  unfold State.chanWrite
  split
  · next he => rw [he] at hw; exact (h.queueCause ..).trans ((h.region ..).trans hw)
  · exact hw

theorem chanCorrupt (s : State) (r : Nat) (e : ChanEnd) : field (s.chanCorrupt r e).1 = field s := by
  have hw := (h.chanWrite (s.modReg r fun g => g.stopSends e.num) r e 0x18 4 0x084).trans (h.region ..)
  unfold State.chanCorrupt
  split <;> rename_i he <;> rw [he] at hw
  · exact hw
  · exact (h.chanLost ..).trans hw
  · next s1 =>
    have hw2 := h.chanWrite s1 r e 0x14 4 1
    split <;> rename_i he2 <;> rw [he2] at hw2
    · exact hw2.trans hw
    · exact (h.chanLost ..).trans (hw2.trans hw)

theorem chanRead (s : State) (r : Nat) (e : ChanEnd) : field (s.chanRead r e).1 = field s := by
  have hr := h.access (s.readVA_worked (s.chanWho r) e.header 64)
  unfold State.chanRead
  split <;> rename_i he <;> rw [he] at hr
  · split
    · exact (h.chanCorrupt ..).trans hr
    · exact (h.region ..).trans hr
  · exact hr
  · exact hr

theorem rereadEnds (s : State) (r : Nat) : field (s.rereadEnds r) = field s :=
  foldl_keeps field _ (fun st e => by
    split
    · rfl
    · exact h.chanRead st r e) _ s

theorem restoreLane (s : State) (p : Nat) (held : List Signal) (words : List (Nat × GWord)) (l : SavedLane) :
    field (s.restoreLane p held words l) = field s :=
  (foldl_keeps field _ (fun st (g : Signal) => h.tagEvent st g.dst g.tag g.mode g.src) _ _).trans
    ((h.rereadEnds _ _).trans ((h.memory _ _).trans ((h.region _ _ _).trans (h.column _ _))))

/-- As for `readRecords_sets`, the recursion is unfolded before the list is known, so that no lane's offset is evaluated. -/
theorem readRecords (p : Nat) (d : DieGraph) (ls : List SavedLane) : ∀ s : State, field (s.readRecords p d ls).1 = field s := by
  have hpages (s : State) (w : Who) (k : AKind) (n va : Nat) : field (s.recordPages w k n va).1 = field s := h.access (State.recordPages_worked w k n s va)
  delta State.readRecords State.readRecords._f
  generalize State.recordPages = pages at hpages ⊢
  as_aux_lemma =>
    induction ls with
    | nil => exact fun s => rfl
    | cons l ls ih =>
      intro s
      dsimp only
      split <;> rename_i he <;> have hp := (congrArg (fun y => field y.1) he).symm.trans (hpages ..)
      · exact (ih _).trans ((foldl_keeps field _ (fun st a => h.access (st.countBytes_worked (xdWho p) p a 4096)) _ _).trans hp)
      · exact hp
      · exact hp

theorem readBack (p : Nat) (es : List (Replay × Nat × DieGraph)) : ∀ s : State, field (s.readBack p es).1 = field s := by
  induction es with
  | nil => exact fun s => rfl
  | cons e es ih =>
    intro s
    have hr := h.readRecords p e.2.2 e.2.2.saved s
    unfold State.readBack
    split
    · next s1 he => rw [he] at hr; exact (ih s1).trans hr
    · exact hr

end

section

variable {β : Type} {field : State → β} (h : State.Untouched field) (hpart : ∀ (s : State) (p : Nat) (f : Part → Part), field (s.modPart p f) = field s)
include h hpart

theorem restoreDg (s : State) (p n i : Nat) (d : DieGraph) : field (s.restoreDg p n i d) = field s := by
  have hr := h.readRecords p d d.saved s
  unfold State.restoreDg
  split <;> rename_i he <;> rw [he] at hr
  · exact (h.fatal ..).trans hr
  · exact (hpart ..).trans hr
  · exact (foldl_keeps field _ (fun st l => h.restoreLane st p d.held d.heldWords l) _ _).trans ((hpart ..).trans hr)

theorem restoreAll (s : State) (t : RSet) (p : Nat) (v : Part) : field (s.restoreAll t p v) = field s :=
  foldl_keeps field _ (fun st (e : Replay × Nat × DieGraph) => h.restoreDg hpart st p e.1.num e.2.1 e.2.2) _ s

theorem finishRestores (s : State) (t : RSet) : field (s.finishRestores t) = field s :=
  foldl_keeps field _ (fun st p => by
    split
    · rfl
    · exact foldl_keeps field _ (fun u (e : Replay × Nat × DieGraph) => (hpart ..).trans (h.restoreDg hpart u p e.1.num e.2.1 e.2.2)) _ st) _ s

omit hpart in
theorem placeStage (s : State) (p : Nat) (y : Replay) (i : Nat) (all : List Nat) (g : StageRec) : field (s.placeStage p y i all g) = field s :=
  foldl_keeps field _ (fun st (e : Nat × Nat) => (h.region (st.columnOn e.1) ..).trans (h.column ..)) _ s

theorem placeDg (s : State) (p : Nat) (v : Part) (y : Replay) (i : Nat) (d : DieGraph) : field (s.placeDg p v y i d) = field s :=
  (foldl_keeps field _ (fun st g => h.placeStage st p y i _ g) _ _).trans ((hpart ..).trans (hpart ..))

theorem placeAll (k p n : Nat) : ∀ s : State, field (s.placeAll k p n) = field s := by
  induction n with
  | zero => exact fun s => rfl
  | succ n ih =>
    intro s
    unfold State.placeAll
    split
    · split
      · exact (ih _).trans (h.placeDg hpart ..)
      · rfl
    · rfl

theorem schedule (s : State) (k : Nat) : field (s.schedule k) = field s := by
  unfold State.schedule
  split
  · rfl
  · next t _ =>
    have hf := h.finishRestores hpart s t
    dsimp only
    split
    · exact hf
    · split
      · exact (h.placeAll hpart ..).trans ((h.restoreAll hpart ..).trans hf)
      · exact hf

end

end State.Untouched

/-- What the host refuses, and the commands in progress. -/
def State.commands (s : State) : List (Nat × Nat) × List (Nat × Nat × Nat × Nat × Nat) := (s.pkg.denied, s.pkg.inProgress)

theorem State.commands_modPart (s : State) (p : Nat) (f : Part → Part) : (s.modPart p f).commands = s.commands := by
  rw [State.commands, State.modPart_pkg, State.commands]

theorem State.commands_untouched : State.Untouched State.commands where
  access h := by rw [State.commands, h.pkg, State.commands]
  region _ _ _ := rfl
  memory _ _ := rfl
  column _ _ := rfl
  fatal s p _ := s.commands_modPart p _

/-- The replays of a partition, if it exists. -/
def State.replaysOf (p : Nat) (s : State) : Option (List Replay) := (s.part? p).map Part.replays

theorem State.replaysOf_modPart (s : State) (p r : Nat) (f : Part → Part) (hf : ∀ v, (f v).replays = v.replays) :
    (s.modPart r f).replaysOf p = s.replaysOf p := by
  rw [State.replaysOf, State.part_modPart, State.replaysOf]
  split
  · next h => rw [h, Option.map_map]; exact Option.map_congr fun v _ => hf v
  · rfl

theorem State.replaysOf_untouched (p : Nat) : State.Untouched (State.replaysOf p) where
  access {_ s t} h := by
    have hcore (v : Option Part) : v.map Part.replays = (v.map Part.core).map Part.replays := by cases v <;> rfl
    rw [State.replaysOf, hcore, h.part, ← hcore, State.replaysOf]
  region _ _ _ := rfl
  memory _ _ := rfl
  column _ _ := rfl
  fatal s r _ := s.replaysOf_modPart p r _ fun _ => rfl

/-! ## Commands that take effect over more than one step (R138) -/

section

variable {s t : State} {c : CfwQueue} {bs args : List Byte} {op len extra p : Nat} {run : State → List Byte → CmdOut}
  (h : Claims.AtCommand s c bs args op len extra) (hrun : run s args = .starts t p) (hd : t.pkg.denied = [])
include h hrun hd

/-- A command that starts is taken from the queue and is in progress. -/
theorem State.command_starts : (s.command op len extra run).parts = t.parts ∧ (s.command op len extra run).regs = t.regs ∧
    (s.command op len extra run).pkg = { t.pkg with
      cfw := some { c with cons := c.cons + 1, started := none }
      inProgress := t.pkg.inProgress ++ [(op, p, Claims.field bs 4 4, Claims.field bs 0x18 8, c.started.getD s.tick)] } := by
  have heq := State.command_eq h run
  obtain ⟨-, -, -, -, -, -, -, -, -, -, -, -, -, -, -, -, -, hpa, -⟩ := h
  rw [hrun] at heq
  dsimp only at heq
  rw [heq, State.takeCommand_eq hd hpa]
  exact ⟨rfl, rfl, rfl⟩

end

theorem State.complete_frame (s : State) (op ctag res start status detail : Nat) (results more : List Byte) :
    s.complete op ctag res start status detail results more = { s with mem := (s.complete op ctag res start status detail results more).mem } := by
  rw [State.complete]
  split <;> rfl

section

variable {s : State} {op p : Nat} {e : Nat × Nat × Nat × Nat × Nat} (h : s.pkg.inProgress.find? (fun x => x.1 == op && x.2.1 == p) = some e) (status : Nat)
include h

theorem State.any_inProgress : s.pkg.inProgress.any (fun x => x.1 == op && x.2.1 == p) = true :=
  List.any_eq_true.2 ⟨e, List.mem_of_find?_eq_some h, List.find?_some (p := fun x : Nat × Nat × Nat × Nat × Nat => x.1 == op && x.2.1 == p) h⟩

theorem State.finish_eq : s.finish op p status = (s.modPkg fun k => { k with inProgress := k.inProgress.filter fun x => !(x.1 == op && x.2.1 == p) }).complete
    op e.2.2.1 e.2.2.2.1 e.2.2.2.2 status 0 [] [] := by
  obtain ⟨o, q, ctag, res, start⟩ := e
  rw [State.finish, h]

/-- A command that finishes is no longer in progress, and changes nothing else but memory. -/
theorem State.finish_frame : (s.finish op p status).parts = s.parts ∧ (s.finish op p status).regs = s.regs ∧
    (s.finish op p status).pkg.inProgress = s.pkg.inProgress.filter fun x => !(x.1 == op && x.2.1 == p) := by
  rw [State.finish_eq h, State.complete_frame]
  exact ⟨rfl, rfl, rfl⟩

/-- The completion of a command that finishes. -/
theorem State.finish_resultAt (hd : Claims.HostAllows s) (hres : e.2.2.2.1 + 64 ≤ 2 ^ 46) :
    Claims.ResultAt s.mem (s.finish op p status) (fun _ => False) e.2.2.2.1 op e.2.2.1 e.2.2.2.2 s.tick status 0 [] [] := by
  rw [State.finish_eq h]
  refine (State.complete_resultAt ?_ hres (Nat.zero_le _) fun _ _ => ?_).2
  · exact hd
  · rfl

end

/-! ## PART.SUSPEND -/

/-- A die graph when a suspension starts (R396). -/
def DieGraph.suspendCut (now : Nat) (d : DieGraph) : DieGraph :=
  if d.place = .placed then { d with place := .saving now, missing := false, forSuspend := true, batch := none }
  else if d.place = .restoring then { d with place := .saved, batch := none } else { d with batch := none }

/-- The marker of a suspension, and the restore that it ends, as one change of a die graph. -/
theorem DieGraph.cut_suspend (now : Nat) (d : DieGraph) :
    (if (d.cut now true).place = .restoring then { d.cut now true with place := .saved } else d.cut now true) = d.suspendCut now := by
  cases hd : d.place <;> simp [DieGraph.cut, DieGraph.suspendCut, DieGraph.isPlaced, hd]

theorem Replay.cut_suspend (now : Nat) (rs : List Replay) :
    (rs.map fun (y : Replay) => { y with dgs := y.dgs.map fun (d : DieGraph) => d.cut now true }).map (fun (y : Replay) => { y with dgs := y.dgs.map fun (d : DieGraph) =>
      if d.place = .restoring then { d with place := .saved } else d }) = rs.map fun y => { y with dgs := y.dgs.map (DieGraph.suspendCut now) } := by
  rw [List.map_map]
  refine List.map_congr_left fun y _ => ?_
  dsimp only [Function.comp_apply]
  rw [List.map_map]
  exact congrArg (fun l => { y with dgs := l }) (List.map_congr_left fun d _ => DieGraph.cut_suspend now d)

/-- The partition whose suspension starts. -/
theorem State.part_startSuspend {s : State} {p : Nat} {v : Part} (hv : s.part? p = some v) :
    ∃ w, (s.startSuspend p).part? p = some w ∧ w.suspending = some s.tick ∧ w.state = v.state ∧
      w.replays = v.replays.map fun y => { y with dgs := y.dgs.map (DieGraph.suspendCut s.tick) } := by
  have hmark (f : Part → Part) : ((s.sendMarkers p s.tick true).modPart p f).part? p =
      some (f { v with replays := v.replays.map fun y => { y with dgs := y.dgs.map fun d => d.cut s.tick true } }) := by
    rw [State.part_modPart, if_pos rfl, State.sendMarkers, State.part_modPart, if_pos rfl, hv]; rfl
  rw [State.startSuspend]
  obtain ⟨w, hw, hcore⟩ := (State.invDrop_worked _ (xdWho p) p _).part_some (hmark _)
  exact ⟨w, hw, (congrArg Part.suspending hcore :), (congrArg Part.state hcore :), (Part.replays_of_core hcore).trans (Replay.cut_suspend s.tick v.replays)⟩

theorem State.startSuspend_commands (s : State) (p : Nat) : (s.startSuspend p).commands = s.commands := by
  rw [State.startSuspend, State.commands_untouched.access (State.invDrop_worked _ (xdWho p) p _), State.commands_modPart, State.sendMarkers, State.commands_modPart]

theorem State.startSuspend_regs (s : State) (p : Nat) : (s.startSuspend p).regs = s.regs := by
  rw [State.startSuspend, State.invDrop_regs, State.modPart_regs, State.sendMarkers, State.modPart_regs]

theorem suspendStarts (s : State) (c : CfwQueue) (bs args : List Byte) (p : Nat) (v : Part) (hat : Claims.AtCommand s c bs args 0x23 8 0)
    (hnames : Claims.Names s args [] p v) (hready : v.state = .ready) :
    ∃ t w, exec (.partSuspend none) s = .next t ∧ t.part? p = some w ∧ w.suspending = some s.tick ∧ w.state = .ready ∧
      w.replays = v.replays.map (fun (y : Replay) => { y with dgs := y.dgs.map (fun (d : DieGraph) =>
        if d.place = .placed then { d with place := .saving s.tick, missing := false, forSuspend := true, batch := none }
        else if d.place = .restoring then { d with place := .saved, batch := none } else { d with batch := none }) }) ∧
      t.pkg.cfw = some { c with cons := c.cons + 1, started := none } ∧
      t.pkg.inProgress = s.pkg.inProgress ++ [(0x23, p, Claims.field bs 4 4, Claims.field bs 0x18 8, c.started.getD s.tick)] ∧ t.regs = s.regs := by
  have hcommands := s.startSuspend_commands p
  have hdenied : (s.startSuspend p).pkg.denied = [] := (congrArg Prod.fst hcommands).trans (denied_of_atCommand hat)
  have hprogress : (s.startSuspend p).pkg.inProgress = s.pkg.inProgress := congrArg Prod.snd hcommands
  obtain ⟨hparts, hregs, hpkg⟩ := State.command_starts hat
    (run := fun st a => st.forPart a [] fun p v => if v.state = .ready then .starts (st.startSuspend p) p else .fail Status.state 0)
    ((State.forPart_eq hnames _).trans (if_pos hready)) hdenied
  obtain ⟨-, hv, -⟩ := hnames
  obtain ⟨w, hw, hsince, hstate, hreplays⟩ := State.part_startSuspend hv
  refine ⟨s.partSuspend, w, rfl, ?_, hsince, hstate.trans hready, hreplays, ?_, ?_, hregs.trans (s.startSuspend_regs p)⟩
  · exact (congrArg (fun l => spFind l p) hparts).trans hw
  · exact congrArg Pkg.cfw hpkg
  · rw [← hprogress]; exact congrArg Pkg.inProgress hpkg

/-- The saves of a suspension are over. -/
theorem Part.savesOver_of {v : Part} (hsaved : ∀ x ∈ v.dieGraphs, x.2.2.isPlaced = false ∧ x.2.2.isSaving = false) (howed : ∀ y ∈ v.replays, v.endOwed y = false) :
    v.savesOver = true := by
  rw [Part.savesOver, Bool.and_eq_true, List.all_eq_true, List.all_eq_true]
  refine ⟨fun x hx => ?_, fun y hy => ?_⟩
  · obtain ⟨hplaced, hsaving⟩ := hsaved x hx
    rw [hplaced, hsaving]; rfl
  · rw [howed y hy]; rfl

section

variable {s : State} {p : Nat} {v : Part} {e : Nat × Nat × Nat × Nat × Nat} (hp : p < 48) (hv : s.part? p = some v) (hallow : Claims.HostAllows s)
  (he : s.pkg.inProgress.find? (fun x => x.1 == 0x23 && x.2.1 == p) = some e) (hres : e.2.2.2.1 + 64 ≤ 2 ^ 46)
include hp hv hallow he hres

theorem suspendCompletes (hsus : v.suspending ≠ none) (hsaved : ∀ x ∈ v.dieGraphs, x.2.2.isPlaced = false ∧ x.2.2.isSaving = false)
    (howed : ∀ y ∈ v.replays, v.endOwed y = false) :
    ∃ t w, exec (.partSuspend (some p)) s = .next t ∧ t.part? p = some w ∧
      w = { v with state := .suspended, meter := { v.meter with pauses := v.meter.pauses ++ [(s.tick, none)] } } ∧
      t.pkg.inProgress = s.pkg.inProgress.filter (fun x => !(x.1 == 0x23 && x.2.1 == p)) ∧ t.regs = s.regs ∧
      Claims.ResultAt s.mem t (fun _ => False) e.2.2.2.1 0x23 e.2.2.1 e.2.2.2.2 s.tick 0 0 [] [] := by
  have hpkg : (s.enterSuspended p).pkg = s.pkg := State.modPart_pkg ..
  have hmem : (s.enterSuspended p).mem = s.mem := State.modPart_mem ..
  have htick : (s.enterSuspended p).tick = s.tick := State.modPart_tick ..
  have hfind : (s.enterSuspended p).pkg.inProgress.find? (fun x => x.1 == 0x23 && x.2.1 == p) = some e := by rw [hpkg]; exact he
  have hnone : ¬ v.suspending.isNone = true := fun h => hsus (Option.isNone_iff_eq_none.1 h)
  have heq : exec (.partSuspend (some p)) s = .next ((s.enterSuspended p).finish 0x23 p 0) := by
    show execPartSuspend (some p) s = _
    rw [execPartSuspend, if_pos hp, State.finishSuspend, State.any_inProgress he, hv, Bool.not_true, if_neg Bool.false_ne_true]
    dsimp only
    rw [if_neg hnone, if_pos (Part.savesOver_of hsaved howed)]
  obtain ⟨hparts, hregs, hprogress⟩ := State.finish_frame hfind 0
  have hat := State.finish_resultAt hfind 0 (show Claims.HostAllows _ by rw [Claims.HostAllows, hpkg]; exact hallow) hres
  rw [hmem, htick] at hat
  refine ⟨_, _, heq, ?_, rfl, by rw [hprogress, hpkg], hregs.trans (State.modPart_regs ..), hat⟩
  rw [State.part?, hparts, ← State.part?, State.enterSuspended, State.part_modPart, if_pos rfl, hv]
  rfl

/-- A suspension that a reset has ended. -/
theorem suspendEnded (hsus : v.suspending = none) :
    ∃ t, exec (.partSuspend (some p)) s = .next t ∧ t.parts = s.parts ∧ t.regs = s.regs ∧
      Claims.ResultAt s.mem t (fun _ => False) e.2.2.2.1 0x23 e.2.2.1 e.2.2.2.2 s.tick 14 0 [] [] := by
  have heq : exec (.partSuspend (some p)) s = .next (s.finish 0x23 p Status.timeout) := by
    show execPartSuspend (some p) s = _
    rw [execPartSuspend, if_pos hp, State.finishSuspend, State.any_inProgress he, hv, Bool.not_true, if_neg Bool.false_ne_true]
    dsimp only
    rw [hsus]; rfl
  obtain ⟨hparts, hregs, -⟩ := State.finish_frame he Status.timeout
  exact ⟨_, heq, hparts, hregs, State.finish_resultAt he Status.timeout hallow hres⟩

end

theorem suspends : Claims.Suspends :=
  ⟨suspendStarts, fun _ _ _ _ hp hv hallow he hres => suspendCompletes hp hv hallow he hres, fun _ _ _ _ hp hv hallow he hres => suspendEnded hp hv hallow he hres⟩

/-! ## PART.RESUME -/

/-- A partition that runs on (R396, R397). -/
theorem State.part_runOn {s : State} {p : Nat} {v : Part} (hv : s.part? p = some v) :
    ∃ w, (s.runOn p).part? p = some w ∧ w.state = .ready ∧ w.suspending = none ∧
      w.replays = v.replays.map fun y => { y with dgs := y.dgs.map fun d => { d with forSuspend := false } } := by
  rw [State.runOn, State.part_modPart, if_pos rfl, hv]
  exact ⟨_, rfl, rfl, rfl, rfl⟩

/-- The state at a resumption, before a decision of the scheduler: on a shared set the regions wait for the next slice (R397). -/
def State.resumed (s : State) (p : Nat) (v : Part) : State :=
  if s.exclusive v then s.runOn p else (s.runOn p).modPart p fun w => { w with waitSlice := true }

theorem State.part_resumed {s : State} {p : Nat} {v : Part} (hv : s.part? p = some v) :
    ∃ w, (s.resumed p v).part? p = some w ∧ w.state = .ready ∧ w.suspending = none ∧
      w.replays = v.replays.map (fun y => { y with dgs := y.dgs.map fun d => { d with forSuspend := false } }) ∧ (s.exclusive v = false → w.waitSlice = true) := by
  obtain ⟨w, hw, hstate, hsus, hreplays⟩ := State.part_runOn hv
  rw [State.resumed]
  split
  · next hx => exact ⟨w, hw, hstate, hsus, hreplays, fun h => Bool.noConfusion (hx.symm.trans h)⟩
  · rw [State.part_modPart, if_pos rfl, hw]
    exact ⟨_, rfl, hstate, hsus, hreplays, fun _ => rfl⟩

/-- What a change of the partition leaves of a field holds of a resumption. -/
theorem State.resumed_keeps {β : Type} {field : State → β} (hpart : ∀ (s : State) (p : Nat) (f : Part → Part), field (s.modPart p f) = field s) (s : State) (p : Nat)
    (v : Part) : field (s.resumed p v) = field s := by
  rw [State.resumed]
  split
  · exact hpart ..
  · exact (hpart ..).trans (hpart ..)

theorem resumeStarts (s : State) (c : CfwQueue) (bs args : List Byte) (p : Nat) (v : Part) (hat : Claims.AtCommand s c bs args 0x24 8 0)
    (hnames : Claims.Names s args [] p v) (hstate : v.state = .suspended) :
    ∃ (t u : State) (w : Part), exec (.partResume none) s = .next t ∧ u.part? p = some w ∧ w.state = .ready ∧ w.suspending = none ∧
      w.replays = v.replays.map (fun (y : Replay) => { y with dgs := y.dgs.map (fun (d : DieGraph) => { d with forSuspend := false }) }) ∧
      (s.exclusive v = false → w.waitSlice = true) ∧ u.regs = s.regs ∧ u.mem = s.mem ∧
      (let x := if s.exclusive v then u.schedule v.set else u
       t.parts = x.parts ∧ t.regs = x.regs ∧
       t.pkg.inProgress = x.pkg.inProgress ++ [(0x24, p, Claims.field bs 4 4, Claims.field bs 0x18 8, c.started.getD s.tick)]) := by
  have hdecide : (if s.exclusive v then (s.runOn p).schedule v.set else (s.runOn p).modPart p fun u => { u with waitSlice := true }) =
      if s.exclusive v then (s.resumed p v).schedule v.set else s.resumed p v := by
    rw [State.resumed]
    split <;> rfl
  have hcommands : (if s.exclusive v then (s.resumed p v).schedule v.set else s.resumed p v).commands = s.commands := by
    split
    · exact (State.commands_untouched.schedule State.commands_modPart ..).trans (State.resumed_keeps State.commands_modPart ..)
    · exact State.resumed_keeps State.commands_modPart ..
  have hdenied := (congrArg Prod.fst hcommands).trans (denied_of_atCommand hat)
  have hsuspended : ¬ v.state ≠ .suspended := not_not.2 hstate
  obtain ⟨hparts, hregs, hpkg⟩ := State.command_starts hat
    (run := fun st a => st.forPart a [] fun p v => if v.state ≠ .suspended then .fail Status.state 0
      else .starts (if st.exclusive v then (st.runOn p).schedule v.set else (st.runOn p).modPart p (fun u => { u with waitSlice := true })) p)
    ((State.forPart_eq hnames _).trans ((if_neg hsuspended).trans (congrArg (CmdOut.starts · p) hdecide))) hdenied
  obtain ⟨-, hv, -⟩ := hnames
  obtain ⟨w, hw, hready, hsus, hreplays, hwait⟩ := State.part_resumed hv
  exact ⟨s.partResume, s.resumed p v, w, rfl, hw, hready, hsus, hreplays, hwait, State.resumed_keeps State.modPart_regs s p v,
    State.resumed_keeps State.modPart_mem s p v, hparts, hregs, congrArg Pkg.inProgress hpkg⟩

theorem resumeCompletes (s : State) (p : Nat) (v : Part) (e : Nat × Nat × Nat × Nat × Nat) (hp : p < 48) (hv : s.part? p = some v) (hallow : Claims.HostAllows s)
    (he : s.pkg.inProgress.find? (fun x => x.1 == 0x24 && x.2.1 == p) = some e) (hres : e.2.2.2.1 + 64 ≤ 2 ^ 46) (hleft : s.restoresLeft v = false) :
    ∃ t, exec (.partResume (some p)) s = .next t ∧ t.parts = s.parts ∧ t.regs = s.regs ∧
      t.pkg.inProgress = s.pkg.inProgress.filter (fun x => !(x.1 == 0x24 && x.2.1 == p)) ∧
      Claims.ResultAt s.mem t (fun _ => False) e.2.2.2.1 0x24 e.2.2.1 e.2.2.2.2 s.tick 0 0 [] [] := by
  have heq : exec (.partResume (some p)) s = .next (s.finish 0x24 p 0) := by
    show execPartResume (some p) s = _
    rw [execPartResume, if_pos hp, State.finishResume, State.any_inProgress he, hv, Bool.not_true, if_neg Bool.false_ne_true]
    dsimp only
    rw [hleft, if_neg Bool.false_ne_true, hv]
    dsimp only
    rw [hleft, if_neg Bool.false_ne_true]
  obtain ⟨hparts, hregs, hprogress⟩ := State.finish_frame he 0
  exact ⟨_, heq, hparts, hregs, hprogress, State.finish_resultAt he 0 hallow hres⟩

theorem resumes : Claims.Resumes := ⟨resumeStarts, resumeCompletes⟩

/-! ## SUSPEND_TIMEOUT -/

/-- The die graphs that are being saved stand in a list of die graphs that are to be undone. -/
def SavesWithin (es : List (Replay × Nat × DieGraph)) (rs : List Replay) : Prop :=
  ∀ y ∈ rs, ∀ (i : Nat) (d : DieGraph), y.dgs[i]? = some d → d.isSaving = true → ∃ e ∈ es, e.1.num = y.num ∧ e.2.1 = i

theorem Part.mem_dieGraphs {v : Part} {x : Replay × Nat × DieGraph} : x ∈ v.dieGraphs ↔ x.1 ∈ v.replays ∧ x.1.dgs[x.2.1]? = some x.2.2 := by
  obtain ⟨y, i, d⟩ := x
  rw [Part.dieGraphs, List.mem_flatMap]
  constructor
  · rintro ⟨z, hz, hmem⟩
    obtain ⟨⟨b, j⟩, hb, heq⟩ := List.mem_map.1 hmem
    obtain ⟨rfl, rfl, rfl⟩ : z = y ∧ j = i ∧ b = d := by simpa using heq
    exact ⟨hz, List.mem_zipIdx_iff_getElem?.1 hb⟩
  · rintro ⟨hy, hd⟩
    exact ⟨y, hy, List.mem_map.2 ⟨(d, i), List.mem_zipIdx_iff_getElem?.2 hd, rfl⟩⟩

/-- The saves that a suspension alone holds, on dies that no trip holds, are all undone. -/
theorem savesWithin_undone {s : State} {p : Nat} {v : Part}
    (h : ∀ x ∈ v.dieGraphs, x.2.2.isSaving = true → x.2.2.forSuspend = true ∧ (spGet {} s.pkg.thermal x.2.2.die).tripped = false) :
    SavesWithin (s.undone p v) v.replays := by
  intro y hy i d hd hsaving
  have hmem : (y, i, d) ∈ v.dieGraphs := Part.mem_dieGraphs.2 ⟨hy, hd⟩
  obtain ⟨hfor, htrip⟩ := h _ hmem hsaving
  refine ⟨(y, i, d), List.mem_filter.2 ⟨hmem, ?_⟩, rfl, rfl⟩
  dsimp only at hfor htrip ⊢
  rw [hfor, hsaving, htrip]; rfl

/-- A change of the die graphs of one number and index that leaves none of them being saved takes that one from the list. -/
theorem SavesWithin.modDg {e : Replay × Nat × DieGraph} {es : List (Replay × Nat × DieGraph)} {rs : List Replay} {f : DieGraph → DieGraph}
    (h : SavesWithin (e :: es) rs) (hf : ∀ d, (f d).isSaving = false) :
    SavesWithin es (rs.map fun y => if y.num = e.1.num then y.modDg e.2.1 f else y) := by
  intro z hz i d hd hsaving
  obtain ⟨y, hy, rfl⟩ := List.mem_map.1 hz
  have hrest (hne : ¬(e.1.num = y.num ∧ e.2.1 = i)) (hd : y.dgs[i]? = some d) : ∃ e ∈ es, e.1.num = y.num ∧ e.2.1 = i := by
    obtain ⟨x, hx, hat⟩ := h y hy i d hd hsaving
    rcases List.mem_cons.1 hx with rfl | hx
    · exact absurd hat hne
    · exact ⟨x, hx, hat⟩
  split at hd
  · next hnum =>
    rw [if_pos hnum]
    rw [Replay.modDg, List.getElem?_map, List.getElem?_zipIdx, Option.map_map, Option.map_eq_some_iff] at hd
    obtain ⟨b, hb, heq⟩ := hd
    dsimp only [Function.comp_apply] at heq
    rw [Nat.zero_add] at heq
    split at heq
    · rw [← heq, hf] at hsaving
      exact absurd hsaving Bool.false_ne_true
    · next hi => exact hrest (fun h => hi h.2.symm) (heq ▸ hb)
  · next hnum =>
    rw [if_neg hnum]
    exact hrest (fun h => hnum h.1.symm) hd

/-- A die graph whose save is abandoned runs on (R361). -/
def DieGraph.unsaved (d : DieGraph) : DieGraph :=
  { d with place := .placed, missing := false, saved := [], held := [], heldWords := [], forSuspend := false }

/-- A save that is abandoned changes its die graphs alone of the partition's replays (R361). -/
theorem State.undoSave_replays (s : State) (p n i : Nat) (d : DieGraph) :
    (s.undoSave p n i d).replaysOf p = (s.replaysOf p).map (List.map fun y => if y.num = n then y.modDg i DieGraph.unsaved else y) := by
  have hk := State.replaysOf_untouched p
  have hmod (t : State) : (t.modDg p n i DieGraph.unsaved).replaysOf p =
      (t.replaysOf p).map (List.map fun y => if y.num = n then y.modDg i DieGraph.unsaved else y) := by
    rw [State.modDg_eq, State.modReplay, State.replaysOf, State.part_modPart, if_pos rfl, Option.map_map, State.replaysOf, Option.map_map]
    rfl
  refine (hmod _).trans (congrArg _ ?_)
  exact (foldl_keeps (State.replaysOf p) _ (fun st r => hk.region st r _) _ _).trans
    (foldl_keeps (State.replaysOf p) _ (fun st l => hk.restoreLane st p d.held d.heldWords l) _ _)

theorem State.undoSave_commands (s : State) (p n i : Nat) (d : DieGraph) : (s.undoSave p n i d).commands = s.commands := by
  have hk := State.commands_untouched
  refine (State.commands_modPart ..).trans ?_
  exact (foldl_keeps State.commands _ (fun st r => hk.region st r _) _ _).trans
    (foldl_keeps State.commands _ (fun st l => hk.restoreLane st p d.held d.heldWords l) _ _)

/-- What a SUSPEND_TIMEOUT leaves of the command, by what was read for it: a read that is held leaves it in progress (R361, R364). -/
def State.afterUndo (t : State) (p : Nat) : Got Unit → State
  | .held => t
  | _ => t.finish 0x23 p Status.timeout

/-- The saves of a list are abandoned: none of its die graphs is being saved any more. -/
theorem State.undoSaves_replays (p : Nat) (es : List (Replay × Nat × DieGraph)) : ∀ (s : State) (rs : List Replay), s.replaysOf p = some rs →
    ∃ qs, (es.foldl (fun (st : State) (e : Replay × Nat × DieGraph) => st.undoSave p e.1.num e.2.1 e.2.2) s).replaysOf p = some qs ∧
      (SavesWithin es rs → SavesWithin [] qs) := by
  induction es with
  | nil => exact fun s rs hrs => ⟨rs, hrs, id⟩
  | cons e es ih =>
    intro s rs hrs
    obtain ⟨qs, hqs, hsaves⟩ := ih (s.undoSave p e.1.num e.2.1 e.2.2) _ ((s.undoSave_replays p e.1.num e.2.1 e.2.2).trans (by rw [hrs, Option.map_some]))
    exact ⟨qs, hqs, fun h => hsaves (h.modDg fun _ => rfl)⟩

section

variable {s s1 : State} {p since : Nat} {v : Part} {e : Nat × Nat × Nat × Nat × Nat} (hp : p < 48) (hv : s.part? p = some v)
  (hsus : v.suspending = some since) (he : s.pkg.inProgress.find? (fun x => x.1 == 0x23 && x.2.1 == p) = some e) (hover : v.savesOver = false)
  (hlate : 1000 * ((spFind s.sets v.set).map RSet.period).getD 0 + 200000 + 5000000 < s.tick - e.2.2.2.2)
include hp hv hsus he hover hlate

/-- The bound of a suspension has passed: what was read for it decides. -/
theorem suspendTimeout_eq {t : State} {g : Got Unit} (hundo : s.undoSuspend p = (t, g)) :
    exec (.suspendTimeout p) s = .next (t.afterUndo p g) := by
  obtain ⟨o, q, ctag, res, start⟩ := e
  have hdue : v.suspending.isSome ∧ !v.savesOver ∧ s.suspendBound v < s.tick - start := by
    rw [hsus, hover]; exact ⟨rfl, rfl, hlate⟩
  show execSuspendTimeout p s = _
  rw [execSuspendTimeout, if_pos hp, State.suspendTimeout, hv, he]
  dsimp only
  rw [if_pos hdue, hundo]
  cases g <;> rfl

theorem suspendUndone (hread : s.readBack p (s.undone p v) = (s1, .ok ())) :
    ∃ t w, exec (.suspendTimeout p) s = .next t ∧ t.part? p = some w ∧ w.state = .ready ∧ w.suspending = none ∧
      ((∀ x ∈ v.dieGraphs, x.2.2.isSaving = true → x.2.2.forSuspend = true ∧ (spGet {} s.pkg.thermal x.2.2.die).tripped = false) →
        ∀ x ∈ w.dieGraphs, x.2.2.isSaving = false) ∧
      t.pkg.inProgress = s.pkg.inProgress.filter (fun x => !(x.1 == 0x23 && x.2.1 == p)) := by
  set u := (s.undone p v).foldl (fun (st : State) (e : Replay × Nat × DieGraph) => st.undoSave p e.1.num e.2.1 e.2.2) s1 with hu
  have hundo : s.undoSuspend p = (u.runOn p, .ok ()) := by rw [State.undoSuspend, hv]; dsimp only; rw [hread]
  have hread1 : s1.replaysOf p = some v.replays := by
    have h := (State.replaysOf_untouched p).readBack p (s.undone p v) s
    rw [hread] at h
    rw [h, State.replaysOf, hv, Option.map_some]
  have hcommands : (u.runOn p).commands = s.commands := by
    have h := State.commands_untouched.readBack p (s.undone p v) s
    rw [hread] at h
    exact (State.commands_modPart ..).trans
      ((foldl_keeps State.commands _ (fun st (e : Replay × Nat × DieGraph) => st.undoSave_commands p e.1.num e.2.1 e.2.2) _ _).trans h)
  have hprogress : (u.runOn p).pkg.inProgress = s.pkg.inProgress := congrArg Prod.snd hcommands
  rw [← hprogress] at he
  obtain ⟨qs, hqs, hsaves⟩ := State.undoSaves_replays p (s.undone p v) s1 _ hread1
  obtain ⟨x, hx, rfl⟩ := Option.map_eq_some_iff.1 hqs
  obtain ⟨w, hw, hstate, hnone, hreplays⟩ := State.part_runOn hx
  obtain ⟨hparts, -, hdone⟩ := State.finish_frame he Status.timeout
  rw [hprogress] at he hdone
  refine ⟨_, w, suspendTimeout_eq hp hv hsus he hover hlate hundo, ?_, hstate, hnone, fun h => ?_, hdone⟩
  · exact (congrArg (fun l => spFind l p) hparts).trans hw
  · have hdgs := hsaves (savesWithin_undone h)
    intro z hz
    obtain ⟨hy, hd⟩ := Part.mem_dieGraphs.1 hz
    rw [hreplays] at hy
    obtain ⟨y, hy, heq⟩ := List.mem_map.1 hy
    rw [← heq, List.getElem?_map, Option.map_eq_some_iff] at hd
    obtain ⟨d, hd, hzd⟩ := hd
    rw [← hzd]
    refine Bool.eq_false_iff.2 fun hsaving => ?_
    obtain ⟨_, hmem, -⟩ := hdgs y hy _ d hd hsaving
    exact absurd hmem List.not_mem_nil

theorem suspendHeld (hread : s.readBack p (s.undone p v) = (s1, .held)) : exec (.suspendTimeout p) s = .next s1 :=
  suspendTimeout_eq hp hv hsus he hover hlate (t := s1) (g := .held) (by rw [State.undoSuspend, hv]; dsimp only; rw [hread])

theorem suspendFaults {c : BitVec 9} {a : Nat} (hread : s.readBack p (s.undone p v) = (s1, .fault c a)) :
    ∃ t w, exec (.suspendTimeout p) s = .next t ∧ t.part? p = some w ∧ w.state = .resetting ∧ w.reset ≠ none ∧
      t.pkg.inProgress = s.pkg.inProgress.filter (fun x => !(x.1 == 0x23 && x.2.1 == p)) := by
  have hundo : s.undoSuspend p = (s1.saveAreaFault p, .fault c a) := by rw [State.undoSuspend, hv]; dsimp only; rw [hread]
  have hreplays := (State.replaysOf_untouched p).readBack p (s.undone p v) s
  have hcommands := State.commands_untouched.readBack p (s.undone p v) s
  rw [hread] at hreplays hcommands
  have hprogress : (s1.saveAreaFault p).pkg.inProgress = s.pkg.inProgress :=
    congrArg Prod.snd ((State.commands_untouched.fatal s1 p _).trans hcommands)
  obtain ⟨x, hx, -⟩ := Option.map_eq_some_iff.1 (hreplays.trans (congrArg _ hv))
  rw [← hprogress] at he
  obtain ⟨hparts, -, hdone⟩ := State.finish_frame he Status.timeout
  rw [hprogress] at he hdone
  have hreset : ∃ w, (s1.saveAreaFault p).part? p = some w ∧ w.state = .resetting ∧ w.reset ≠ none := by
    rw [State.saveAreaFault, State.fatal, State.part_modPart, if_pos rfl, show s1.part? p = some x from hx]
    refine ⟨_, rfl, rfl, ?_⟩
    cases hr : x.reset <;> simp [hr]
  obtain ⟨w, hw, hstate, hwr⟩ := hreset
  exact ⟨_, w, suspendTimeout_eq hp hv hsus he hover hlate hundo, (congrArg (fun l => spFind l p) hparts).trans hw, hstate, hwr, hdone⟩

end

theorem suspendTimesOut : Claims.SuspendTimesOut := fun _ _ _ _ _ _ hp hv hsus he hover hlate =>
  ⟨suspendUndone hp hv hsus he hover hlate, suspendHeld hp hv hsus he hover hlate, fun _ _ => suspendFaults hp hv hsus he hover hlate⟩

/-- Settles O52: PART.SUSPEND and PART.RESUME by what their steps leave of the package, SUSPEND_TIMEOUT by an induction over the saves that it abandons. -/
theorem suspendResume : Obligations.SuspendResume := ⟨suspends, resumes, suspendTimesOut⟩

end Sys2Proof.Machine
